-- ==== Sys2Proof/Word.lean ====
section
/-! DEFINITION. The word types of the LK8 model: bytes, 32-bit and 64-bit words, 128-byte lines and
256-byte vector registers. Everything is little-endian (R7): bit 0 of a value is its least
significant bit and byte `i` of a line is its bits `[8i+7:8i]`. -/

namespace Sys2Proof

/-- One byte of a memory, packet or record. -/
abbrev Byte := BitVec 8
/-- A 32-bit register, instruction parcel or lane. -/
abbrev W32 := BitVec 32
/-- A 64-bit instruction, mask register or cycle count. -/
abbrev W64 := BitVec 64
/-- A 128-byte cache line; byte `i` of the line is bits `[8i+7:8i]` (R7). -/
abbrev Line := BitVec 1024
/-- The byte enables of a line: bit `i` enables byte `i` (R48). -/
abbrev ByteEn := BitVec 128
/-- A vector register of 64 lanes of 32 bits; lane `i` is bits `[32i+31:32i]` (R115). -/
abbrev VReg := BitVec 2048

end Sys2Proof
end

