-- ==== Sys2Proof/Machine/Bits.lean ====
section
/-! DEFINITION. Bit fields, sign extension, lanes and little-endian bytes (R7), on naturals and on
bit vectors. A bit range is written `[msb:lsb]` as the manual writes it. -/

namespace Sys2Proof

/-- Bits `[hi:lo]` of a natural number. -/
def nfld (w hi lo : Nat) : Nat := (w >>> lo) % 2 ^ (hi + 1 - lo)

/-- `w` with bits `[hi:lo]` replaced by the low bits of `v`. -/
def nput (w hi lo v : Nat) : Nat :=
  w - (nfld w hi lo <<< lo) + ((v % 2 ^ (hi + 1 - lo)) <<< lo)

/-- Bits `[hi:lo]` of a word, as a number (R7). -/
def fld {n : Nat} (w : BitVec n) (hi lo : Nat) : Nat := nfld w.toNat hi lo

/-- `w` with bits `[hi:lo]` set to `v`. -/
def setFld {n : Nat} (w : BitVec n) (hi lo v : Nat) : BitVec n := BitVec.ofNat n (nput w.toNat hi lo v)

/-- One bit as a number. -/
def b2n (b : Bool) : Nat := if b then 1 else 0

/-- The signed value of the low `bits` bits of `v`. -/
def sxt (bits v : Nat) : Int :=
  let m := v % 2 ^ bits
  if m < 2 ^ (bits - 1) then (m : Int) else (m : Int) - (2 ^ bits : Nat)

/-- An integer reduced to `bits` bits (two's complement). -/
def wrapI (bits : Nat) (i : Int) : Nat := (i % ((2 ^ bits : Nat) : Int)).toNat

/-- A 32-bit word holding a sign-extended field of `bits` bits. -/
def sx32 (bits v : Nat) : W32 := BitVec.ofNat 32 (wrapI 32 (sxt bits v))

/-- Lane `i` of width `es` bits of a wide value, as a number. -/
def laneN {n : Nat} (v : BitVec n) (es i : Nat) : Nat := (v.toNat >>> (es * i)) % 2 ^ es

/-- A wide value with lane `i` of width `es` replaced. -/
def setLaneN {n : Nat} (v : BitVec n) (es i x : Nat) : BitVec n :=
  BitVec.ofNat n (v.toNat - (laneN v es i <<< (es * i)) + ((x % 2 ^ es) <<< (es * i)))

/-- The number whose lane `i` (of `es` bits) is `xs[i]`. -/
def packLanes (es : Nat) : List Nat → Nat
  | [] => 0
  | x :: xs => x % 2 ^ es + (packLanes es xs) <<< es

/-- The first `k` lanes of width `es` of a number. -/
def lanesOf (es w : Nat) : Nat → List Nat
  | 0 => []
  | k + 1 => w % 2 ^ es :: lanesOf es (w >>> es) k

/-- Little-endian number of a list of bytes (R7). -/
def leNat : List Byte → Nat
  | [] => 0
  | b :: bs => b.toNat + 256 * leNat bs

/-- The `k` little-endian bytes of a number (R7). -/
def leBytes (w : Nat) : Nat → List Byte
  | 0 => []
  | k + 1 => BitVec.ofNat 8 w :: leBytes (w >>> 8) k

/-- Byte `i` of a line. -/
def Line.byte (l : Line) (i : Nat) : Byte := BitVec.ofNat 8 (l.toNat >>> (8 * i))

/-- The line whose bytes are the list's (missing bytes are zero). -/
def lineOf (bs : List Byte) : Line := BitVec.ofNat 1024 (leNat (bs.take 128))

/-- Every byte of the line. -/
def Line.bytes (l : Line) : List Byte := leBytes l.toNat 128

/-- `n` bytes of a line from byte `o`. -/
def Line.slice (l : Line) (o n : Nat) : List Byte := leBytes (l.toNat >>> (8 * o)) n

/-- The byte mask of a line that enables bytes `[o, o+n)`. -/
def beRange (o n : Nat) : ByteEn := BitVec.ofNat 128 (((2 ^ n - 1) <<< o))

/-- The bit mask of 1,024 bits that the byte enables stand for. -/
def beMask (be : ByteEn) : Nat :=
  packLanes 8 ((lanesOf 1 be.toNat 128).map fun b => b * 255)

/-- The bytes of `new` where enabled, of `old` elsewhere (R48). -/
def mergeLine (old new : Line) (be : ByteEn) : Line :=
  let m : Line := BitVec.ofNat 1024 (beMask be)
  (new &&& m) ||| (old &&& ~~~m)

/-- A line holding `bs` from byte `o` and zero elsewhere. -/
def linePut (o : Nat) (bs : List Byte) : Line := BitVec.ofNat 1024 (leNat bs <<< (8 * o))

/-- Round a number up to a multiple of `m`. -/
def roundUp (x m : Nat) : Nat := ((x + m - 1) / m) * m

/-- The smaller of a count and its saturation limit, after adding (R61 and others: counters saturate). -/
def satAdd (limit a b : Nat) : Nat := min limit (a + b)

/-- Position of the lowest set bit among the first `n` bits from `i`. -/
def lowBit (w : Nat) : Nat → Nat → Option Nat
  | _, 0 => none
  | i, n + 1 => if w.testBit i then some i else lowBit w (i + 1) n

/-- The number of set bits among the low `n`. -/
def popCount (w : Nat) : Nat → Nat
  | 0 => 0
  | n + 1 => b2n (w.testBit n) + popCount w n

end Sys2Proof
end

