-- ==== Sys2Proof/Machine/Types.lean ====
section
/-! DEFINITION. The operand types of the commands: indices of the device's parts, and what the
environment finds or supplies when an event happens. -/

namespace Sys2Proof.Machine

/-- A compute die, CD0 to CD7 (R4). -/
abbrev DieIx := Fin 8
/-- A bench by device index: die × 576 + y × 24 + x (R5). -/
abbrev BenchIx := Fin 4608
/-- A device bay (R5). -/
abbrev BayIx := Fin 64
/-- A slice: 16 × die + slice (R481). -/
abbrev SliceIx := Fin 128
/-- A command queue (R310). -/
abbrev QueueIx := Fin 512
/-- A function: 0 the physical function, i + 1 the virtual function of instance i (R483). -/
abbrev FnIx := Fin 9
/-- A fabric port (R367). -/
abbrev PortIx := Fin 24

/-- Where a plane instruction comes from: the plane queue that the jig core fills, or the thread group of an
active slot (R116, R140). -/
inductive PlaneSrc where
  | jig
  | group (slot : Fin 8)
deriving DecidableEq, Repr

/-- What SECDED finds when a word is read (R38, R42). -/
inductive Ecc where
  | ok | single | double
deriving DecidableEq, Repr

/-- What SECDED finds in an access of many local-store words: the worst finding and its word's offset (R42). -/
structure EccAt where
  e : Ecc := .ok
  off : Nat := 0
deriving DecidableEq, Repr

/-- What a context switch, a seal or a copy of a partition finds on a bench: the byte offset, over both glue-up sets, of a parity error
that SEAL meets (R112), that of one in the register file (R115), and SECDED's finding in the tile store, as a tile-store offset (R42). -/
structure SwitchFind where
  pe : Option (Fin 16384) := none
  vp : Option (Fin 65536) := none
  ls : EccAt := {}
deriving DecidableEq, Repr

/-- A queue whose command saves or seals contexts, and what each bench where it does so finds; a bench not listed finds nothing. -/
structure QueueFinds where
  q : QueueIx
  fs : List (BenchIx × SwitchFind) := []
deriving DecidableEq, Repr

/-- Byte offsets of the parity errors an operation meets: `pe` in the glue-up sets it reads (R112), `vp` in the register file (R115). -/
structure ParityFind where
  pe : Option Nat := none
  vp : Option Nat := none
deriving DecidableEq, Repr

/-- What the move of a thread group finds: SECDED in the tile store (R42) and the offset of a parity error in the register file (R115). -/
structure MoveFind where
  e : EccAt := {}
  vp : Option Nat := none
deriving DecidableEq, Repr

/-- A bench that restores a context, and what SECDED finds in the save area, as a tile-store offset (R42). -/
structure RestoreFind where
  b : BenchIx
  e : EccAt := {}
deriving DecidableEq, Repr

/-- A slice whose controller writes a line, and what the fetch of the line's check line finds: where it is uncorrectable, those of its
32 data lines that fail their own read (R303, R304). -/
structure WriteFind where
  q : SliceIx
  bad : Option (List (Fin 32)) := none
deriving DecidableEq, Repr

/-- What the SECDED of a cache array finds: in data, one or two bits; in tags, an entry corrected or repaired, or lost in
both copies (R275, R276). -/
inductive ArrEcc where
  | ok | data1 | data2 | tagFix | tagLost
deriving DecidableEq, Repr

/-- What a controller finds as it reads a line (R302, R304): nothing; a single-bit error of a burst; an error within one symbol;
an error the check word cannot correct, or that the side-band code detects; the line's check line uncorrectable, with
those of its 32 data lines that fail their own read. -/
inductive HbmFind where
  | ok | single | symbol | uncorrectable
  | checkLine (bad : List (Fin 32))
deriving DecidableEq, Repr

/-- A line pair (R393, R408): a source's, by master ID, or a die collector's forwarding path. -/
inductive LineSrc where
  | source (m : Fin 65536)
  | path (die : DieIx)
deriving DecidableEq, Repr

/-- A block of fault records as software names it (R408). -/
inductive RecBlock where
  | dev
  | die (i : DieIx)
  | view (k : Fin 8)
deriving DecidableEq, Repr

/-- What a gateway's check bits show of a flit (R235). -/
inductive LinkFind where
  | ok | corrected | uncorrectable
deriving DecidableEq, Repr

/-- What SECDED at ejection shows of a flit (R217). -/
inductive FlitFind where
  | ok | single | payload | header
deriving DecidableEq, Repr

/-- How a die's link-up went (R241): its PLLs locked, the record its sideband gave, the modules that trained. -/
structure LinkUpFind where
  pll : Bool
  record : Option (List Byte)
  trained : BitVec 24
deriving DecidableEq, Repr

/-- The classes of a die-attach module (R232). -/
inductive BeatClass where
  | bulk | control | clamp
deriving DecidableEq, Repr

/-- What a gateway receives: the class of the beats, and what their check bits show (R232, R235). -/
structure BeatFind where
  c : BeatClass
  f : LinkFind := .ok
deriving DecidableEq, Repr

/-- A fabric frame: the transport header of R375 and the payload. The MAC header, FCS and CRC are not
data of the model: what a receiver finds of them is a finding of the event. -/
structure Frame where
  op : Nat
  poison : Bool := false
  lseq : Nat := 0
  src : Nat
  dst : Nat
  seq : Nat := 0
  ack : Nat := 0
  laddr : Nat := 0
  len : Nat := 0
  tag : Nat := 0
  data : List Byte := []
deriving DecidableEq, Repr

/-- What a receiver finds of a frame beside its contents (R377, R382): the first check that fails, if one does. -/
inductive FrameFind where
  | ok | fcs | fec | etype | version | crc
deriving DecidableEq, Repr

/-- What a port's training finds (R22, R369, R382): failed, lanes in a bad order, or up; an LK8 partner with its port, its device
ID and whether it offers link retry; an active cable. -/
inductive TrainFind where
  | failed
  | laneOrder
  | up (lk8 : Option (Nat × Nat × Bool)) (active : Bool)
deriving DecidableEq, Repr

/-- A corrected error of the host link (R350). -/
inductive LinkErr where
  | fec | receiver | replayTimer | badTlp | badDllp
deriving DecidableEq, Repr

/-- What a boot finds (R460 to R472): whether a copy of the flash layout directory checks; whether the identity key is derived; which
trims record verifies (0 primary, 1 backup, 2 neither); the slot directories (type 0) and images that fail, slot B where
the flag is set; how each compute die's link-up went; whether the fabric reference clock is there. -/
structure BootFind where
  xtal : Bool := true
  layout : Bool
  identity : Bool
  trims : Fin 3
  bad : List (Bool × Nat)
  dies : List LinkUpFind
  refclk : Bool
deriving DecidableEq, Repr

/-- Whose level steps down (R440): the energy trigger's, or the thermal trigger's of a sensing point. -/
inductive LimSrc where
  | energy
  | sensor (n : Fin 576)
deriving DecidableEq, Repr

/-- A power domain that misses ON (R439): one of a compute die by its place in PWR_DIEd_DOM, or one of the IOD. -/
inductive DomSel where
  | die (d : DieIx) (i : Fin 11)
  | iod (i : Fin 8)
deriving DecidableEq, Repr

/-- Latched sources that software releases (R406): the ports; a die's modules; the junction or HBM sensors. -/
inductive LatchSel where
  | ports
  | modules (die : DieIx)
  | sensors (hbm : Bool)
deriving DecidableEq, Repr

/-- The errors of PCI Express Advanced Error Reporting that the host link raises (R350). -/
inductive AerErr where
  | receiver | replayTimer | badTlp | badDllp
  | completionTimeout | unsupported | completerAbort | poisonedTlp | surpriseDown | internal | malformed
deriving DecidableEq, Repr

/-- The severity with which an error is reported through AER (R350). -/
inductive ErrSev where
  | correctable | advisory | nonFatal | fatal
deriving DecidableEq, Repr

/-- Bits of a function's configuration space that the model names beside rows of their own (R341, R347, R348, R350): among them an error's
bits in the AER mask and severity registers. -/
inductive CfgBit where
  | memEn | msixEn | msixMask | roEn
  | aerMask (e : AerErr) | aerFatal (e : AerErr)
deriving DecidableEq, Repr

/-- Numbers of a function's configuration space that software writes (R339, R341, R349): Max Payload and Max Read Request Size, as log2 of
units of 128 bytes; the Completion Timeout Value in ticks; the addresses of BAR0 and BAR2. -/
inductive CfgNum where
  | maxPayload | maxReadRequest | completionTimeout | bar0 | bar2
deriving DecidableEq, Repr

/-- What a register write is to: bytes at a BAR0 offset of a function, or a bit or a number of its configuration space. -/
inductive RegTarget where
  | bar0 (f : FnIx) (off : Nat) (data : List Byte)
  | config (f : FnIx) (b : CfgBit) (v : Bool)
  | configNum (f : FnIx) (x : CfgNum) (v : BitVec 64)
deriving DecidableEq, Repr

/-- A request over J5 for sensors and events (R27): a sensing point's reading, or the oldest event not yet read. -/
inductive PldmAsk where
  | sensor (n : Fin 576)
  | event
deriving DecidableEq, Repr

/-- A firmware component (R473): whether it begins a new update, its type, its place in the slot, size and SVN, whether it verifies, and
for a boot configuration its body. -/
structure Component where
  start : Bool
  ty : Nat
  off : Nat
  size : Nat
  svn : Nat
  good : Bool
  body : List Byte
deriving DecidableEq, Repr

end Sys2Proof.Machine
end

