-- ==== Sys2Proof/Syntax.lean ====
section
/-! DEFINITION. The commands of the LK8 block: one constructor for each row of the opcode table, in the
table's order. The table gives rows no operands and no bits; each constructor carries what the event or
instruction is about (which bench, queue, die or port) and what the environment finds or supplies at
it (an ECC finding, a voltage, a received frame). -/

namespace Sys2Proof
open Machine

/-- The commands, one for each row of the opcode table. -/
inductive Instr where
  /-- INPUT_RISE_ABOVE_TURN_ON: With BUS_PRSNT_N low, the input rises above 53.0 V and the 20 ms input-switch delay starts. (R24) -/
  | inputRiseAboveTurnOn
  /-- INPUT_SWITCH_CLOSE_DELAY: The 20 ms start delay expires and the input switch closes. (R24) -/
  | inputSwitchCloseDelay (f : BootFind)
  /-- INPUT_OVER_VOLTAGE_WARNING: The input rises above 63 V and cause 0x7C04 is raised once for the excursion. (R24) -/
  | inputOverVoltageWarning
  /-- INPUT_OVER_VOLTAGE_DISCONNECT: The input rises above 66 V, the switch opens, all state is lost and OV_TRIP latches. (R24) -/
  | inputOverVoltageDisconnect
  /-- BUS_PRSNT_BREAK: BUS_PRSNT_N breaks on live withdrawal and the switch opens within 10 us. (R25) -/
  | busPrsntBreak
  /-- PWR_DIS_ASSERT: PWR_DIS goes high and the input switch opens within 100 us. (R26) -/
  | pwrDisAssert
  /-- PWR_DIS_RELEASE: A falling edge of PWR_DIS starts a cold boot if the start conditions hold. (R26) -/
  | pwrDisRelease
  /-- MGMT_RST: MGMT_RST_N is held low for at least 1 us and only the management island resets. (R458) -/
  | mgmtRst
  /-- INPUT_BELOW_WARNING: The input falls below 52 V, raising 0x7101, engaging the supply trigger and counting a dip. (R442) -/
  | inputBelowWarning
  /-- SUPPLY_TRIGGER_END: The input has been back at or above 52 V for 100 us and the supply trigger ends. (R446) -/
  | supplyTriggerEnd
  /-- BROWN_OUT: The input falls below 46 V, the switch opens within 1 us and the event is latched. (R447) -/
  | brownOut
  /-- INPUT_CURRENT_WARNING: The input current exceeds IWARN and the current trigger holds every die at 50 %. The current in units of 10 mA. (R440) -/
  | inputCurrentWarning (amps : BitVec 16)
  /-- INPUT_CURRENT_LIMIT: The input current reaches 80 A, raising 0x7103 once and holding every die at 25 %. The current in units of 10 mA. (R445) -/
  | inputCurrentLimit (amps : BitVec 16)
  /-- CURRENT_TRIGGER_END: The current has been at or below IWARN for 100 us and the current trigger ends. (R440) -/
  | currentTriggerEnd
  /-- ENERGY_BUCKET_UPDATE: Each 1 us the excess-energy bucket adds (P - 3,600 W) x 1 us and engages or ends the energy trigger at 6 J or 3 J. The voltage in 10 mV and the current in 10 mA, averaged over 1 us. (R449) -/
  | energyBucketUpdate (volts amps : BitVec 16)
  /-- LIMITER_STEP_DOWN: Each 1 ms that an energy or thermal trigger stays active, its limiter level moves one step lower. (R440) -/
  | limiterStepDown (src : LimSrc)
  /-- LIMITER_RELEASE_STEP: After each 256 core cycles held, a die's limiter level rises one step toward what its remaining triggers allow. (R441) -/
  | limiterReleaseStep (die : DieIx)
  /-- THERMAL_THROTTLE: A sensing point exceeds its throttle point, raising 0x7201 or 0x7203 and engaging the thermal trigger. Point `n` reads `t`, signed, in units of 0.125 C. (R451) -/
  | thermalThrottle (n : Fin 576) (t : BitVec 16)
  /-- THERMAL_TRIP: A reading at its trip point stops every core clock, powers off domains and drives THERM_TRIP_N low. (R454) -/
  | thermalTrip (n : Fin 576) (t : BitVec 16)
  /-- SENSOR_FAILED: A sensing point reads out of range or stuck, raising 0x7204 and being ignored for throttle and trip. (R453) -/
  | sensorFailed (n : Fin 576)
  /-- THERMAL_CAP_STEP: Each 10 ms at 25 % under the thermal trigger lowers the die's grant one point, and each 10 ms after it ends lifts one. (R452) -/
  | thermalCapStep (die : DieIx)
  /-- PHASE_MARK_ACT: A reported phase mark acts and changes the operating point its LAUNCH requests on each die it holds. (R434) -/
  | phaseMarkAct
  /-- OP_CHANGE_DONE: The voltage ramp and PLL relock of an operating-point change end and any later grant is taken up. (R435) -/
  | opChangeDone (die : DieIx)
  /-- BAY_SLEEP: A bay held by no LAUNCH for PWR_SLEEP enters SLEEP. (R436) -/
  | baySleep (y : BayIx)
  /-- BAY_WAKE: A LAUNCH needs a bench of a sleeping bay and the bay starts waking. (R436) -/
  | bayWake (y : BayIx)
  /-- BAY_WAKE_DONE: A waking bay reaches ON. (R436) -/
  | bayWakeDone (y : BayIx)
  /-- DOMAIN_WAKE_TIMEOUT: A domain misses ON within twice its wake time, fencing the die (0x7301) or stopping the device (0x7302). (R439) -/
  | domainWakeTimeout (x : DomSel)
  /-- REGULATOR_FAULT: A regulator reports a fault, raising 0x7302 and stopping every core clock. The IOD domain of the regulator. (R439) -/
  | regulatorFault (dom : Fin 8)
  /-- POWER_OFF: A write of PWR_DIEd_CTL.POWER_OFF refuses or starts powering off a whole compute die. (R438) -/
  | powerOff (die : DieIx)
  /-- POWER_OFF_DONE: Flush and self-refresh entry end, the die's domains go OFF and DAT_STATE becomes OFF. (R438) -/
  | powerOffDone (die : DieIx)
  /-- POWER_ON: A write of POWER_ON, or a use of the die, starts link-up and self-refresh exit of an off die. (R438) -/
  | powerOn (die : DieIx)
  /-- POWER_ON_DONE: A powered-on die is up and waiting uses proceed. (R438) -/
  | powerOnDone (die : DieIx)
  /-- COOLANT_LEAK: The leak-sense trace is wetted and cause 0x7C01 is raised. (R32) -/
  | coolantLeak
  /-- COOLANT_INLET_HOT: The inlet sensor has been above 40 C for 1 s and cause 0x7C02 is raised. The inlet's reading. (R32) -/
  | coolantInletHot (t : BitVec 16)
  /-- COOLANT_RISE_HIGH: Outlet minus inlet has been above 40 K for 1 s and cause 0x7C03 is raised. The outlet's reading. (R32) -/
  | coolantRiseHigh (t : BitVec 16)
  /-- MODULE_BOARD_HOT: A regulator, J4, flash or J1 sensor exceeds 100 C and cause 0x7C07 is raised. Sensor `k` of the two regulators, the two at J4, the flash and J1. (R32) -/
  | moduleBoardHot (k : Fin 6) (t : BitVec 16)
  /-- CABLE_MATE: CBL_PRSNT_N goes low, and CBL_3V3 switches on unless an overload latch holds it off. J3 where `j` is set, otherwise J2. (R22) -/
  | cableMate (j : Bool)
  /-- CABLE_REMOVE: CBL_PRSNT_N goes high and CBL_3V3 switches off. (R22) -/
  | cableRemove (j : Bool)
  /-- CABLE_SUPPLY_OVERLOAD: CBL_3V3 reaches its current limit, switches off and raises 0x7C06. (R22) -/
  | cableSupplyOverload (j : Bool)
  /-- BYPASS: JTAG BYPASS instruction on a test access port. Port 0 is the IOD's, port d + 1 that of die d. (R28) -/
  | bypass (t : Fin 9)
  /-- IDCODE: JTAG IDCODE instruction returns the port's identification code. (R28) -/
  | idcode (t : Fin 9)
  /-- SAMPLE_PRELOAD: JTAG SAMPLE/PRELOAD instruction on a live port. (R28) -/
  | samplePreload (t : Fin 9)
  /-- EXTEST: JTAG EXTEST instruction, which acts as BYPASS after the boot lock. (R28) -/
  | extest (t : Fin 9)
  /-- DEBUG_INSTRUCTION: A JTAG debug instruction acts only after authenticated unlock and otherwise acts as BYPASS. (R28) -/
  | debugInstruction (t : Fin 9)
  /-- ENTDAA: The I3C host assigns the module a dynamic address. (R27) -/
  | entdaa (a : Fin 128)
  /-- PLDM_PLATFORM_REQUEST: A PLDM Platform Monitoring and Control request for sensors and events is answered over J5. (R27) -/
  | pldmPlatformRequest (x : PldmAsk)
  /-- PLDM_FRU_REQUEST: A PLDM FRU Data request returns the ordering code, stepping and serial number. (R27) -/
  | pldmFruRequest
  /-- GET_VERSION: SPDM GET_VERSION request, answered with version 1.2. Over Data Object Exchange or J5; `busy` while a request of the other transport is being served. (R463) -/
  | getVersion (doe busy : Bool)
  /-- GET_CAPABILITIES: SPDM GET_CAPABILITIES request. (R463) -/
  | getCapabilities (doe busy : Bool)
  /-- NEGOTIATE_ALGORITHMS: SPDM NEGOTIATE_ALGORITHMS request selects SM2 and SM3, or gets an ERROR response. Whether SM2_P256 and SM3_256 are offered. (R463) -/
  | negotiateAlgorithms (doe busy : Bool) (sm2 sm3h : Bool)
  /-- GET_DIGESTS: SPDM GET_DIGESTS request for certificate slot 0. (R463) -/
  | getDigests (doe busy : Bool)
  /-- GET_CERTIFICATE: SPDM GET_CERTIFICATE request returns the certificate chain. (R463) -/
  | getCertificate (doe busy : Bool) (slot : Fin 8) (off n : Fin 65536)
  /-- CHALLENGE: SPDM CHALLENGE request is signed with the identity key. (R463) -/
  | challenge (doe busy : Bool)
  /-- GET_MEASUREMENTS: SPDM GET_MEASUREMENTS request returns the boot measurements. (R464) -/
  | getMeasurements (doe busy : Bool) (ix : Fin 256) (signed : Bool)
  /-- DEBUG_NONCE_REQUEST: A vendor SPDM request yields a fresh debug-unlock nonce and cancels the previous one. (R474) -/
  | debugNonceRequest
  /-- DEBUG_TOKEN: A debug token is checked and sets SEC_STATUS.DEBUG, or raises 0x8106. Whether its signature verifies for the pending nonce. (R474) -/
  | debugToken (good : Bool)
  /-- FIRMWARE_UPDATE_COMPONENT: A PLDM firmware component is written to the non-booted slot and verified. (R473) -/
  | firmwareUpdateComponent (c : Component)
  /-- ACTIVATE_FIRMWARE: PLDM ActivateFirmware marks the new slot PENDING for the next device reset. (R473) -/
  | activateFirmware
  /-- PERST_N_ASSERT: PERST_N is asserted and starts a device warm reset. (R458) -/
  | perstNAssert (f : BootFind)
  /-- PERST_N_DEASSERT: PERST_N is deasserted and a held warm reset continues past its HBM step. (R458) -/
  | perstNDeassert
  /-- SEC_RESET: A write of WARM with the key 0x5752 to SEC_RESET starts a device warm reset. The word written. (R476) -/
  | secReset (w : W32) (f : BootFind)
  /-- SECURITY_WATCHDOG: The security core's watchdog expires and starts a device warm reset. (R458) -/
  | securityWatchdog (f : BootFind)
  /-- HOST_LINK_DOWN: The host link goes down, recording 0x9204 and acting as PERST_N. (R345) -/
  | hostLinkDown (f : BootFind)
  /-- HOT_RESET: A Hot Reset has the effect of PERST_N. (R345) -/
  | hotReset (f : BootFind)
  /-- HOST_BAR2_READ: A host read of BAR2 is served at the home slice or completes UR or with EP. `n` bytes at offset `a`. (R342) -/
  | hostBar2Read (f : FnIx) (a : BitVec 44) (n : Fin 4097)
  /-- HOST_BAR2_WRITE: A posted host write to BAR2 is performed per line as WRA, or is discarded. Received with EP where `ep` is set. (R342) -/
  | hostBar2Write (f : FnIx) (a : BitVec 44) (bs : List Byte) (ep : Bool)
  /-- HOST_ATOMICOP: A host AtomicOp to BAR2 is performed as ATA at the home slice, or completes UR. `op` 0 FetchAdd, 1 Swap, 2 CAS. (R342) -/
  | hostAtomicop (f : FnIx) (a : BitVec 44) (size : Fin 17) (op : Fin 3) (x compare : W32)
  /-- MALFORMED_TLP: A malformed or unsupported TLP is discarded or completed UR with cause 0x9208. (R350) -/
  | malformedTlp (f : FnIx) (malformed nonPosted : Bool)
  /-- REGISTER_WRITE: A write to a register field without behaviour of its own acts by the field's access code. (R8) -/
  | registerWrite (t : RegTarget)
  /-- REGISTER_READ_CLEAR: A read of an RC field returns its value and clears it. Offset `off` of the function's BAR0. (R8) -/
  | registerReadClear (f : FnIx) (off : BitVec 26)
  /-- VF_ENABLE_SET: Setting VF Enable exposes virtual functions 1 to NumVFs. (R344) -/
  | vfEnableSet
  /-- VF_ENABLE_CLEAR: Clearing VF Enable resets every instance whose virtual function was enabled. (R344) -/
  | vfEnableClear
  /-- NUMVFS_WRITE: The host writes NumVFs, which stores at most N and is discarded while VF Enable is set. (R343) -/
  | numvfsWrite (v : BitVec 16)
  /-- VF_FLR: A function level reset of a virtual function stops its queues, posts the FLR notice and starts the hold. Virtual function `k` + 1. (R345) -/
  | vfFlr (k : Fin 8)
  /-- FLR_HOLD_EXPIRY: HST_FLR_HOLD expires, or the instance goes idle, and the instance reset starts. (R345) -/
  | flrHoldExpiry (k : Fin 8)
  /-- PF_FLR: A function level reset of the physical function resets its configuration, manager queues and VF Enable. (R345) -/
  | pfFlr
  /-- BAR2_RESIZE: A change of BAR2 size takes effect while Memory Space Enable is clear. The size as log2 of GiB. (R341) -/
  | bar2Resize (f : FnIx) (log2 : Fin 11)
  /-- D3HOT_ENTRY: A function enters D3hot and its queue fetches, host writes and messages wait. (R347) -/
  | d3hotEntry (f : FnIx)
  /-- D0_RETURN: A function returns to D0 and its held work resumes. (R347) -/
  | d0Return (f : FnIx)
  /-- MSIX_UNMASK: Unmasking a vector with its pending bit set sends one message. A vector, or the whole function where it is none. (R347) -/
  | msixUnmask (f : FnIx) (v : Option (Fin 2048))
  /-- HOST_READ_COMPLETION: A completion for a device read of host memory arrives and is used, or fails on UR, CA or EP. For the read that queue `q` awaits; `st` is 0 SC, 1 UR, 2 CA. (R349) -/
  | hostReadCompletion (q : QueueIx) (st : Fin 3) (ep : Bool) (data : List Byte)
  /-- COMPLETION_TIMEOUT: A device read of host memory times out, raising 0x9202 and stopping its command. (R349) -/
  | completionTimeout (q : QueueIx)
  /-- QUEUE_ENABLE: Setting CP_QCFG.EN checks the queue configuration and enables it or sets CFG_BAD. (R311) -/
  | queueEnable (q : QueueIx)
  /-- QUEUE_DISABLE: Clearing CP_QCFG.EN stops fetching at once. (R311) -/
  | queueDisable (q : QueueIx)
  /-- DOORBELL: A write of CP_QTAIL makes commands fetchable, or is discarded with 0x9101. (R312) -/
  | doorbell (q : QueueIx) (v : Fin 8388608)
  /-- QUEUE_FETCH: After the previous record, the next packet is fetched as one 64-byte read, or the queue stops with 0x9102. (R313) -/
  | queueFetch (q : QueueIx)
  /-- NOP: Command NOP completes. (R328) -/
  | nop (q : QueueIx)
  /-- FENCE: Command FENCE waits until each named handle is complete. (R328) -/
  | fence (q : QueueIx)
  /-- FENCE_COMPLETE: The last handle named by a waiting FENCE completes and the FENCE completes. (R328) -/
  | fenceComplete (q : QueueIx)
  /-- TIMESTAMP: Command TIMESTAMP writes the device time to ADDR and INFO0. (R328) -/
  | timestamp (q : QueueIx)
  /-- QUERY: Command QUERY writes 64 bytes describing the device, a slot or a queue. (R328) -/
  | query (q : QueueIx)
  /-- LOAD_PROGRAM: Command LOAD_PROGRAM copies and checks a cut list and makes its contexts resident, or unloads a slot. (R317) -/
  | loadProgram (q : QueueIx)
  /-- LAUNCH: Command LAUNCH checks its slots, prepares once and runs a resident program for STEPS steps. (R319) -/
  | launch (q : QueueIx)
  /-- LAUNCH_STEP_START: The command processor sends each die the start message of the next step. (R320) -/
  | launchStepStart (q : QueueIx)
  /-- LAUNCH_STEP_END: Every bench of the step passes END and reaches its command boundary. (R320) -/
  | launchStepEnd (q : QueueIx)
  /-- OVERRUN_RAISE: A command's overrun exceeds 4 x CP_SLICE and 0x9103 is raised once. (R333) -/
  | overrunRaise (q : QueueIx)
  /-- LAUNCH_KILL: After a context kill, the LAUNCH's other unfinished contexts are killed within 10 us and it completes KILLED. (R321) -/
  | launchKill (q : QueueIx)
  /-- COPY: Command COPY moves bytes between spaces through the copy engines. (R322) -/
  | copy (q : QueueIx)
  /-- FILL: Command FILL writes a repeated 8-byte pattern. (R322) -/
  | fill (q : QueueIx)
  /-- COLLECTIVE: Command COLLECTIVE runs a collective over fabric members. (R323) -/
  | collective (q : QueueIx)
  /-- COLLECTIVE_MEMBER_TIMEOUT: A member is silent for CP_COLL_TMO and the command completes MEMBER_LOST. (R323) -/
  | collectiveMemberTimeout (q : QueueIx)
  /-- SHELF_SET: Command SHELF_SET defines or clears a shelf or a reduction window. (R324) -/
  | shelfSet (q : QueueIx)
  /-- SHELF_SWEEP_DONE: Every slice finishes its tag sweep and SHELF_SET completes. (R274) -/
  | shelfSweepDone (q : QueueIx)
  /-- MIRROR_OPEN: Command MIRROR_OPEN opens a book-match window by adopting or freshening the book, or closes one. (R412) -/
  | mirrorOpen (q : QueueIx)
  /-- MIRROR_COMMIT: Command MIRROR_COMMIT seals the named windows' fill sides at EPOCH. (R417) -/
  | mirrorCommit (q : QueueIx)
  /-- MIRROR_RESTORE: Command MIRROR_RESTORE restores a window from a book or keeps the local copy. (R421) -/
  | mirrorRestore (q : QueueIx)
  /-- SEAL: Command SEAL seals every context of a slot that holds a live glue-up set. The queue, and what the seals on the benches find. (R326) -/
  | seal (x : QueueFinds)
  /-- QUIESCE: Command QUIESCE stops an instance's queues, seals its contexts and writes the record. The queue, and what the seals and the copies of partitions find. (R326) -/
  | quiesce (x : QueueFinds)
  /-- QUIESCE_TIMEOUT: CP_QUIESCE_TMO expires and still-running commands are killed and end ABORTED. (R326) -/
  | quiesceTimeout (q : QueueIx)
  /-- RESUME: Command RESUME checks a quiesce record and writes back context and queue state. (R326) -/
  | resume (q : QueueIx)
  /-- MARK: Jig MARK reports a mark-table entry if issued on its REPORTER. (R203) -/
  | mark (b : BenchIx) (f : Ecc)
  /-- PROGRESS_MARK_LATE: A progress mark misses EXPECT + MARGIN, raising 0x9104 and possibly switching to BACKING. Entry `m` of the mark schedule. (R335) -/
  | progressMarkLate (q : QueueIx) (m : Fin 256)
  /-- DEADLINE_EXPIRY: A LAUNCH's DEADLINE expires, its step is abandoned and it completes DEADLINE. (R336) -/
  | deadlineExpiry (q : QueueIx)
  /-- CP_CORE_WATCHDOG: A firmware core watchdog expires, the core restarts and its commands complete CP_RESTART. Core `k`, which held the command of queue `q`, if any. (R337) -/
  | cpCoreWatchdog (k : Fin 4) (q : Option QueueIx)
  /-- DRAWER_TAIL_WRITE: A producer's TAIL write posts messages and sends the consumer's vector, or is discarded with 0x9301. Drawer `k`, the up direction where `up` is set. (R359) -/
  | drawerTailWrite (k : Fin 8) (up : Bool) (v : Fin 32)
  /-- DRAWER_HEAD_WRITE: A consumer's HEAD write frees slots, or is discarded with 0x9301. Drawer `k`, the up direction where `up` is set. (R359) -/
  | drawerHeadWrite (k : Fin 8) (up : Bool) (v : Fin 32)
  /-- DRAWER_SLOT_WRITE: A producer writes a drawer slot, which is discarded with 0x9302 if the consumer holds it. Word `w` of slot `ix`. (R359) -/
  | drawerSlotWrite (k : Fin 8) (up : Bool) (ix w : Fin 16) (v : W32)
  /-- INSTANCE_RESET: A write of DRW_INST_CTL.RESET, with or without FORCE, starts or refuses an instance reset. (R361) -/
  | instanceReset (k : Fin 8) (force : Bool)
  /-- INSTANCE_RESET_DONE: An instance reset finishes, RESETS increments and RESET_DONE is posted. (R362) -/
  | instanceResetDone (k : Fin 8)
  /-- FAULT_REPORT: A fault report arrives at a collector and is captured, escalated or counted. The first `n` reports on their way arrive in one tick. (R398) -/
  | faultReport (n : Nat)
  /-- LINE_PAIR_INVALID: A source's line pair reads invalid on two consecutive ticks and a line fault is raised. (R394) -/
  | linePairInvalid (src : LineSrc)
  /-- LINE_ASSERT_TIMEOUT: A report arrives and the pair does not assert within 2 us, raising a line fault. `m` is a master ID. (R394) -/
  | lineAssertTimeout (m : Fin 65536)
  /-- REPORT_LOST_TIMEOUT: A pair asserts with no report within 2 us, raising report lost. The oldest report whose pair has just asserted is lost. (R394) -/
  | reportLostTimeout
  /-- FAULT_RECORD_CLEAR: Writing 1 to a record's VALID zeroes the record. The record of class `c` + 1. (R402) -/
  | faultRecordClear (b : RecBlock) (c : Fin 10)
  /-- RECOVERY_QUIET_EXPIRY: An auto-recovering source's quiet period ends and it returns or latches. The source by its index of FC_RCV. (R405) -/
  | recoveryQuietExpiry (ix : Fin 832)
  /-- LATCH_RELEASE: Clearing a cause's status bit releases latched sources and empties their windows. (R406) -/
  | latchRelease (x : LatchSel)
  /-- DIE_LINK_UP: A powered compute die's PLLs, sidebands, record, modules and hub admission come up. (R241) -/
  | dieLinkUp (die : DieIx) (f : LinkUpFind)
  /-- GATEWAY_FLIT_RECEIVE: A gateway receives a die-attach flit, checks its beats and corrects or requests a replay. On the module at a site of `die`, toward that die (`inbound`) or away from it into the IOD; `f` is the class of what it carries and what the check finds. (R235) -/
  | gatewayFlitReceive (die : DieIx) (site : Fin 24) (inbound : Bool) (f : BeatFind)
  /-- LINK_REPLAY: A sender replays from its replay buffer on a sideband request. (R235) -/
  | linkReplay (die : DieIx) (site : Fin 24) (inbound : Bool)
  /-- MODULE_TRAINING_DONE: A module's retraining ends, rejoining its list or failing with 0x5104. (R236) -/
  | moduleTrainingDone (die : DieIx) (site : Fin 24) (ok : Bool)
  /-- MODULE_LIST_APPLY: Once every sent flit is acknowledged, a gateway applies its changed module list and releases held flits. `remote` is a die, or 8 for the IOD. (R233) -/
  | moduleListApply (die : DieIx) (remote : Fin 9)
  /-- CLOCK_MONITOR_TRIP: A die's clock monitor trips, stops its core clock and raises 0x5106. (R243) -/
  | clockMonitorTrip (die : DieIx)
  /-- LINK_MONITOR_TRIP: The IOD link monitor finds every IOD module of a die silent and raises 0x5107. (R243) -/
  | linkMonitorTrip (die : DieIx)
  /-- DIE_FENCE_REQUEST: A write of DAT_CTLd.FENCE fences the die. (R244) -/
  | dieFenceRequest (die : DieIx)
  /-- RESEAT: A write of DAT_CTLd.RESEAT starts an orderly or non-orderly re-seat, or is refused. (R247) -/
  | reseat (die : DieIx)
  /-- RESEAT_DONE: A re-seat's steps end and the die is UP, or stays fenced with 0x5109. Of the re-seat that runs: `ok` tells whether its other steps succeeded, `f` how its link-up went. (R248) -/
  | reseatDone (ok : Bool) (f : LinkUpFind)
  /-- EPOCH_START: At each cycle count that is a multiple of 1,024, every source's budget counters are refilled. (R211) -/
  | epochStart (die : DieIx)
  /-- START_MESSAGE: A die receives a start message naming a future start count. (R216) -/
  | startMessage (die : DieIx) (q : QueueIx)
  /-- BENCH_START: At the named start count, every bench of the launch on the die starts at ENTRY. The launch's queue, and what context switches on the benches find. (R155) -/
  | benchStart (die : DieIx) (x : QueueFinds)
  /-- CONTROL_FLIT_RECEIVE: A router checks a control flit's parity, has it replayed or marks the link broken. `fails` consecutive sends of the flit fail. (R215) -/
  | controlFlitReceive (die : DieIx) (fails : Nat)
  /-- BULK_FLIT_EJECT: A bulk flit ejects and its SECDED is checked, correcting or marking poison. The `n`-th message in flight. (R217) -/
  | bulkFlitEject (n : Nat) (f : FlitFind)
  /-- KILL_MESSAGE: A kill message arrives at a bench for a context. (R321) -/
  | killMessage (b : BenchIx)
  /-- JIG_ISSUE_MORTISE: The jig core issues a 64-bit mortise instruction into the engine queue. (R65) -/
  | jigIssueMortise (b : BenchIx) (f : Ecc)
  /-- PLANE_QUEUE_ISSUE: The jig core hands a vector instruction to the plane queue. (R116) -/
  | planeQueueIssue (b : BenchIx) (f : Ecc)
  /-- ALU: Jig ALU instruction computes j[RD] from j[RS1] and j[RS2] by FN. (R183) -/
  | alu (b : BenchIx) (f : Ecc)
  /-- ADDI: Jig ADDI adds a sign-extended immediate. (R182) -/
  | addi (b : BenchIx) (f : Ecc)
  /-- ANDI: Jig ANDI with a zero-extended immediate. (R182) -/
  | andi (b : BenchIx) (f : Ecc)
  /-- ORI: Jig ORI with a zero-extended immediate. (R182) -/
  | ori (b : BenchIx) (f : Ecc)
  /-- XORI: Jig XORI with a zero-extended immediate. (R182) -/
  | xori (b : BenchIx) (f : Ecc)
  /-- SLTI: Jig SLTI sets j[RD] on a signed compare with the immediate. (R182) -/
  | slti (b : BenchIx) (f : Ecc)
  /-- SLTIU: Jig SLTIU sets j[RD] on an unsigned compare with the immediate. (R182) -/
  | sltiu (b : BenchIx) (f : Ecc)
  /-- SHI: Jig shift by immediate: SLLI, SRLI or SRAI. (R182) -/
  | shi (b : BenchIx) (f : Ecc)
  /-- LUI: Jig LUI writes IMM21 << 11 to j[RD]. (R182) -/
  | lui (b : BenchIx) (f : Ecc)
  /-- JIG_LOAD: Jig load LW, LH, LHU, LB or LBU from local store or through the L1. `d` is what the local-store SECDED finds, `pe` whether the L1 or infeed parity of the line fails. (R46) -/
  | jigLoad (b : BenchIx) (f : Ecc) (d : Ecc) (pe : Bool)
  /-- JIG_STORE: Jig store SW, SH or SB to local store or into the merge buffer. `pe`: parity of the L1 line fails; `mp`: parity of the merge-buffer entry it makes drain fails. (R48) -/
  | jigStore (b : BenchIx) (f : Ecc) (d : Ecc) (pe : Bool) (mp : Bool)
  /-- PF: Jig PF prefetches a line into the infeed buffer or is dropped. (R50) -/
  | pf (b : BenchIx) (f : Ecc)
  /-- JIG_BRANCH: Jig conditional branch BEQ, BNE, BLT, BGE, BLTU or BGEU. (R182) -/
  | jigBranch (b : BenchIx) (f : Ecc)
  /-- JAL: Jig JAL links and branches by OFF21. (R182) -/
  | jal (b : BenchIx) (f : Ecc)
  /-- JALR: Jig JALR links and branches to j[RS1] + IMM16. (R182) -/
  | jalr (b : BenchIx) (f : Ecc)
  /-- SYS_NOP: Jig SYS NOP. (R184) -/
  | sysNop (b : BenchIx) (f : Ecc)
  /-- END: Jig END marks the bench's last instruction of the command. (R184) -/
  | endOp (b : BenchIx) (f : Ecc)
  /-- RDCYC: Jig RDCYC writes the low 32 bits of the die cycle count to j[RD]. (R154) -/
  | rdcyc (b : BenchIx) (f : Ecc)
  /-- SYS_FENCE: Jig FENCE releases and/or acquires at its scope, holding jig issue until done. `mp`: parity of a draining merge-buffer entry fails. (R283) -/
  | sysFence (b : BenchIx) (f : Ecc) (mp : Bool)
  /-- CWAIT: Jig CWAIT begins waiting on a completion counter. (R184) -/
  | cwait (b : BenchIx) (f : Ecc)
  /-- CWAIT_EXIT: A counter reaches its target and the jig wait exits, aligned if ALIGN is set. (R55) -/
  | cwaitExit (b : BenchIx)
  /-- COUNTER_WAIT_TIMEOUT: A counter wait lasts BCH_WAIT_WDOG and the context is killed with 0x1103. (R55) -/
  | counterWaitTimeout (b : BenchIx)
  /-- TM: Jig TM issues a tile-mover descriptor into the queue, or kills with 0x1104. (R54) -/
  | tm (b : BenchIx) (f : Ecc)
  /-- TILE_MOVER_DESCRIPTOR_START: A queued descriptor starts when fewer than 8 are active and injects its first request. `d` is what the local-store SECDED finds as the source is read. (R167) -/
  | tileMoverDescriptorStart (b : BenchIx) (d : EccAt)
  /-- TILE_MOVER_RESPONSE: A response line for a tile-mover read arrives and is written in unscheduled bank cycles. (R167) -/
  | tileMoverResponse (b : BenchIx)
  /-- TILE_MOVER_WRITE_ACK: A descriptor's last write is acknowledged and its completion counter increments. (R54) -/
  | tileMoverWriteAck (b : BenchIx)
  /-- SLOT: Jig SLOT issues a slot transfer from a slot-table entry. (R168) -/
  | slot (b : BenchIx) (f : Ecc)
  /-- SLOT_TRANSFER_START: After its source read, a slot transfer starts at the first cycle matching its phase and injects its chunks. (R168) -/
  | slotTransferStart (b : BenchIx) (d : EccAt)
  /-- SLOT_TRANSFER_LANDING: A slot transfer's chunks land and the destination counter increments. `b` is the destination bench. (R168) -/
  | slotTransferLanding (b : BenchIx)
  /-- LINE_FILL_ARRIVAL: A requested line arrives from the bay cache, is merged with own stores and fills the L1 or infeed. (R46) -/
  | lineFillArrival (b : BenchIx)
  /-- MERGE_BUFFER_IDLE_DRAIN: An entry receives no store for BCH_MB_CFG.IDLE cycles and drains. (R48) -/
  | mergeBufferIdleDrain (b : BenchIx) (mp : Bool)
  /-- MERGE_BUFFER_DRAIN_ACK: The bay cache acknowledges a drained entry and the entry is freed. (R48) -/
  | mergeBufferDrainAck (b : BenchIx)
  /-- SCOREBOARD_RETIRE: An access completes and its scoreboard entry retires, releasing waiting accesses. (R53) -/
  | scoreboardRetire (b : BenchIx)
  /-- COMMAND_BOUNDARY: A context's last instruction, scoreboard, tile mover and merge buffer finish and the command boundary is reached. `next` is the resident context the bench switches to, if any; `x` is what SEAL finds in the glue-up sets and the save in the register file. (R57) -/
  | commandBoundary (b : BenchIx) (next : Option (Fin 4)) (x : ParityFind)
  /-- CONTEXT_START: The restored incoming context starts at most 256 cycles after SEAL completes. The bench, and what SECDED finds in the save area. (R57) -/
  | contextStart (x : RestoreFind)
  /-- FOLD: Mortise FOLD reaches the head and folds a logical product onto the cubes. (R66) -/
  | fold (b : BenchIx)
  /-- STREAM: Mortise STREAM reaches the head and streams rows through a stationary register. (R73) -/
  | stream (b : BenchIx)
  /-- SLOAD: Mortise SLOAD leaves the queue and loads a stationary register. (R71) -/
  | sload (b : BenchIx)
  /-- STATIONARY_READY: A stationary register becomes ready eight cycles after its SLOAD. (R71) -/
  | stationaryReady (b : BenchIx) (e : EccAt)
  /-- GOPEN: Mortise GOPEN opens a group-wide region and clears the next glue-up set. (R79) -/
  | gopen (b : BenchIx)
  /-- GCLOSE: Mortise GCLOSE closes the group-wide region. (R164) -/
  | gclose (b : BenchIx)
  /-- SCSET: Mortise SET SCSET loads a scale slot from a jig register. (R186) -/
  | scset (b : BenchIx)
  /-- SRSEED: Mortise SET SRSEED replaces the stochastic-rounding seed and resets the tile counter. (R104) -/
  | srseed (b : BenchIx)
  /-- AIR: Mortise SET AIR sets the air-cut mode. (R77) -/
  | air (b : BenchIx)
  /-- MORTISE_STEP: The cubes run one step of the instruction at the head once operands, sets and permitted cycles allow. `stg` and `stn` are the staging and stationary offsets of a parity error, if any. (R65) -/
  | mortiseStep (b : BenchIx) (e : EccAt) (stg : Option Nat) (stn : Option Nat)
  /-- DRESSING: Rough sums are dressed into the glue-up set once the set may take them. `pe` is the byte offset within the set of a glue-up parity error, if any. (R95) -/
  | dressing (b : BenchIx) (pe : Option Nat)
  /-- GLUE_UP_DRAIN: Once an outfeed entry is free, a glue-up set drains over 8 cycles and its tile reaches the tail. (R101) -/
  | glueUpDrain (b : BenchIx) (pe : Option Nat)
  /-- GMMA: A group issues GMMA and the engine adds the product into a quadrant, draining on FIN. (R80) -/
  | gmma (b : BenchIx) (slot : Fin 8) (f : Ecc) (e : EccAt) (x : ParityFind)
  /-- VOP_ARITH: Plane ADD, SUB, MUL, MIN, MAX, ABS or NEG. `f` is what SECDED finds at a thread fetch, `vp` the register-file byte offset of a parity error, if any. (R119) -/
  | vopArith (b : BenchIx) (src : PlaneSrc) (f : Ecc) (vp : Option Nat)
  /-- FMA: Plane FMA, FMS or FNMA with one rounding. (R119) -/
  | fma (b : BenchIx) (src : PlaneSrc) (f : Ecc) (vp : Option Nat)
  /-- RCP_RSQ_SQRT_EXP2_LOG2: Plane correctly rounded FP32 function. (R119) -/
  | rcpRsqSqrtExp2Log2 (b : BenchIx) (src : PlaneSrc) (f : Ecc) (vp : Option Nat)
  /-- MULH: Plane integer high-half multiply. (R189) -/
  | mulh (b : BenchIx) (src : PlaneSrc) (f : Ecc) (vp : Option Nat)
  /-- SHL_SHR: Plane integer shifts. (R189) -/
  | shlShr (b : BenchIx) (src : PlaneSrc) (f : Ecc) (vp : Option Nat)
  /-- AND_OR_XOR: Plane integer bitwise logic. (R189) -/
  | andOrXor (b : BenchIx) (src : PlaneSrc) (f : Ecc) (vp : Option Nat)
  /-- CVT: Plane element conversion between types. (R119) -/
  | cvt (b : BenchIx) (src : PlaneSrc) (f : Ecc) (vp : Option Nat)
  /-- CMP: Plane compare writing a mask register. (R119) -/
  | cmp (b : BenchIx) (src : PlaneSrc) (f : Ecc) (vp : Option Nat)
  /-- SEL: Plane per-lane select under a second mask. (R119) -/
  | sel (b : BenchIx) (src : PlaneSrc) (f : Ecc) (vp : Option Nat)
  /-- MASK_LOGIC: Plane MAND, MOR, MXOR, MANDN or MNOT on mask registers. (R189) -/
  | maskLogic (b : BenchIx) (src : PlaneSrc) (f : Ecc) (vp : Option Nat)
  /-- PERM: Plane PERM permutes by an index register. (R123) -/
  | perm (b : BenchIx) (src : PlaneSrc) (f : Ecc) (vp : Option Nat)
  /-- PERM2: Plane PERM2 permutes from two sources. (R123) -/
  | perm2 (b : BenchIx) (src : PlaneSrc) (f : Ecc) (vp : Option Nat)
  /-- ROT: Plane ROT rotates elements by an immediate. (R123) -/
  | rot (b : BenchIx) (src : PlaneSrc) (f : Ecc) (vp : Option Nat)
  /-- REV: Plane REV reverses elements. (R123) -/
  | rev (b : BenchIx) (src : PlaneSrc) (f : Ecc) (vp : Option Nat)
  /-- XSWAP: Plane XSWAP swaps elements at index XOR n. (R123) -/
  | xswap (b : BenchIx) (src : PlaneSrc) (f : Ecc) (vp : Option Nat)
  /-- BCAST: Plane BCAST broadcasts element n. (R123) -/
  | bcast (b : BenchIx) (src : PlaneSrc) (f : Ecc) (vp : Option Nat)
  /-- ZIP_UNZIP: Plane ZIPLO, ZIPHI, UNZIPE or UNZIPO. (R123) -/
  | zipUnzip (b : BenchIx) (src : PlaneSrc) (f : Ecc) (vp : Option Nat)
  /-- PACK: Plane PACK narrows two sources. (R124) -/
  | pack (b : BenchIx) (src : PlaneSrc) (f : Ecc) (vp : Option Nat)
  /-- UNPK: Plane UNPKLO or UNPKHI widens elements. (R124) -/
  | unpk (b : BenchIx) (src : PlaneSrc) (f : Ecc) (vp : Option Nat)
  /-- VLD: Plane VLD loads strided elements. `lp` is the line (address / 128) whose L1 or infeed parity fails, if any. (R120) -/
  | vld (b : BenchIx) (e : EccAt) (lp : Option Nat) (vp : Option Nat)
  /-- VST: Plane VST stores strided elements. `mp`: parity of a merge-buffer entry it makes drain fails. (R120) -/
  | vst (b : BenchIx) (e : EccAt) (lp : Option Nat) (vp : Option Nat) (mp : Bool)
  /-- VLDX: Plane VLDX gathers elements by index. (R120) -/
  | vldx (b : BenchIx) (e : EccAt) (lp : Option Nat) (vp : Option Nat)
  /-- VSTX: Plane VSTX scatters elements by index. (R120) -/
  | vstx (b : BenchIx) (e : EccAt) (lp : Option Nat) (vp : Option Nat) (mp : Bool)
  /-- VPF: Plane VPF prefetches a line into the infeed buffer. (R50) -/
  | vpf (b : BenchIx)
  /-- COMPRESS: Plane COMPRESS packs selected lanes up to CAP and reports the dropped count. (R127) -/
  | compress (b : BenchIx) (src : PlaneSrc) (f : Ecc) (vp : Option Nat)
  /-- EXPAND: Plane EXPAND spreads source lanes into selected lanes. (R127) -/
  | expand (b : BenchIx) (src : PlaneSrc) (f : Ecc) (vp : Option Nat)
  /-- CSTORE: Plane CSTORE stores selected lanes contiguously from the fill index. (R127) -/
  | cstore (b : BenchIx) (src : PlaneSrc) (f : Ecc) (vp : Option Nat) (e : EccAt)
  /-- XLOAD: Plane XLOAD loads words into selected lanes from the fill index. (R127) -/
  | xload (b : BenchIx) (src : PlaneSrc) (f : Ecc) (vp : Option Nat) (e : EccAt)
  /-- SETVL: Plane SETVL sets VL to min(n, 64) and writes it back, or kills on zero. (R117) -/
  | setvl (b : BenchIx) (src : PlaneSrc) (f : Ecc)
  /-- MVJP: Plane MVJP copies a jig register into lane 0 of a vector register. (R121) -/
  | mvjp (b : BenchIx) (src : PlaneSrc) (f : Ecc) (vp : Option Nat)
  /-- PFLAGS: Plane PFLAGS copies the sticky flags to a jig register and clears them. (R193) -/
  | pflags (b : BenchIx) (src : PlaneSrc) (f : Ecc)
  /-- SUM: Plane SUM writes a mask or vector summary into a jig register. (R125) -/
  | sum (b : BenchIx) (src : PlaneSrc) (f : Ecc) (vp : Option Nat)
  /-- OFRD: Plane OFRD copies a 256-byte chunk of an outfeed tile once it is held. `op` is the byte offset in the entry of an outfeed parity error, if any. (R128) -/
  | ofrd (b : BenchIx) (src : PlaneSrc) (f : Ecc) (op : Option Nat)
  /-- OFTAG: Plane OFTAG writes an outfeed tile's tag to a jig register. (R128) -/
  | oftag (b : BenchIx) (src : PlaneSrc) (f : Ecc)
  /-- OFPOP: Plane OFPOP frees the head outfeed entry. (R128) -/
  | ofpop (b : BenchIx) (src : PlaneSrc) (f : Ecc)
  /-- OUTFEED_WAIT_TIMEOUT: An outfeed wait lasts BCH_WAIT_WDOG and the context is killed with 0x1302. (R130) -/
  | outfeedWaitTimeout (b : BenchIx)
  /-- TGLAUNCH: Jig TGLAUNCH starts a thread group in a slot or pending. (R135) -/
  | tglaunch (b : BenchIx) (f : Ecc)
  /-- TGPARK: Jig TGPARK starts moving a slot's group to its park record. (R138) -/
  | tgpark (b : BenchIx) (f : Ecc)
  /-- TGACT: Jig TGACT starts moving a pending group into a free slot. (R138) -/
  | tgact (b : BenchIx) (f : Ecc)
  /-- TG_MOVE_DONE: A park or activate move ends after its transfers, service cycles and lost claims. (R160) -/
  | tgMoveDone (b : BenchIx) (slot : Fin 8) (x : MoveFind)
  /-- GROUP_RETIRE: All threads have exited and all accesses retired, so the group retires and its counter increments. (R136) -/
  | groupRetire (b : BenchIx) (slot : Fin 8)
  /-- BNZ: Thread branch if register nonzero. (R195) -/
  | bnz (b : BenchIx) (slot : Fin 8) (f : Ecc) (vp : Option Nat)
  /-- BZ: Thread branch if register zero. (R195) -/
  | bz (b : BenchIx) (slot : Fin 8) (f : Ecc) (vp : Option Nat)
  /-- JMP: Thread unconditional jump. (R195) -/
  | jmp (b : BenchIx) (slot : Fin 8) (f : Ecc)
  /-- EXIT: Thread EXIT finishes the threads of the active mask. (R136) -/
  | exitThreads (b : BenchIx) (slot : Fin 8) (f : Ecc)
  /-- BAR: Thread BAR arrives at the group barrier and waits. (R147) -/
  | bar (b : BenchIx) (slot : Fin 8) (f : Ecc)
  /-- TCTL_FENCE: Thread FENCE releases and/or acquires for its cohort. (R146) -/
  | tctlFence (b : BenchIx) (slot : Fin 8) (f : Ecc) (mp : Bool)
  /-- LI: Thread LI loads a 32-bit immediate. (R195) -/
  | li (b : BenchIx) (slot : Fin 8) (f : Ecc)
  /-- CARRIVE: Thread clamp ARRIVE. (R218) -/
  | carrive (b : BenchIx) (slot : Fin 8) (f : Ecc)
  /-- CADD: Thread clamp ADD. (R218) -/
  | cadd (b : BenchIx) (slot : Fin 8) (f : Ecc) (vp : Option Nat)
  /-- TCTL_CWAIT: Thread clamp WAIT blocks the threads of the active mask. (R218) -/
  | tctlCwait (b : BenchIx) (slot : Fin 8) (f : Ecc) (vp : Option Nat)
  /-- TMEM_LD: Thread LD or LDU, coalesced per line or granule. (R144) -/
  | tmemLd (b : BenchIx) (slot : Fin 8) (f : Ecc) (e : EccAt) (lp : Option Nat) (vp : Option Nat)
  /-- TMEM_ST: Thread ST, coalesced per line or granule. (R144) -/
  | tmemSt (b : BenchIx) (slot : Fin 8) (f : Ecc) (e : EccAt) (lp : Option Nat) (vp : Option Nat) (mp : Bool)
  /-- THREAD_ATOMIC: Thread atomic applied in ascending thread order, in the bench or at the bay cache. (R145) -/
  | threadAtomic (b : BenchIx) (slot : Fin 8) (f : Ecc) (e : EccAt) (vp : Option Nat)
  /-- CLP_ARRIVE: Jig clamp ARRIVE adds 1 to a bench counter or device clamp ID. (R218) -/
  | clpArrive (b : BenchIx) (f : Ecc)
  /-- CLP_ADD: Jig clamp ADD adds j[RS] to a clamp. (R218) -/
  | clpAdd (b : BenchIx) (f : Ecc)
  /-- CLP_WAIT: Jig clamp WAIT begins waiting for a clamp target. (R218) -/
  | clpWait (b : BenchIx) (f : Ecc)
  /-- CLAMP_ROOT_UPDATE: Merged clamp messages reach the root, which applies the sum and broadcasts the new value. Up to `k` messages in flight for physical ID `ix` arrive as one. (R221) -/
  | clampRootUpdate (ix : Fin 256) (k : Nat) (e : Ecc)
  /-- CLAMP_SHADOW_UPDATE: A clamp broadcast reaches a node and updates its benches' shadows. `node` is 12 × row + column. (R221) -/
  | clampShadowUpdate (die : DieIx) (node : Fin 144) (ix : Fin 256) (e : Ecc)
  /-- CLAMP_WAIT_EXIT: A clamp's value reaches the wait target and the waiter is released. `slot` names a thread group's wait; none the jig core's. (R218) -/
  | clampWaitExit (b : BenchIx) (slot : Option (Fin 8))
  /-- CLAMP_WATCHDOG_EXPIRY: A clamp or barrier wait reaches the watchdog limit and the context is killed with 0x1501. (R223) -/
  | clampWatchdogExpiry (b : BenchIx) (slot : Option (Fin 8))
  /-- BAY_LOAD_REQUEST: A bench read request is looked up in the bay cache and hits or misses to the home slice. `e` is what the arrays show for the line looked up. (R253) -/
  | bayLoadRequest (y : BayIx) (e : ArrEcc)
  /-- BAY_MASKED_WRITE: A masked write reaches the bay cache and is merged, forwarded or waits for ownership. (R262) -/
  | bayMaskedWrite (y : BayIx) (e : ArrEcc)
  /-- BAY_ATOMIC: An atomic reaches the bay cache and is performed, queued or forwarded as ATA. (R264) -/
  | bayAtomic (y : BayIx) (e : ArrEcc)
  /-- BAY_GRANT: A grant arrives at the bay cache and waiting writes and atomics are performed. (R262) -/
  | bayGrant (y : BayIx)
  /-- BAY_WB_ACK: The slice acknowledges a write-back and the bay frees its write-back buffer entry. (R253) -/
  | bayWbAck (y : BayIx)
  /-- RDS: A slice serves an RDS read for a shared copy. From a bay cache (the first in flight), or from an IOD agent for device line `line`. (R257) -/
  | rds (q : SliceIx) (e : ArrEcc) (iod : Option (Fin 25)) (line : Fin 8589934592)
  /-- RDU: A slice serves an RDU read keeping no copy. IOD agent `k` reads device line `line`. (R257) -/
  | rdu (q : SliceIx) (e : ArrEcc) (k : Fin 25) (line : Fin 8589934592)
  /-- RDX: A slice serves an RDX read for exclusive ownership. (R257) -/
  | rdx (q : SliceIx) (e : ArrEcc)
  /-- RDXN: A slice grants exclusive ownership without data. (R257) -/
  | rdxn (q : SliceIx) (e : ArrEcc)
  /-- WB: A slice takes or discards a write-back. (R257) -/
  | wb (q : SliceIx) (e : ArrEcc)
  /-- WRA: A slice performs a masked write after snooping. (R257) -/
  | wra (q : SliceIx) (e : ArrEcc)
  /-- ATA: A slice performs an atomic after snooping. (R265) -/
  | ata (q : SliceIx) (e : ArrEcc)
  /-- RED: A reduce-into joins its line's queue and the line's reduction-pending count rises. (R268) -/
  | red (q : SliceIx) (e : ArrEcc)
  /-- REDUCTION_APPLY: A bank's reduction unit applies a RED, writes the line and acknowledges. (R268) -/
  | reductionApply (q : SliceIx)
  /-- INV: A bay cache or IOD agent receives INV and drops a shared copy. `ix` is a presence bit: 0 to 63 a bay cache, 64 + k an IOD agent. (R256) -/
  | inv (ix : Fin 89)
  /-- DWN: A bay cache receives DWN, keeps the line as S and returns dirty data. (R256) -/
  | dwn (y : BayIx)
  /-- RCL: A bay cache receives RCL, drops the line and returns dirty data. (R256) -/
  | rcl (y : BayIx)
  /-- SNOOP_REPLY: A snoop reply NP, ACK or DATA arrives at the slice and the waiting request proceeds. (R257) -/
  | snoopReply (q : SliceIx)
  /-- SLICE_HBM_FILL: HBM data for an allocated line arrives at the slice and the pending request is served. (R257) -/
  | sliceHbmFill (q : SliceIx)
  /-- SLICE_FILL_WAIT_RETRY: A fill waiting for an eligible way is reconsidered when a way of its set becomes eligible. (R269) -/
  | sliceFillWaitRetry (q : SliceIx)
  /-- WINDOW_VALID_SET: Writing HBM_WIN_BASE with VALID set runs the window checks, then flushes and zero-fills. (R298) -/
  | windowValidSet (e : Fin 144) (base : Fin 1024) (sizem1 : Fin 1024)
  /-- WINDOW_VALID_CLEAR: Writing VALID as 0 makes a window busy while its lines are flushed. (R299) -/
  | windowValidClear (e : Fin 144) (base : Fin 1024) (sizem1 : Fin 1024)
  /-- WINDOW_BUSY_END: A window's flush and zero fill end and the entry stops being busy. (R299) -/
  | windowBusyEnd (e : Fin 144)
  /-- HBM_READ: A controller read completes and is corrected, rebuilt or delivered poisoned. (R304) -/
  | hbmRead (q : SliceIx) (f : HbmFind)
  /-- HBM_WRITE: A controller write updates the line and its check word in the check cache. (R303) -/
  | hbmWrite (x : WriteFind)
  /-- HBM_REFRESH: Per-bank refresh every 3.9 us. (R307) -/
  | hbmRefresh (q : SliceIx)
  /-- HBM_ECS: An error-check-and-scrub pass accumulates errors and may raise 0x3208. `n` errors counted. (R307) -/
  | hbmEcs (q : SliceIx) (n : Nat)
  /-- HBM_RETRAIN: A periodic channel retraining runs, and a failure marks the channel failed. Channel `k` of the controller. (R307) -/
  | hbmRetrain (q : SliceIx) (k : Fin 4) (ok : Bool)
  /-- CA_PARITY_ERROR: A command/address parity error triggers an immediate retraining of the channel. (R307) -/
  | caParityError (q : SliceIx) (k : Fin 4) (ok : Bool)
  /-- PORT_ENABLE: DISABLE and DEVID VALID allow a port, which powers its lane domain and goes to TRAINING. (R369) -/
  | portEnable (p : PortIx)
  /-- PORT_DISABLE: Setting FAB_PORTp_CTL.DISABLE holds the port DISABLED. (R369) -/
  | portDisable (p : PortIx)
  /-- PORT_DOWN_REQUEST: A write of FAB_PORTp_CTL.DOWN takes an UP port down. (R370) -/
  | portDownRequest (p : PortIx)
  /-- PORT_TRAINING_DONE: A port's training attempt ends in UP or LATCHED with 0x6102. (R369) -/
  | portTrainingDone (p : PortIx) (f : TrainFind)
  /-- PORT_ALIGNMENT_LOSS: A lane loses PCS alignment for 200 ns and the port goes DOWN with 0x6101. (R370) -/
  | portAlignmentLoss (p : PortIx)
  /-- FABRIC_REFCLK_LOSS: The fabric reference clock is lost and ports go NOFORM with 0x6104. (R369) -/
  | fabricRefclkLoss
  /-- FABRIC_REFCLK_RETURN: The fabric reference clock returns and NOFORM ports leave that state. (R369) -/
  | fabricRefclkReturn
  /-- FAB_DEVID_WRITE: A write of FAB_DEVIDk is accepted only while every port of the instance is DISABLED. (R371) -/
  | fabDevidWrite (k : Fin 8) (v : W32)
  /-- FAB_PEER_ID_WRITE: A write of FAB_PEERi_ID changing VALID or ID fails outstanding operations to the old peer. (R374) -/
  | fabPeerIdWrite (ix : Fin 4096) (v : W32)
  /-- FAB_XCLP_WRITE: A write of a system-clamp tree register is accepted only while the clamp ID is not VALID. Register `k`: 0 CFG, 1 KIDS0, 2 KIDS1. (R386) -/
  | fabXclpWrite (ix : Fin 256) (k : Fin 3) (v : W32)
  /-- WRITE_FRAME: A WRITE frame is checked and each line performed as WRA, then acknowledged. The frame as it arrives on port `p`, and what is found of it. (R378) -/
  | writeFrame (p : PortIx) (find : FrameFind) (f : Frame)
  /-- READ_REQ: A READ_REQ frame is served as RDU reads answered by READ_RSP frames. The frame as it arrives on port `p`, and what is found of it. (R378) -/
  | readReq (p : PortIx) (find : FrameFind) (f : Frame)
  /-- READ_RSP: A READ_RSP frame delivers read data to its requester. The frame as it arrives on port `p`, and what is found of it. (R380) -/
  | readRsp (p : PortIx) (find : FrameFind) (f : Frame)
  /-- RED_FRAME: A RED frame is performed as reduce-into at the home slice. The frame as it arrives on port `p`, and what is found of it. (R378) -/
  | redFrame (p : PortIx) (find : FrameFind) (f : Frame)
  /-- ATOMIC_FRAME: An ATOMIC frame is performed as ATA and answered with ATOMIC_RSP. The frame as it arrives on port `p`, and what is found of it. (R378) -/
  | atomicFrame (p : PortIx) (find : FrameFind) (f : Frame)
  /-- ATOMIC_RSP: An ATOMIC_RSP frame returns the old value to the requester. The frame as it arrives on port `p`, and what is found of it. (R376) -/
  | atomicRsp (p : PortIx) (find : FrameFind) (f : Frame)
  /-- REFUSED: A REFUSED frame fails the requester's operation with 0x6204. The frame as it arrives on port `p`, and what is found of it. (R379) -/
  | refused (p : PortIx) (find : FrameFind) (f : Frame)
  /-- COLL: A COLL READY or DONE frame advances a collective chunk. The frame as it arrives on port `p`, and what is found of it. (R388) -/
  | coll (p : PortIx) (find : FrameFind) (f : Frame)
  /-- MIRROR_WRITE: A MIRROR_WRITE frame is performed as whole-line writes into the book. The frame as it arrives on port `p`, and what is found of it. (R416) -/
  | mirrorWrite (p : PortIx) (find : FrameFind) (f : Frame)
  /-- MIRROR_COMMIT_FRAME: A MIRROR_COMMIT frame writes the book header after earlier mirror frames, then confirms. The frame as it arrives on port `p`, and what is found of it. (R416) -/
  | mirrorCommitFrame (p : PortIx) (find : FrameFind) (f : Frame)
  /-- MIRROR_CONFIRM: A MIRROR_CONFIRM frame completes a window's commit or header write. The frame as it arrives on port `p`, and what is found of it. (R417) -/
  | mirrorConfirm (p : PortIx) (find : FrameFind) (f : Frame)
  /-- CLAMP_UP: A CLAMP_UP frame carries a sum toward the system clamp's root device. The frame as it arrives on port `p`, and what is found of it. (R386) -/
  | clampUp (p : PortIx) (find : FrameFind) (f : Frame)
  /-- CLAMP_DOWN: A CLAMP_DOWN frame sets the IOD root value, broadcasts to dies and is forwarded to children. The frame as it arrives on port `p`, and what is found of it. (R386) -/
  | clampDown (p : PortIx) (find : FrameFind) (f : Frame)
  /-- ACK: An ACK frame advances a stream's acknowledged sequence. The frame as it arrives on port `p`, and what is found of it. (R383) -/
  | ack (p : PortIx) (find : FrameFind) (f : Frame)
  /-- NAK: A NAK frame makes the sender resend from its oldest unacknowledged frame. The frame as it arrives on port `p`, and what is found of it. (R383) -/
  | nak (p : PortIx) (find : FrameFind) (f : Frame)
  /-- RESYNC: A RESYNC frame restarts a peer's streams at SEQ 0 and fails outstanding operations after a peer reset. The frame as it arrives on port `p`, and what is found of it. (R384) -/
  | resync (p : PortIx) (find : FrameFind) (f : Frame)
  /-- LACK: A LACK frame releases frames from the link replay buffer. The frame as it arrives on port `p`, and what is found of it. (R382) -/
  | lack (p : PortIx) (find : FrameFind) (f : Frame)
  /-- LNAK: An LNAK frame causes a link-level replay with 0x6106. The frame as it arrives on port `p`, and what is found of it. (R382) -/
  | lnak (p : PortIx) (find : FrameFind) (f : Frame)
  /-- TS_SYNC: A TS_SYNC time-sync message arrives from the parent. The frame as it arrives on port `p`, and what is found of it. `sub` is the nanosecond within the tick. (R387) -/
  | tsSync (p : PortIx) (find : FrameFind) (f : Frame) (sub : Fin 20)
  /-- TS_FOLLOW: A TS_FOLLOW message lets the follower compute its offset, lock or slew. The frame as it arrives on port `p`, and what is found of it. (R387) -/
  | tsFollow (p : PortIx) (find : FrameFind) (f : Frame)
  /-- TS_PDREQ: A TS_PDREQ peer-delay request is answered with TS_PDRESP. The frame as it arrives on port `p`, and what is found of it. (R387) -/
  | tsPdreq (p : PortIx) (find : FrameFind) (f : Frame)
  /-- TS_PDRESP: A TS_PDRESP message gives the link delay. The frame as it arrives on port `p`, and what is found of it. `sub` is the nanosecond within the tick. (R387) -/
  | tsPdresp (p : PortIx) (find : FrameFind) (f : Frame) (sub : Fin 20)
  /-- TS_SYNC_INTERVAL: Every 125 us a device sends its time-sync exchanges on each DIRECT port. (R387) -/
  | tsSyncInterval
  /-- RETRANSMIT_TIMEOUT: FAB_RTO.TICKS expires after a frame was sent and the sender resends from there. Peer entry `ix`, its clamp stream where `c` is set. (R383) -/
  | retransmitTimeout (ix : Fin 4096) (c : Bool)
  /-- PEER_NO_PORT_TIMEOUT: No port of a peer's entry has been UP for 1 ms and the peer becomes unreachable. (R384) -/
  | peerNoPortTimeout (ix : Fin 4096)
  /-- RESYNC_TIMER: Every 1 ms while a port of the entry is UP, a RESYNC is sent to an unreachable peer. (R384) -/
  | resyncTimer (ix : Fin 4096)
  /-- ACK_DELAY_EXPIRY: No frame has carried an ACK within 100 ns and a separate ACK frame is sent. (R383) -/
  | ackDelayExpiry (ix : Fin 4096) (c : Bool)
  /-- LLR_ACK_TIMEOUT: No LACK has come for 600 ns and the sender replays. (R382) -/
  | llrAckTimeout (p : PortIx)
  /-- MIRROR_BLOCK_SEND: A dirty block unwritten for MIR_SETTLE is read and sent to the fill side. A window by 64 × owner + number. (R415) -/
  | mirrorBlockSend (w : Fin 576)
  /-- COMMIT_TIMEOUT: A commit is not confirmed within MIR_COMMIT_TMO and ends MIR_TIMEOUT with 0xA103. (R419) -/
  | commitTimeout (w : Fin 576)
  /-- REPAIR_TIMEOUT: A mirror repair gets no answer within MIR_REPAIR_TMO and the line stays poisoned. (R424) -/
  | repairTimeout (w : Fin 576)
  /-- BUS_PRSNT_MATE: BUS_PRSNT_N goes low while the input is already above 53.0 V, and the 20 ms input-switch delay starts. (R24) -/
  | busPrsntMate
  /-- OVER_VOLTAGE_WARNING_END: The input falls back below 63 V, cause 0x7C04 clears and the excursion ends. (R24) -/
  | overVoltageWarningEnd
  /-- INPUT_BACK_ABOVE_WARNING: The input returns to 52 V or above and the 100 us hold of the supply trigger starts. (R446) -/
  | inputBackAboveWarning
  /-- CURRENT_BACK_BELOW_IWARN: The sampled input current falls to IWARN or below and the 100 us hold of the current triggers starts. The current in units of 10 mA. (R440) -/
  | currentBackBelowIwarn (amps : BitVec 16)
  /-- SENSOR_BELOW_RELEASE_THRESHOLD: A throttling or coolant sensing point falls below its release threshold and its quiet period starts. (R404) -/
  | sensorBelowReleaseThreshold (n : Fin 576) (t : BitVec 16)
  /-- LINE_PAIR_VALID_AGAIN: After a line fault, the pair has read valid for 16 consecutive ticks and the collector uses the pair again. (R394) -/
  | linePairValidAgain (m : Fin 65536)
  /-- HOST_LINK_UP: The host link trains and its data link layer comes up at a negotiated width, rate and Flit mode. 2^`width` lanes, SPEED `speed` + 1. (R339) -/
  | hostLinkUp (width : Fin 5) (speed : Fin 7) (flit : Bool)
  /-- LINK_CORRECTABLE_ERROR: An FEC correction, a CRC failure with replay or a receiver error on the host link raises 0x9201 and AER. (R350) -/
  | linkCorrectableError (e : LinkErr)
  /-- HOST_BAR0_READ: A host BAR0 read is filtered, size-checked and answered, or completes with cause 0x8103 or 0x9206. `n` bytes at offset `off` of the function's BAR0. (R468) -/
  | hostBar0Read (f : FnIx) (off : BitVec 26) (n : Fin 4097)
deriving DecidableEq, Repr

end Sys2Proof
end

