-- ==== Sys2Proof/Decode.lean ====
section
/-! DEFINITION. The command that a word spells by the opcode table's bits. The table of this hardware gives no row any bits: a command is an
event at the device's pins, links, registers or engines, so no word spells one. (The instruction words that a bench, a plane engine or a
thread group fetches are data of the device; the commands that run them decode them, in Machine/Encodings.lean and the family files.) -/

namespace Sys2Proof

/-- No word spells a command. -/
def decodeTableWord (_nbits _w : Nat) : Option Instr := none

end Sys2Proof
end

