-- ==== Sys2Proof/Config.lean ====
section
/-! DEFINITION. The free values: what the manual leaves open although the machine goes on. Each is an
opaque constant, so that nothing can be proved of a particular value; `counter` is the count held in
the state (`Dev.free`), which moves on with every use, and `i` tells the values of one use apart. -/

namespace Sys2Proof.Config

/-- A number the manual leaves open. -/
opaque freeNat : (counter i : Nat) → Nat

/-- A byte the manual leaves open. -/
def freeByte (counter i : Nat) : Byte := BitVec.ofNat 8 (freeNat counter i)

/-- A 32-bit word the manual leaves open. -/
def freeW32 (counter i : Nat) : W32 := BitVec.ofNat 32 (freeNat counter i)

/-- A line the manual leaves open. -/
def freeLine (counter i : Nat) : Line := BitVec.ofNat 1024 (freeNat counter i)

/-- The serial number of the device, 64 bits (R36, R476): per device. -/
opaque serial : BitVec 64

/-- The DER certificate chain of the device and its length (R462): per device. -/
opaque certByte : Nat → Byte
opaque certLen : Nat

/-- Byte `i` of the SM3 digest of what measurement `index`, 1 to 7, measures, for the images of a slot with SEQ `seq` (R464); for
measurement 7 `seq` is the version of the trims in use (log 63). -/
opaque imageDigest : (index seq i : Nat) → Byte

/-- Byte `i` of the capability record of the I/O die, where R238 and R240 give none: per device. -/
opaque iodByte : (i : Nat) → Byte

/-- The check word of a data line that is not zero (R302): a Reed-Solomon code whose generator the manual does not give. -/
opaque checkWord : Line → W32

/-- How entry `e` of the register-access filter acts while its RIGHT holds the reserved value 3 (R468, R476). -/
opaque rafReserved : (e : Nat) → Nat

end Sys2Proof.Config
end

