-- ==== Sys2Proof/Machine/Data.lean ====
section
/-! DEFINITION. The two stores the state is built from: `SMap`, a map from numbers held as a list
sorted by key, and `Mem`, a byte memory held as `Host.Cell`s in one canonical form. -/

namespace Sys2Proof

/-- A finite map from numbers, kept as a list of pairs with rising keys. -/
structure SMap (α : Type) where
  cells : List (Nat × α)
deriving DecidableEq, Repr

namespace SMap
variable {α : Type}

def empty : SMap α := ⟨[]⟩

/-- The value at key `k` of a sorted list of pairs. -/
def lookupL (k : Nat) : List (Nat × α) → Option α
  | [] => none
  | (j, v) :: r => if j = k then some v else lookupL k r

/-- Put `v` at key `k`, keeping keys rising. -/
def insertL (k : Nat) (v : α) : List (Nat × α) → List (Nat × α)
  | [] => [(k, v)]
  | (j, w) :: r =>
    if k < j then (k, v) :: (j, w) :: r
    else if k = j then (k, v) :: r
    else (j, w) :: insertL k v r

/-- Drop key `k`. -/
def eraseL (k : Nat) : List (Nat × α) → List (Nat × α)
  | [] => []
  | (j, w) :: r => if j = k then eraseL k r else (j, w) :: eraseL k r

def find? (m : SMap α) (k : Nat) : Option α := lookupL k m.cells
def getD (m : SMap α) (k : Nat) (d : α) : α := (m.find? k).getD d
def set (m : SMap α) (k : Nat) (v : α) : SMap α := ⟨insertL k v m.cells⟩
def erase (m : SMap α) (k : Nat) : SMap α := ⟨eraseL k m.cells⟩
def modify (m : SMap α) (k : Nat) (d : α) (f : α → α) : SMap α := m.set k (f (m.getD k d))
def filter (m : SMap α) (p : Nat → α → Bool) : SMap α := ⟨m.cells.filter fun c => p c.1 c.2⟩
def mapVals (m : SMap α) (f : Nat → α → α) : SMap α := ⟨m.cells.map fun c => (c.1, f c.1 c.2)⟩
def keys (m : SMap α) : List Nat := m.cells.map (·.1)
def has (m : SMap α) (k : Nat) : Bool := (m.find? k).isSome

end SMap

/-- A byte memory in one canonical form: cells by strictly rising address, none holding 0, which is
what an unlisted address reads as (HBM: zero filled at cold boot, R459; the other memories: see the
assumption log). -/
structure Mem where
  cells : List Host.Cell
deriving DecidableEq, Repr

namespace Mem

/-- What an address that no cell lists reads as. -/
def unlisted : Byte := 0

def empty : Mem := ⟨[]⟩

/-- The byte that a list of cells holds at `a`. -/
def lookupL (a : Nat) : List Host.Cell → Byte
  | [] => unlisted
  | (b, v) :: r => if b = a then v else lookupL a r

/-- Put byte `v` at `a`. -/
def insertL (a : Nat) (v : Byte) : List Host.Cell → List Host.Cell
  | [] => [(a, v)]
  | (b, w) :: r =>
    if a < b then (a, v) :: (b, w) :: r
    else if a = b then (a, v) :: r
    else (b, w) :: insertL a v r

/-- Drop the cell of address `a`. -/
def eraseL (a : Nat) : List Host.Cell → List Host.Cell
  | [] => []
  | (b, w) :: r => if b = a then eraseL a r else (b, w) :: eraseL a r

def read (m : Mem) (a : Nat) : Byte := lookupL a m.cells
/-- Write a byte; writing what an unlisted address reads as removes the cell. -/
def write (m : Mem) (a : Nat) (v : Byte) : Mem := if v = unlisted then ⟨eraseL a m.cells⟩ else ⟨insertL a v m.cells⟩

/-- Write the bytes `bs` from address `a` up. -/
def writeBytes (m : Mem) (a : Nat) : List Byte → Mem
  | [] => m
  | b :: bs => (m.write a b).writeBytes (a + 1) bs

/-- The `n` bytes from address `a` up. -/
def readBytes (m : Mem) (a : Nat) : Nat → List Byte
  | 0 => []
  | n + 1 => m.read a :: m.readBytes (a + 1) n

/-- The little-endian number in the `n` bytes from `a` (R7). -/
def readN (m : Mem) (a n : Nat) : Nat := leNat (m.readBytes a n)

/-- Write the `n` low bytes of `v`, little-endian, from `a` (R7). -/
def writeN (m : Mem) (a n v : Nat) : Mem := m.writeBytes a (leBytes v n)

/-- Write the enabled bytes of a line at byte address `a`. -/
def writeMasked (m : Mem) (a : Nat) (l : Line) (be : ByteEn) : Mem :=
  (List.range 128).foldl (fun m i => if be.getLsbD i then m.write (a + i) (l.byte i) else m) m

/-- The 128-byte line at byte address `a`. -/
def readLine (m : Mem) (a : Nat) : Line := lineOf (m.readBytes a 128)

/-- Zero every byte with an address from `a` to `a + n - 1`. -/
def clearRange (m : Mem) (a n : Nat) : Mem := ⟨m.cells.filter fun c => !(a ≤ c.1 && c.1 < a + n)⟩

/-- Zero every byte whose address satisfies `p`. -/
def clearIf (m : Mem) (p : Nat → Bool) : Mem := ⟨m.cells.filter fun c => !p c.1⟩

/-- Strictly rising addresses and no cell holding the unlisted value. -/
def sortedL : List Host.Cell → Bool
  | [] => true
  | [(_, v)] => v != unlisted
  | (a, v) :: (b, w) :: r => v != unlisted && decide (a < b) && sortedL ((b, w) :: r)

/-- The canonical form of a memory. -/
def wf (m : Mem) : Bool := sortedL m.cells

end Mem

end Sys2Proof
end

