-- ==== Sys2Proof/Machine/BenchState.lean ====
section
/-! DEFINITION. The state of one bench (R37): resident contexts, jig core, L1 and its buffers, range
scoreboard, tile mover, mortise engine with its glue-up sets and outfeed queue, plane engine, thread
groups and clamp counters. Local store, L1 lines and the instruction store are bytes of the bench's
two memories. -/

namespace Sys2Proof.Machine

/-- A glue-up set or an outfeed tile: 8 KiB, element (i, j) at byte 8 × (32i + j) (R98). -/
abbrev GData := BitVec 65536

/-- A slot-table entry of a bench, as the cut list gives it (R202); `dstPlace` is a placement index. -/
structure SlotEntry where
  srcOff : Nat
  len : Nat
  phase : Nat
  dstOff : Nat
  dstPlace : Nat
  dstCnt : Nat
deriving DecidableEq, Repr

/-- A thread FENCE that is not yet complete: the threads it blocks, system scope, acquire part, and the scoreboard
entries before `upto` that it waits for (R146, R283). -/
structure TFence where
  mask : W64
  sys : Bool
  acq : Bool
  upto : Nat
deriving DecidableEq, Repr

/-- An atomic of a group's cohort whose old values are on their way (R145): the threads not answered yet, the register the values go to,
its scoreboard entry and its program counter. -/
structure TAtom where
  wait : W64
  ud : Nat
  sb : Nat
  pc : Nat
deriving DecidableEq, Repr

/-- One thread group while it holds a slot of the active set (R134 to R148). Registers u0 to u31 are
the vector registers v(32g) to v(32g + 31) of the slot. -/
structure TGroup where
  num : Nat
  pcs : List Nat
  ages : List Nat
  exited : W64
  arrived : W64
  clampWait : W64
  /-- the watchdog of its barrier wait (R137, R148): the die's cycle count at the first arrival, while the group is active and its context
  runs; the cycles counted so far, while it is parked or switched out -/
  wdog : Nat := 0
  /-- the same of the clamp wait of each thread that waits (R148) -/
  clampAt : SMap Nat := ⟨[]⟩
  /-- fences not yet complete -/
  fences : List TFence := []
  /-- atomics of its cohorts not yet complete -/
  atoms : List TAtom := []
deriving DecidableEq, Repr

/-- What the bench knows of a live group beside its slot or park record: the context that launched it,
its completion counter, its slot while active, and while it is parked the watchdog counts of its clamp waits, which the park record does
not hold (R134 to R138, R148). -/
structure GInfo where
  ctx : Nat
  cnt : Nat
  slot : Option Nat
  clampAt : SMap Nat := ⟨[]⟩
deriving DecidableEq, Repr

/-- A TGPARK or TGACT in progress on a slot (R138); moves on one slot go in program order. -/
structure TGMove where
  slot : Nat
  group : Nat
  park : Bool
  /-- the scoreboard entry of its park record -/
  sb : Nat
deriving DecidableEq, Repr

/-- One resident context of a bench (R56 to R59, R63, R74, R104, R113, R139). `prog` is the program
slot (16 × instance + slot) that made it resident and `place` its placement index. -/
structure BenchCtx where
  valid : Bool := false
  prog : Nat := 0
  place : Nat := 0
  entry : Nat := 0
  partBase : Nat := 0
  partSize : Nat := 0
  save : Bool := false
  gen : Nat := 0
  istrBase : Nat := 0
  istrSize : Nat := 0
  parkBase : Nat := 0
  parkSize : Nat := 0
  slots : List SlotEntry := []
  counters : Vector (BitVec 16) 16 := Vector.replicate 16 0
  scale : Vector W32 8 := Vector.replicate 8 0
  srSeed : W32 := 0
  srTile : W32 := 0
  seq : Nat := 0
  nextSet : Bool := false
  chain : Bool := false
  chainStream : Bool := false
  chainM : Nat := 0
  chainN : Nat := 0
  liveA : Bool := false
  liveB : Bool := false
  /-- the state was saved at a switch and is restored when the context starts again (R57) -/
  savedOut : Bool := false
  /-- the context reached its last boundary or has not started -/
  idle : Bool := true
  killed : Bool := false
  /-- the cause of its kill (R321) -/
  killCause : Nat := 0
  /-- when it was killed, in always-on ticks: the first fault code of a LAUNCH is that of its first kill (R321) -/
  killTime : Nat := 0
  /-- per-thread state of the slots, kept with the switched-out register file (R150) -/
  savedSlots : SMap TGroup := ⟨[]⟩
deriving DecidableEq, Repr

/-- What holds the jig core's issue. -/
inductive JWait where
  | none
  /-- a device load whose line is on its way (R45, R46) -/
  | load (addr size : Nat) (sgn : Bool) (rd sb : Nat)
  /-- a counter wait (R55, R157) -/
  | counter (cnt target : Nat) (align : Bool)
  /-- a clamp wait (R218, R223) -/
  | clamp (dev : Bool) (idx target : Nat) (align : Bool)
  /-- a fence not yet complete: acquire part, system scope, scoreboard entries before `upto` (R283) -/
  | fence (sys acq : Bool) (upto : Nat)
deriving DecidableEq, Repr

/-- One L1 way: the line held, as device physical address / 128 (R44); its bytes lie in the tile store. A poisoned line holds
the cause already reported for it, or 0 (R245, R306). -/
structure L1Way where
  line : Nat
  poison : Option Nat
deriving DecidableEq, Repr

/-- One infeed entry: a held line or a pending prefetch (R50). -/
structure Infeed where
  line : Nat
  held : Bool
  data : Line
  poison : Option Nat
deriving DecidableEq, Repr

/-- A fill that has been requested (R46): what waits for it, the bench's own stores to the line since
the request, whether the request waits for a merge-buffer drain, whether an invalidation has
made its arrival void (R44), and the L1 way chosen for it in the cycle after the miss, as its key. -/
structure Fill where
  line : Nat
  infeed : Bool
  jig : Bool
  plane : Bool
  ctx : Nat
  gen : Nat
  sent : Bool
  void : Bool
  ovData : Line
  ovBe : ByteEn
  /-- scoreboard entries of the prefetches that wait for it -/
  sbs : List Nat := []
  way : Option Nat := none
deriving DecidableEq, Repr

/-- A merge-buffer entry (R48); `pe` tells that its parity is wrong, which its drain finds (R49). -/
structure MergeEntry where
  id : Nat
  line : Nat
  data : Line
  be : ByteEn
  draining : Bool
  /-- scoreboard entries of the stores it holds -/
  sbs : List Nat
  pe : Bool := false
  /-- the die's cycle count at its latest store (R48) -/
  last : Nat := 0
deriving DecidableEq, Repr

/-- A range-scoreboard entry (R51): space, first and last byte after rounding, write, through the L1
(R52's exception), completed and waiting to retire, the context and generation, the thread group. -/
structure SbEntry where
  id : Nat
  dev : Bool
  fabric : Bool
  first : Nat
  last : Nat
  wr : Bool
  l1 : Bool
  done : Bool
  ctx : Nat
  group : Option Nat
  atomic : Bool
  /-- a store whose bytes are all in the merge buffer and the L1, so that later loads find them (R52) -/
  placed : Bool := false
deriving DecidableEq, Repr

/-- A tile-mover queue entry: a descriptor of R54 or, when `slot` is set, a slot transfer (R168). -/
structure TmDesc where
  id : Nat
  ctx : Nat
  gen : Nat
  fsrc : Bool
  fdst : Bool
  src : Nat
  dst : Nat
  rowLen : Nat
  rows : Nat
  srcStride : Int
  dstStride : Int
  cnt : Nat
  sbSrc : Nat
  sbDst : Nat
  active : Bool
  /-- reads still to be answered and writes still to be acknowledged -/
  reads : Nat
  writes : Nat
  slot : Option SlotEntry
  /-- the bytes in the slot buffer once the source has been read (R168) -/
  buf : Option (List Byte)
deriving DecidableEq, Repr

/-- A stationary register (R71): raw element codes by column then K, and one scale byte a column. -/
structure Stationary where
  valid : Bool := false
  ready : Bool := false
  fmt : Nat := 0
  ks : Nat := 0
  ns : Nat := 0
  scb : Nat := 0
  elems : List Nat := []
  scales : List Nat := []
  /-- the load under way: its operand quad and scoreboard entries -/
  load : Option (List W32 × List Nat) := none
deriving DecidableEq, Repr

/-- A mortise instruction in the engine queue: its encoding, the jig values read at issue (R179) and
the scoreboard entries of its panels (R65). -/
structure MOp where
  word : W64
  quadA : List W32
  quadB : List W32
  rs : W32
  sbs : List Nat
deriving DecidableEq, Repr

/-- The special tag of an output element (R93). -/
inductive Special where
  | none | posInf | negInf | nan
deriving DecidableEq, Repr

/-- A rough sum with its special tag: `val` is the signed magnitude of R91, in units of 2^(E − 19). -/
structure Rough where
  val : Int
  tag : Special
deriving DecidableEq, Repr

/-- The tile of a FOLD or STREAM: whether it accumulates into an open chain's set, its output field, VROWS,
VCOLS, whether it is the instruction's last, and whether it stays live (R70, R73, R74). -/
structure TileInfo where
  chained : Bool
  out : Nat
  vrows : Nat
  vcols : Nat
  last : Bool
  cont : Bool
deriving DecidableEq, Repr

/-- Progress of the FOLD or STREAM at the head of the queue. -/
structure MHead where
  seq : Nat
  sigma : W32
  /-- tile in order, output block within the tile, K slice, FP32 pass, steps since the last dressing -/
  tile : Nat
  block : Nat
  slice : Nat
  pass : Nat
  since : Nat
deriving DecidableEq, Repr

/-- A dressing that waits for its set (R69, R74): the elements with the rough sums they are dressed with, σ, the tile, its SEQ, and
whether the tile ends with it. -/
structure MDress where
  elems : List (Nat × List (Rough × Int))
  sigma : W32
  tile : TileInfo
  seq : Nat
  tileDone : Bool
deriving DecidableEq, Repr

/-- A glue-up set: idle, filling or live with a chain, or complete and waiting to drain (R74). -/
inductive SetPhase where
  | idle | filling | chained | drain
deriving DecidableEq, Repr

/-- A glue-up set (R98) with what the drain needs: output field, SEQ, LAST, VROWS and VCOLS. -/
structure GlueSet where
  phase : SetPhase := .idle
  data : GData := 0
  out : Nat := 0
  seq : Nat := 0
  last : Bool := false
  vrows : Nat := 0
  vcols : Nat := 0
deriving DecidableEq, Repr

/-- A tile of the outfeed queue with its tag (R74, R129). -/
structure OutTile where
  data : GData
  tag : W32
deriving DecidableEq, Repr

/-- The mortise engine (R62 to R83). -/
structure Mortise where
  queue : List MOp := []
  head : Option MHead := none
  /-- the dressing that waits, and the set that the present tile's dressings have taken (R74) -/
  due : Option MDress := none
  tileSet : Option Bool := none
  s0 : Stationary := {}
  s1 : Stationary := {}
  rough : SMap Rough := ⟨[]⟩
  /-- alignment exponents by layer and cube row; absent means E_valid = 0 (R92) -/
  rowE : SMap Int := ⟨[]⟩
  setA : GlueSet := {}
  setB : GlueSet := {}
  region : Option Nat := none
  /-- formats and output of the open region (R79) -/
  regionFmt : Nat := 0
  regionSeq : Nat := 0
  /-- the set that the region's present tile holds; none after a GMMA with FIN (R80) -/
  regionSet : Option Bool := none
  air : Nat := 0
  /-- empty cycles since the last real step while a fill or taper of R77 goes on -/
  gap : Option Nat := none
  /-- K_s of the latest SLOAD issued for S0 and S1 since the command boundary (R73) -/
  ks0 : Option Nat := none
  ks1 : Option Nat := none
deriving DecidableEq, Repr

/-- A vector instruction in the plane queue with the jig values it captured (R116, R179). -/
structure POp where
  word : W64
  base : Nat
  stride : W32
  value : W32
  fill : W32
deriving DecidableEq, Repr

/-- An instruction at issue: where from, its word, the jig values it captured, VL, the lanes it may write, ZM, and for a
thread group its slot, program counter and number (R117, R118, R143). -/
structure Issue where
  slot : Option Nat
  word : W64
  pop : POp
  vl : Nat
  mask : Nat
  zm : Bool
  pc : Nat
  num : Nat
deriving DecidableEq, Repr

/-- One element of a plane access: its index (element or thread), its bench address and the bytes it stores. -/
structure MemElem where
  ix : Nat
  addr : Nat
  data : List Byte := []
deriving DecidableEq, Repr

/-- What a plane access that has issued waits for: older accesses (R52), the line of its demand miss (R45), or a free entry of the
merge buffer (R48). -/
inductive PlWait where
  | order | line | buffer
deriving DecidableEq, Repr

/-- An access of the plane engine that has issued and is not complete: its instruction, its elements as they were captured, its
scoreboard entries, what it waits for, how many stores are done and the lines delivered to it (R45, R120). -/
structure PlPend where
  iss : Issue
  elems : List MemElem
  sbs : List Nat
  wait : PlWait := .order
  prog : Nat := 0
  lines : SMap Line := ⟨[]⟩
deriving DecidableEq, Repr

/-- The plane engine (R115, R116). `vregs` lists the vector registers that hold a nonzero value, `pends` the accesses under way,
oldest first. -/
structure Plane where
  vregs : SMap VReg := ⟨[]⟩
  masks : SMap W64 := ⟨[]⟩
  vl : Nat := 64
  queue : List POp := []
  pends : List PlPend := []
  /-- the die's cycle count at which the instruction at the head of the queue came there (R130) -/
  headAt : Nat := 0
  lastSlot : Nat := 7
deriving DecidableEq, Repr

/-- One bench. -/
structure Bench where
  split : Nat := 0
  running : Bool := false
  runCtx : Nat := 0
  ctxs : SMap BenchCtx := ⟨[]⟩
  jregs : Vector W32 32 := Vector.replicate 32 0
  pc : Nat := 0
  wait : JWait := .none
  /-- the die's cycle count at which the present wait on a counter or a clamp began (R55, R223) -/
  waitAt : Nat := 0
  ended : Bool := false
  /-- the scoreboard entry of a jig access that has entered and waits (R52) -/
  jigSb : Option Nat := none
  /-- the context that a switch in progress brings in (R57) -/
  switchTo : Option Nat := none
  l1 : SMap L1Way := ⟨[]⟩
  plru : SMap Nat := ⟨[]⟩
  infeed : List Infeed := []
  fills : List Fill := []
  merge : List MergeEntry := []
  sb : List SbEntry := []
  nextId : Nat := 0
  tm : List TmDesc := []
  mortise : Mortise := {}
  outfeed : List OutTile := []
  plane : Plane := {}
  groups : SMap GInfo := ⟨[]⟩
  slots : SMap TGroup := ⟨[]⟩
  moves : List TGMove := []
  clampOwner : SMap Nat := ⟨[]⟩
  clampVal : SMap W32 := ⟨[]⟩
  /-- shadows of the device clamp IDs, by physical ID (R221) -/
  shadow : SMap W32 := ⟨[]⟩
  tile : Mem := ⟨[]⟩
  istore : Mem := ⟨[]⟩
deriving DecidableEq, Repr

end Sys2Proof.Machine
end

