-- ==== Sys2Proof/Machine/Regs.lean ====
section
/-! DEFINITION. The registers of the LK8: every register of the manual's register tables with its
BAR0 offset in the physical function (R481, R482), its fields, their access codes (R8) and their
reset values (R9). A register block that repeats has one name and a list of strides and counts. -/

namespace Sys2Proof.Machine

/-- The access codes of R8. -/
inductive Access where
  | ro | rw | w1c | w1s | rc | wo | rwl
deriving DecidableEq, Repr

/-- One field of a register table: bits `[hi:lo]`, access code and reset value. -/
structure RegField where
  hi : Nat
  lo : Nat
  acc : Access
  reset : Nat
deriving DecidableEq, Repr

/-- The registers of the manual, one name for each repeated block. -/
inductive RegName where
  | bchId | bchSplit | bchStatus | bchErrStatus | bchErrCount | bchPfDrop | bchWaitWdog
  | bchSbStat | bchMbCfg | mrtStatus | mrtAirCfg | mrtSteps | mrtAircuts | mrtErrStatus
  | mrtNumFlags | mrtGluErr | plnStatus | plnFlags | plnErrStatus | plnIssued | tgrStatus
  | tgrCfg | tgrErrStatus | tgrFault | clpStatus | clpWdog | clpErrStatus | bchPart | bchIstr
  | mrtSrSeed | mrtSrTile | mrtCtxst | tgrPark | clpOwnLo | clpOwnHi | clpCtr | netBudget
  | netLate | netErrStatus | netCeCount | netRsvColl | clpIdcfg | clpIdval | datState | datCtl
  | datModup | datErrStatus | datCount | datCap | datFeatLo | datFeatHi | datDevops
  | datClkStatus | datIodcap | ucSlStatus | ucSlShlines | ucSlErrStatus | ucSlCeCount | ucSlHits
  | ucSlMisses | ucSlNp | ucSlFillwait | ucSlReds | ucBayErrStatus | ucBayCeCount | ucBayHits
  | ucBayMisses | ucBayAtomics | ucShqSel | ucShqCount | ucShBase | ucShSize | ucShCfg | ucRwBase
  | ucRwSize | ucRwCfg | hbmWinBase | hbmWinCfg | hbmWinState | hbmMapStatus | hbmCtStatus
  | hbmCtErrStatus | hbmCtCeCount | hbmCtUeCount | hbmCtPoisonRd | hbmCtEcs | hbmCtEcsThr
  | hbmCtRetrain | cpStatus | cpSlice | cpCollTmo | cpQuiesceTmo | cpDmSwitches | cpOverruns
  | cpErrStatus | cpPstate | cpQbaseLo | cpQbaseHi | cpQcfg | cpQtail | cpQhead | cpQdone
  | cpQcbaseLo | cpQcbaseHi | cpQstate | cpQbudget | hstLinkStatus | hstCtl | hstFlrHold
  | hstErrStatus | hstCeCount | drwDnTail | drwDnHead | drwUpTail | drwUpHead | drwDnPend
  | drwUpPend | drwInstCtl | drwInstStatus | drwErrStatus | drwCfg | drwDnSlot | drwUpSlot
  | drwDnNotice | drwUpNotice | fabCfg | fabMacpfx | fabQtag | fabRto | fabErrStatus | fabCeCount
  | fabTsCfg | fabTsStatus | fabTsOffset | fabDevid | fabPortStatus | fabPortCtl | fabPeerId
  | fabPeerRt | fabXclpCfg | fabXclpKids0 | fabXclpKids1 | fcDevPend | fcDevCfg | fcDieSum
  | fcLogdrop | fcRcvCfg | fcDiePend | fcViewPend | fcViewCfg | fcRcv | fcDevRec0 | fcDieRec0
  | fcViewRec0 | fcDevRec1 | fcDieRec1 | fcViewRec1 | fcDevRec2 | fcDieRec2 | fcViewRec2
  | fcDevRec3 | fcDieRec3 | fcViewRec3 | fcDevRec4 | fcDieRec4 | fcViewRec4 | fcDevRec5
  | fcDieRec5 | fcViewRec5 | fcDevRec6 | fcDieRec6 | fcViewRec6 | fcDevRec7 | fcDieRec7
  | fcViewRec7 | mirSettle | mirCommitTmo | mirRepairTmo | mirErrStatus | mirRepairs | mirSent
  | mirWState | mirWBuddy | mirWBaseLo | mirWBaseHi | mirWSizeLo | mirWSizeHi | mirWBaddrLo
  | mirWBaddrHi | mirWEpochLo | mirWEpochHi | mirWDirty | pwrStatus | pwrInput | pwrCfg
  | pwrErrStatus | pwrDips | pwrSleep | pwrEbucket | pwrIodDom | pwrEvt | pwrDieOp | pwrDieLim
  | pwrDieDom | pwrDieCtl | pwrSens | secOrder | secStep | secSerialLo | secSerialHi | secStatus
  | secLock | secReset | secErrStatus | secFw | secRafBase | secRafLimit
deriving DecidableEq, Repr

/-- Every register name. -/
def RegName.all : List RegName :=
  ([.bchId, .bchSplit, .bchStatus, .bchErrStatus, .bchErrCount, .bchPfDrop, .bchWaitWdog, .bchSbStat, .bchMbCfg, .mrtStatus, .mrtAirCfg, .mrtSteps, .mrtAircuts, .mrtErrStatus, .mrtNumFlags, .mrtGluErr, .plnStatus, .plnFlags, .plnErrStatus, .plnIssued, .tgrStatus, .tgrCfg, .tgrErrStatus, .tgrFault, .clpStatus, .clpWdog, .clpErrStatus, .bchPart, .bchIstr, .mrtSrSeed, .mrtSrTile, .mrtCtxst, .tgrPark, .clpOwnLo, .clpOwnHi, .clpCtr, .netBudget, .netLate, .netErrStatus, .netCeCount] : List RegName) ++
  ([.netRsvColl, .clpIdcfg, .clpIdval, .datState, .datCtl, .datModup, .datErrStatus, .datCount, .datCap, .datFeatLo, .datFeatHi, .datDevops, .datClkStatus, .datIodcap, .ucSlStatus, .ucSlShlines, .ucSlErrStatus, .ucSlCeCount, .ucSlHits, .ucSlMisses, .ucSlNp, .ucSlFillwait, .ucSlReds, .ucBayErrStatus, .ucBayCeCount, .ucBayHits, .ucBayMisses, .ucBayAtomics, .ucShqSel, .ucShqCount, .ucShBase, .ucShSize, .ucShCfg, .ucRwBase, .ucRwSize, .ucRwCfg, .hbmWinBase, .hbmWinCfg, .hbmWinState, .hbmMapStatus] : List RegName) ++
  ([.hbmCtStatus, .hbmCtErrStatus, .hbmCtCeCount, .hbmCtUeCount, .hbmCtPoisonRd, .hbmCtEcs, .hbmCtEcsThr, .hbmCtRetrain, .cpStatus, .cpSlice, .cpCollTmo, .cpQuiesceTmo, .cpDmSwitches, .cpOverruns, .cpErrStatus, .cpPstate, .cpQbaseLo, .cpQbaseHi, .cpQcfg, .cpQtail, .cpQhead, .cpQdone, .cpQcbaseLo, .cpQcbaseHi, .cpQstate, .cpQbudget, .hstLinkStatus, .hstCtl, .hstFlrHold, .hstErrStatus, .hstCeCount, .drwDnTail, .drwDnHead, .drwUpTail, .drwUpHead, .drwDnPend, .drwUpPend, .drwInstCtl, .drwInstStatus, .drwErrStatus] : List RegName) ++
  ([.drwCfg, .drwDnSlot, .drwUpSlot, .drwDnNotice, .drwUpNotice, .fabCfg, .fabMacpfx, .fabQtag, .fabRto, .fabErrStatus, .fabCeCount, .fabTsCfg, .fabTsStatus, .fabTsOffset, .fabDevid, .fabPortStatus, .fabPortCtl, .fabPeerId, .fabPeerRt, .fabXclpCfg, .fabXclpKids0, .fabXclpKids1, .fcDevPend, .fcDevCfg, .fcDieSum, .fcLogdrop, .fcRcvCfg, .fcDiePend, .fcViewPend, .fcViewCfg, .fcRcv, .fcDevRec0, .fcDieRec0, .fcViewRec0, .fcDevRec1, .fcDieRec1, .fcViewRec1, .fcDevRec2, .fcDieRec2, .fcViewRec2] : List RegName) ++
  ([.fcDevRec3, .fcDieRec3, .fcViewRec3, .fcDevRec4, .fcDieRec4, .fcViewRec4, .fcDevRec5, .fcDieRec5, .fcViewRec5, .fcDevRec6, .fcDieRec6, .fcViewRec6, .fcDevRec7, .fcDieRec7, .fcViewRec7, .mirSettle, .mirCommitTmo, .mirRepairTmo, .mirErrStatus, .mirRepairs, .mirSent, .mirWState, .mirWBuddy, .mirWBaseLo, .mirWBaseHi, .mirWSizeLo, .mirWSizeHi, .mirWBaddrLo, .mirWBaddrHi, .mirWEpochLo, .mirWEpochHi, .mirWDirty, .pwrStatus, .pwrInput, .pwrCfg, .pwrErrStatus, .pwrDips, .pwrSleep, .pwrEbucket, .pwrIodDom] : List RegName) ++
  ([.pwrEvt, .pwrDieOp, .pwrDieLim, .pwrDieDom, .pwrDieCtl, .pwrSens, .secOrder, .secStep, .secSerialLo, .secSerialHi, .secStatus, .secLock, .secReset, .secErrStatus, .secFw, .secRafBase, .secRafLimit] : List RegName)

/-- BAR0 offset of the first register of the block (R481, R482). -/
def RegName.base : RegName → Nat
  | .bchId => 0x01000000
  | .bchSplit => 0x01000004
  | .bchStatus => 0x01000008
  | .bchErrStatus => 0x01000040
  | .bchErrCount => 0x01000044
  | .bchPfDrop => 0x01000048
  | .bchWaitWdog => 0x0100004c
  | .bchSbStat => 0x01000050
  | .bchMbCfg => 0x01000054
  | .mrtStatus => 0x01000100
  | .mrtAirCfg => 0x01000104
  | .mrtSteps => 0x01000108
  | .mrtAircuts => 0x0100010c
  | .mrtErrStatus => 0x01000110
  | .mrtNumFlags => 0x01000114
  | .mrtGluErr => 0x01000118
  | .plnStatus => 0x01000200
  | .plnFlags => 0x01000204
  | .plnErrStatus => 0x01000208
  | .plnIssued => 0x0100020c
  | .tgrStatus => 0x01000300
  | .tgrCfg => 0x01000304
  | .tgrErrStatus => 0x01000320
  | .tgrFault => 0x01000324
  | .clpStatus => 0x01000400
  | .clpWdog => 0x01000404
  | .clpErrStatus => 0x01000408
  | .bchPart => 0x01000010
  | .bchIstr => 0x01000020
  | .mrtSrSeed => 0x01000120
  | .mrtSrTile => 0x01000130
  | .mrtCtxst => 0x01000140
  | .tgrPark => 0x01000310
  | .clpOwnLo => 0x01000410
  | .clpOwnHi => 0x01000414
  | .clpCtr => 0x01000500
  | .netBudget => 0x00f00000
  | .netLate => 0x00f00008
  | .netErrStatus => 0x00f0000c
  | .netCeCount => 0x00f00010
  | .netRsvColl => 0x00f00014
  | .clpIdcfg => 0x00f80000
  | .clpIdval => 0x00f80400
  | .datState => 0x00c00000
  | .datCtl => 0x00c00004
  | .datModup => 0x00c00008
  | .datErrStatus => 0x00c0000c
  | .datCount => 0x00c00010
  | .datCap => 0x00c00040
  | .datFeatLo => 0x00c10000
  | .datFeatHi => 0x00c10004
  | .datDevops => 0x00c10008
  | .datClkStatus => 0x00c1000c
  | .datIodcap => 0x00c10040
  | .ucSlStatus => 0x00700000
  | .ucSlShlines => 0x00700004
  | .ucSlErrStatus => 0x00700008
  | .ucSlCeCount => 0x0070000c
  | .ucSlHits => 0x00700010
  | .ucSlMisses => 0x00700014
  | .ucSlNp => 0x00700018
  | .ucSlFillwait => 0x0070001c
  | .ucSlReds => 0x00700020
  | .ucBayErrStatus => 0x00720000
  | .ucBayCeCount => 0x00720004
  | .ucBayHits => 0x00720008
  | .ucBayMisses => 0x0072000c
  | .ucBayAtomics => 0x00720010
  | .ucShqSel => 0x00730000
  | .ucShqCount => 0x00730004
  | .ucShBase => 0x00740000
  | .ucShSize => 0x00740004
  | .ucShCfg => 0x00740008
  | .ucRwBase => 0x00750000
  | .ucRwSize => 0x00750004
  | .ucRwCfg => 0x00750008
  | .hbmWinBase => 0x00800000
  | .hbmWinCfg => 0x00800004
  | .hbmWinState => 0x00800008
  | .hbmMapStatus => 0x00800a00
  | .hbmCtStatus => 0x00810000
  | .hbmCtErrStatus => 0x00810004
  | .hbmCtCeCount => 0x00810008
  | .hbmCtUeCount => 0x0081000c
  | .hbmCtPoisonRd => 0x00810010
  | .hbmCtEcs => 0x00810014
  | .hbmCtEcsThr => 0x00810018
  | .hbmCtRetrain => 0x0081001c
  | .cpStatus => 0x00100000
  | .cpSlice => 0x00100004
  | .cpCollTmo => 0x00100008
  | .cpQuiesceTmo => 0x0010000c
  | .cpDmSwitches => 0x00100010
  | .cpOverruns => 0x00100014
  | .cpErrStatus => 0x00100018
  | .cpPstate => 0x00104000
  | .cpQbaseLo => 0x00108000
  | .cpQbaseHi => 0x00108004
  | .cpQcfg => 0x00108008
  | .cpQtail => 0x0010800c
  | .cpQhead => 0x00108010
  | .cpQdone => 0x00108014
  | .cpQcbaseLo => 0x00108018
  | .cpQcbaseHi => 0x0010801c
  | .cpQstate => 0x00108020
  | .cpQbudget => 0x00108024
  | .hstLinkStatus => 0x00002000
  | .hstCtl => 0x00002004
  | .hstFlrHold => 0x00002008
  | .hstErrStatus => 0x0000200c
  | .hstCeCount => 0x00002010
  | .drwDnTail => 0x00200800
  | .drwDnHead => 0x00200804
  | .drwUpTail => 0x00200808
  | .drwUpHead => 0x0020080c
  | .drwDnPend => 0x00200810
  | .drwUpPend => 0x00200814
  | .drwInstCtl => 0x00200820
  | .drwInstStatus => 0x00200824
  | .drwErrStatus => 0x00200828
  | .drwCfg => 0x00208000
  | .drwDnSlot => 0x00200000
  | .drwUpSlot => 0x00200400
  | .drwDnNotice => 0x00200900
  | .drwUpNotice => 0x00200a00
  | .fabCfg => 0x00500000
  | .fabMacpfx => 0x00500004
  | .fabQtag => 0x00500008
  | .fabRto => 0x0050000c
  | .fabErrStatus => 0x00500010
  | .fabCeCount => 0x00500014
  | .fabTsCfg => 0x00500040
  | .fabTsStatus => 0x00500044
  | .fabTsOffset => 0x00500048
  | .fabDevid => 0x00500020
  | .fabPortStatus => 0x00500100
  | .fabPortCtl => 0x00500104
  | .fabPeerId => 0x00510000
  | .fabPeerRt => 0x00510004
  | .fabXclpCfg => 0x00520000
  | .fabXclpKids0 => 0x00520004
  | .fabXclpKids1 => 0x00520008
  | .fcDevPend => 0x00300000
  | .fcDevCfg => 0x00300004
  | .fcDieSum => 0x00300008
  | .fcLogdrop => 0x0030000c
  | .fcRcvCfg => 0x00300010
  | .fcDiePend => 0x00301000
  | .fcViewPend => 0x00304000
  | .fcViewCfg => 0x00304004
  | .fcRcv => 0x00308000
  | .fcDevRec0 => 0x00300100
  | .fcDieRec0 => 0x00301100
  | .fcViewRec0 => 0x00304100
  | .fcDevRec1 => 0x00300104
  | .fcDieRec1 => 0x00301104
  | .fcViewRec1 => 0x00304104
  | .fcDevRec2 => 0x00300108
  | .fcDieRec2 => 0x00301108
  | .fcViewRec2 => 0x00304108
  | .fcDevRec3 => 0x0030010c
  | .fcDieRec3 => 0x0030110c
  | .fcViewRec3 => 0x0030410c
  | .fcDevRec4 => 0x00300110
  | .fcDieRec4 => 0x00301110
  | .fcViewRec4 => 0x00304110
  | .fcDevRec5 => 0x00300114
  | .fcDieRec5 => 0x00301114
  | .fcViewRec5 => 0x00304114
  | .fcDevRec6 => 0x00300118
  | .fcDieRec6 => 0x00301118
  | .fcViewRec6 => 0x00304118
  | .fcDevRec7 => 0x0030011c
  | .fcDieRec7 => 0x0030111c
  | .fcViewRec7 => 0x0030411c
  | .mirSettle => 0x00600000
  | .mirCommitTmo => 0x00600004
  | .mirRepairTmo => 0x00600008
  | .mirErrStatus => 0x0060000c
  | .mirRepairs => 0x00600010
  | .mirSent => 0x00600014
  | .mirWState => 0x00601000
  | .mirWBuddy => 0x00601004
  | .mirWBaseLo => 0x00601008
  | .mirWBaseHi => 0x0060100c
  | .mirWSizeLo => 0x00601010
  | .mirWSizeHi => 0x00601014
  | .mirWBaddrLo => 0x00601018
  | .mirWBaddrHi => 0x0060101c
  | .mirWEpochLo => 0x00601020
  | .mirWEpochHi => 0x00601024
  | .mirWDirty => 0x00601028
  | .pwrStatus => 0x00400000
  | .pwrInput => 0x00400004
  | .pwrCfg => 0x00400008
  | .pwrErrStatus => 0x0040000c
  | .pwrDips => 0x00400010
  | .pwrSleep => 0x00400014
  | .pwrEbucket => 0x00400018
  | .pwrIodDom => 0x0040001c
  | .pwrEvt => 0x00400020
  | .pwrDieOp => 0x00400100
  | .pwrDieLim => 0x00400104
  | .pwrDieDom => 0x00400108
  | .pwrDieCtl => 0x0040010c
  | .pwrSens => 0x00401000
  | .secOrder => 0x00000000
  | .secStep => 0x00000010
  | .secSerialLo => 0x00000018
  | .secSerialHi => 0x0000001c
  | .secStatus => 0x00000020
  | .secLock => 0x00000024
  | .secReset => 0x00000028
  | .secErrStatus => 0x0000002c
  | .secFw => 0x00000030
  | .secRafBase => 0x00000100
  | .secRafLimit => 0x00000104

/-- Strides and counts of the block, outermost first (R481, R482). -/
def RegName.dims : RegName → List (Nat × Nat)
  | .bchId | .bchSplit | .bchStatus | .bchErrStatus | .bchErrCount | .bchPfDrop | .bchWaitWdog | .bchSbStat | .bchMbCfg | .mrtStatus | .mrtAirCfg | .mrtSteps | .mrtAircuts | .mrtErrStatus | .mrtNumFlags | .mrtGluErr | .plnStatus | .plnFlags | .plnErrStatus | .plnIssued | .tgrStatus | .tgrCfg | .tgrErrStatus | .tgrFault | .clpStatus | .clpWdog | .clpErrStatus =>
    [(0x2000, 4608)]
  | .bchPart | .bchIstr | .mrtSrSeed | .mrtSrTile | .mrtCtxst | .tgrPark =>
    [(0x2000, 4608), (0x4, 4)]
  | .clpOwnLo | .clpOwnHi =>
    [(0x2000, 4608), (0x8, 4)]
  | .clpCtr =>
    [(0x2000, 4608), (0x4, 64)]
  | .netBudget | .netLate | .netErrStatus | .netCeCount | .netRsvColl =>
    [(0x10000, 8)]
  | .clpIdcfg | .clpIdval =>
    [(0x4, 256)]
  | .datState | .datCtl | .datModup | .datErrStatus | .datCount | .drwDnTail | .drwDnHead | .drwUpTail | .drwUpHead | .drwDnPend | .drwUpPend | .drwInstCtl | .drwInstStatus | .drwErrStatus =>
    [(0x1000, 8)]
  | .datCap | .drwUpNotice =>
    [(0x1000, 8), (0x4, 16)]
  | .datFeatLo | .datFeatHi | .datDevops | .datClkStatus | .ucShqSel | .ucShqCount | .hbmMapStatus | .cpStatus | .cpSlice | .cpCollTmo | .cpQuiesceTmo | .cpDmSwitches | .cpOverruns | .cpErrStatus | .hstLinkStatus | .hstCtl | .hstFlrHold | .hstErrStatus | .hstCeCount | .drwCfg | .fabCfg | .fabMacpfx | .fabQtag | .fabRto | .fabErrStatus | .fabCeCount | .fabTsCfg | .fabTsStatus | .fabTsOffset | .fcDevPend | .fcDevCfg | .fcDieSum | .fcLogdrop | .mirSettle | .mirCommitTmo | .mirRepairTmo | .mirErrStatus | .mirRepairs | .mirSent | .pwrStatus | .pwrInput | .pwrCfg | .pwrErrStatus | .pwrDips | .pwrSleep | .pwrEbucket | .pwrIodDom | .pwrEvt | .secStep | .secSerialLo | .secSerialHi | .secStatus | .secLock | .secReset | .secErrStatus | .secFw =>
    []
  | .datIodcap =>
    [(0x4, 16)]
  | .ucSlStatus | .ucSlShlines | .ucSlErrStatus | .ucSlCeCount | .ucSlHits | .ucSlMisses | .ucSlNp | .ucSlFillwait | .ucSlReds =>
    [(0x400, 128)]
  | .ucBayErrStatus | .ucBayCeCount | .ucBayHits | .ucBayMisses | .ucBayAtomics =>
    [(0x100, 64)]
  | .ucShBase | .ucShSize | .ucShCfg =>
    [(0x200, 9), (0x10, 32)]
  | .ucRwBase | .ucRwSize | .ucRwCfg =>
    [(0x80, 8), (0x10, 8)]
  | .hbmWinBase | .hbmWinCfg | .hbmWinState =>
    [(0x10, 144)]
  | .hbmCtStatus | .hbmCtErrStatus | .hbmCtCeCount | .hbmCtUeCount | .hbmCtPoisonRd | .hbmCtEcs | .hbmCtEcsThr | .hbmCtRetrain =>
    [(0x40, 128)]
  | .cpPstate =>
    [(0x40, 8), (0x4, 16)]
  | .cpQbaseLo | .cpQbaseHi | .cpQcfg | .cpQtail | .cpQhead | .cpQdone | .cpQcbaseLo | .cpQcbaseHi | .cpQstate | .cpQbudget =>
    [(0x40, 512)]
  | .drwDnSlot | .drwUpSlot =>
    [(0x1000, 8), (0x40, 16), (0x4, 16)]
  | .drwDnNotice =>
    [(0x1000, 8), (0x40, 3), (0x4, 16)]
  | .fabDevid =>
    [(0x4, 8)]
  | .fabPortStatus | .fabPortCtl =>
    [(0x8, 24)]
  | .fabPeerId | .fabPeerRt =>
    [(0x8, 4096)]
  | .fabXclpCfg | .fabXclpKids0 | .fabXclpKids1 =>
    [(0x10, 256)]
  | .fcRcvCfg =>
    [(0x4, 3)]
  | .fcDiePend | .fcViewPend | .fcViewCfg =>
    [(0x400, 8)]
  | .fcRcv =>
    [(0x4, 832)]
  | .fcDevRec0 | .fcDevRec1 | .fcDevRec2 | .fcDevRec3 | .fcDevRec4 | .fcDevRec5 | .fcDevRec6 | .fcDevRec7 =>
    [(0x20, 10)]
  | .fcDieRec0 | .fcViewRec0 | .fcDieRec1 | .fcViewRec1 | .fcDieRec2 | .fcViewRec2 | .fcDieRec3 | .fcViewRec3 | .fcDieRec4 | .fcViewRec4 | .fcDieRec5 | .fcViewRec5 | .fcDieRec6 | .fcViewRec6 | .fcDieRec7 | .fcViewRec7 =>
    [(0x400, 8), (0x20, 10)]
  | .mirWState | .mirWBuddy | .mirWBaseLo | .mirWBaseHi | .mirWSizeLo | .mirWSizeHi | .mirWBaddrLo | .mirWBaddrHi | .mirWEpochLo | .mirWEpochHi | .mirWDirty =>
    [(0x1000, 9), (0x40, 64)]
  | .pwrDieOp | .pwrDieLim | .pwrDieDom | .pwrDieCtl =>
    [(0x10, 8)]
  | .pwrSens =>
    [(0x4, 576)]
  | .secOrder =>
    [(0x4, 4)]
  | .secRafBase | .secRafLimit =>
    [(0x8, 32)]

/-- The fields of the register, from the register table of the chapter that owns it; bits that no
field covers are reserved (R9). -/
def RegName.fields : RegName → List RegField
  | .bchId => -- BCH_ID: DEVIDX DIE Y X (R61)
    [⟨28, 16, .ro, 0x0⟩, ⟨15, 13, .ro, 0x0⟩, ⟨12, 8, .ro, 0x0⟩, ⟨4, 0, .ro, 0x0⟩]
  | .bchSplit => -- BCH_SPLIT: CODE (R61)
    [⟨1, 0, .ro, 0x0⟩]
  | .bchStatus => -- BCH_STATUS: OUTFEED_LOST RESIDENT RUNNING RUN_CTX (R61)
    [⟨8, 8, .w1c, 0x0⟩, ⟨7, 4, .ro, 0x0⟩, ⟨2, 2, .ro, 0x0⟩, ⟨1, 0, .ro, 0x0⟩]
  | .bchErrStatus => -- BCH_ERR_STATUS: TM_DESC WAIT_TO ADDR_BAD PART_VIOL IS_UE IS_CE MB_PE INF_PE L1_PE LS_UE LS_CE (R61)
    [⟨10, 10, .w1c, 0x0⟩, ⟨9, 9, .w1c, 0x0⟩, ⟨8, 8, .w1c, 0x0⟩, ⟨7, 7, .w1c, 0x0⟩, ⟨6, 6, .w1c, 0x0⟩, ⟨5, 5, .w1c, 0x0⟩, ⟨4, 4, .w1c, 0x0⟩, ⟨3, 3, .w1c, 0x0⟩, ⟨2, 2, .w1c, 0x0⟩, ⟨1, 1, .w1c, 0x0⟩, ⟨0, 0, .w1c, 0x0⟩]
  | .bchErrCount => -- BCH_ERR_COUNT: REFETCH CORR (R61)
    [⟨31, 16, .rc, 0x0⟩, ⟨15, 0, .rc, 0x0⟩]
  | .bchPfDrop => -- BCH_PF_DROP: COUNT (R61)
    [⟨31, 0, .rc, 0x0⟩]
  | .bchWaitWdog => -- BCH_WAIT_WDOG: LIMIT (R61)
    [⟨31, 0, .rw, 0x1000000⟩]
  | .bchSbStat => -- BCH_SB_STAT: HIGH USED (R61)
    [⟨22, 16, .rc, 0x0⟩, ⟨6, 0, .ro, 0x0⟩]
  | .bchMbCfg => -- BCH_MB_CFG: IDLE (R61)
    [⟨7, 0, .rw, 0x20⟩]
  | .mrtStatus => -- MRT_STATUS: AIR_MODE GREGION SET_B_BUSY SET_A_BUSY S1_VALID S0_VALID CHAIN BUSY QDEPTH (R85)
    [⟨11, 10, .ro, 0x0⟩, ⟨9, 9, .ro, 0x0⟩, ⟨8, 8, .ro, 0x0⟩, ⟨7, 7, .ro, 0x0⟩, ⟨6, 6, .ro, 0x0⟩, ⟨5, 5, .ro, 0x0⟩, ⟨4, 4, .ro, 0x0⟩, ⟨3, 3, .ro, 0x0⟩, ⟨2, 0, .ro, 0x0⟩]
  | .mrtAirCfg => -- MRT_AIR_CFG: TAPER FILL (R85)
    [⟨8, 8, .rw, 0x1⟩, ⟨5, 0, .rw, 0x3f⟩]
  | .mrtSteps => -- MRT_STEPS: COUNT (R85)
    [⟨31, 0, .rc, 0x0⟩]
  | .mrtAircuts => -- MRT_AIRCUTS: COUNT (R85)
    [⟨31, 0, .rc, 0x0⟩]
  | .mrtErrStatus => -- MRT_ERR_STATUS: STG_PE STN_PE DIVERGE GREG_BAD STAT_BAD SHAPE_BAD FMT_BAD (R85)
    [⟨6, 6, .w1c, 0x0⟩, ⟨5, 5, .w1c, 0x0⟩, ⟨4, 4, .w1c, 0x0⟩, ⟨3, 3, .w1c, 0x0⟩, ⟨2, 2, .w1c, 0x0⟩, ⟨1, 1, .w1c, 0x0⟩, ⟨0, 0, .w1c, 0x0⟩]
  | .mrtNumFlags => -- MRT_NUM_FLAGS: SAT UNF OVF INF NAN (R113)
    [⟨4, 4, .w1c, 0x0⟩, ⟨3, 3, .w1c, 0x0⟩, ⟨2, 2, .w1c, 0x0⟩, ⟨1, 1, .w1c, 0x0⟩, ⟨0, 0, .w1c, 0x0⟩]
  | .mrtGluErr => -- MRT_GLU_ERR: SET_B_PE SET_A_PE (R113)
    [⟨1, 1, .w1c, 0x0⟩, ⟨0, 0, .w1c, 0x0⟩]
  | .plnStatus => -- PLN_STATUS: VL OFCOUNT OFWAIT BUSY QDEPTH (R133)
    [⟨16, 10, .ro, 0x40⟩, ⟨9, 6, .ro, 0x0⟩, ⟨5, 5, .ro, 0x0⟩, ⟨4, 4, .ro, 0x0⟩, ⟨3, 0, .ro, 0x0⟩]
  | .plnFlags => -- PLN_FLAGS: SAT OVF NAN OVERFLOW RANGE (R133)
    [⟨4, 4, .w1c, 0x0⟩, ⟨3, 3, .w1c, 0x0⟩, ⟨2, 2, .w1c, 0x0⟩, ⟨1, 1, .w1c, 0x0⟩, ⟨0, 0, .w1c, 0x0⟩]
  | .plnErrStatus => -- PLN_ERR_STATUS: OF_PE RF_PE CX_BASE OF_TO VL_ZERO (R133)
    [⟨4, 4, .w1c, 0x0⟩, ⟨3, 3, .w1c, 0x0⟩, ⟨2, 2, .w1c, 0x0⟩, ⟨1, 1, .w1c, 0x0⟩, ⟨0, 0, .w1c, 0x0⟩]
  | .plnIssued => -- PLN_ISSUED: COUNT (R133)
    [⟨31, 0, .rc, 0x0⟩]
  | .tgrStatus => -- TGR_STATUS: LIVE MOVING SLOTS (R153)
    [⟨22, 16, .ro, 0x0⟩, ⟨15, 8, .ro, 0x0⟩, ⟨7, 0, .ro, 0x0⟩]
  | .tgrCfg => -- TGR_CFG: AGE (R153)
    [⟨7, 0, .rw, 0x40⟩]
  | .tgrErrStatus => -- TGR_ERR_STATUS: BAR_TO TM_ILL MOVE_BAD LAUNCH_BAD (R153)
    [⟨3, 3, .w1c, 0x0⟩, ⟨2, 2, .w1c, 0x0⟩, ⟨1, 1, .w1c, 0x0⟩, ⟨0, 0, .w1c, 0x0⟩]
  | .tgrFault => -- TGR_FAULT: VALID CTX PC8 THREAD GROUP (R153)
    [⟨31, 31, .w1c, 0x0⟩, ⟨30, 29, .ro, 0x0⟩, ⟨28, 16, .ro, 0x0⟩, ⟨13, 8, .ro, 0x0⟩, ⟨5, 0, .ro, 0x0⟩]
  | .clpStatus => -- CLP_STATUS: JWAIT DEV IDX (R227)
    [⟨9, 9, .ro, 0x0⟩, ⟨8, 8, .ro, 0x0⟩, ⟨7, 0, .ro, 0x0⟩]
  | .clpWdog => -- CLP_WDOG: LIMIT (R227)
    [⟨31, 0, .rw, 0x400000⟩]
  | .clpErrStatus => -- CLP_ERR_STATUS: ID_FAIL ID_BAD OWNED WAIT_TO (R227)
    [⟨3, 3, .w1c, 0x0⟩, ⟨2, 2, .w1c, 0x0⟩, ⟨1, 1, .w1c, 0x0⟩, ⟨0, 0, .w1c, 0x0⟩]
  | .bchPart => -- BCH_PARTn: VALID SAVE GEN SIZE BASE (R61)
    [⟨31, 31, .ro, 0x0⟩, ⟨30, 30, .ro, 0x0⟩, ⟨15, 12, .ro, 0x0⟩, ⟨8, 4, .ro, 0x0⟩, ⟨3, 0, .ro, 0x0⟩]
  | .bchIstr => -- BCH_ISTRn: VALID SIZE BASE (R61)
    [⟨31, 31, .ro, 0x0⟩, ⟨14, 8, .ro, 0x0⟩, ⟨5, 0, .ro, 0x0⟩]
  | .mrtSrSeed => -- MRT_SR_SEEDn: SEED (R113)
    [⟨31, 0, .ro, 0x0⟩]
  | .mrtSrTile => -- MRT_SR_TILEn: COUNT (R113)
    [⟨31, 0, .ro, 0x0⟩]
  | .mrtCtxst => -- MRT_CTXSTn: NM1 MM1 NEXT KIND CHAIN LIVE_B LIVE_A (R113)
    [⟨16, 12, .ro, 0x0⟩, ⟨11, 7, .ro, 0x0⟩, ⟨4, 4, .ro, 0x0⟩, ⟨3, 3, .ro, 0x0⟩, ⟨2, 2, .ro, 0x0⟩, ⟨1, 1, .ro, 0x0⟩, ⟨0, 0, .ro, 0x0⟩]
  | .tgrPark => -- TGR_PARKn: VALID SIZE BASE (R153)
    [⟨31, 31, .ro, 0x0⟩, ⟨25, 16, .ro, 0x0⟩, ⟨9, 0, .ro, 0x0⟩]
  | .clpOwnLo => -- CLP_OWNn_LO: MASK (R227)
    [⟨31, 0, .ro, 0x0⟩]
  | .clpOwnHi => -- CLP_OWNn_HI: MASK (R227)
    [⟨31, 0, .ro, 0x0⟩]
  | .clpCtr => -- CLP_CTRi: VALUE (R227)
    [⟨31, 0, .ro, 0x0⟩]
  | .netBudget => -- NET_BUDGET: GW SLICE BAY BENCH (R228)
    [⟨31, 24, .rw, 0x10⟩, ⟨23, 16, .rw, 0x18⟩, ⟨15, 8, .rw, 0x18⟩, ⟨7, 0, .rw, 0xa⟩]
  | .netLate => -- NET_LATE: COUNT (R228)
    [⟨31, 0, .rc, 0x0⟩]
  | .netErrStatus => -- NET_ERR_STATUS: CLP_UE CLP_CE CTL_BRK CTL_RTY BLK_UE BLK_CE (R228)
    [⟨5, 5, .w1c, 0x0⟩, ⟨4, 4, .w1c, 0x0⟩, ⟨3, 3, .w1c, 0x0⟩, ⟨2, 2, .w1c, 0x0⟩, ⟨1, 1, .w1c, 0x0⟩, ⟨0, 0, .w1c, 0x0⟩]
  | .netCeCount => -- NET_CE_COUNT: CTL CORR (R228)
    [⟨31, 16, .rc, 0x0⟩, ⟨15, 0, .rc, 0x0⟩]
  | .netRsvColl => -- NET_RSV_COLL: COUNT (R228)
    [⟨31, 0, .rc, 0x0⟩]
  | .clpIdcfg => -- CLP_IDCFGi: VALID FAILED SCOPE ROOT INST (R229)
    [⟨31, 31, .ro, 0x0⟩, ⟨30, 30, .ro, 0x0⟩, ⟨29, 29, .ro, 0x0⟩, ⟨26, 24, .ro, 0x0⟩, ⟨18, 16, .ro, 0x0⟩]
  | .clpIdval => -- CLP_IDVALi: VALUE (R229)
    [⟨31, 0, .ro, 0x0⟩]
  | .datState => -- DAT_STATE: REFUSED HBM_LOST RESEATS ORDERLY_LAST STATE (R250)
    [⟨19, 19, .w1c, 0x0⟩, ⟨18, 18, .w1c, 0x0⟩, ⟨15, 8, .ro, 0x0⟩, ⟨3, 3, .ro, 0x0⟩, ⟨2, 0, .ro, 0x0⟩]
  | .datCtl => -- DAT_CTL: ORDERLY RESEAT FENCE (R250)
    [⟨2, 2, .rw, 0x1⟩, ⟨1, 1, .w1s, 0x0⟩, ⟨0, 0, .w1s, 0x0⟩]
  | .datModup => -- DAT_MODUP: W E S (R250)
    [⟨23, 18, .ro, 0x0⟩, ⟨17, 12, .ro, 0x0⟩, ⟨11, 0, .ro, 0x0⟩]
  | .datErrStatus => -- DAT_ERR_STATUS: OWN_LOST RING_DOWN RESEAT_FAIL HOME_LOST IOD_LOST CLK_LOSS CAP_BAD TRAIN_FAIL MOD_DOWN REPLAY CORR (R250)
    [⟨10, 10, .w1c, 0x0⟩, ⟨9, 9, .w1c, 0x0⟩, ⟨8, 8, .w1c, 0x0⟩, ⟨7, 7, .w1c, 0x0⟩, ⟨6, 6, .w1c, 0x0⟩, ⟨5, 5, .w1c, 0x0⟩, ⟨4, 4, .w1c, 0x0⟩, ⟨3, 3, .w1c, 0x0⟩, ⟨2, 2, .w1c, 0x0⟩, ⟨1, 1, .w1c, 0x0⟩, ⟨0, 0, .w1c, 0x0⟩]
  | .datCount => -- DAT_COUNT: REPLAY CORR (R250)
    [⟨31, 16, .rc, 0x0⟩, ⟨15, 0, .rc, 0x0⟩]
  | .datCap => -- DAT_CAPn: WORD (R250)
    [⟨31, 0, .ro, 0x0⟩]
  | .datFeatLo => -- DAT_FEAT_LO: FEATURES (R250)
    [⟨31, 0, .ro, 0x0⟩]
  | .datFeatHi => -- DAT_FEAT_HI: FEATURES (R250)
    [⟨31, 0, .ro, 0x0⟩]
  | .datDevops => -- DAT_DEVOPS: OPS (R250)
    [⟨4, 0, .ro, 0x0⟩]
  | .datClkStatus => -- DAT_CLK_STATUS: REF_LOST SPINE_LOCK XTAL_OK (R250)
    [⟨15, 8, .w1c, 0x0⟩, ⟨1, 1, .ro, 0x0⟩, ⟨0, 0, .ro, 0x0⟩]
  | .datIodcap => -- DAT_IODCAPn: WORD (R250)
    [⟨31, 0, .ro, 0x0⟩]
  | .ucSlStatus => -- UC_SL_STATUS: PTBL (R278)
    [⟨7, 0, .ro, 0x0⟩]
  | .ucSlShlines => -- UC_SL_SHLINES: LINES (R278)
    [⟨15, 0, .ro, 0x0⟩]
  | .ucSlErrStatus => -- UC_SL_ERR_STATUS: POISON_OP TAG_LOST TAG_FIX DATA_UE_D DATA_UE_C DATA_CE (R278)
    [⟨5, 5, .w1c, 0x0⟩, ⟨4, 4, .w1c, 0x0⟩, ⟨3, 3, .w1c, 0x0⟩, ⟨2, 2, .w1c, 0x0⟩, ⟨1, 1, .w1c, 0x0⟩, ⟨0, 0, .w1c, 0x0⟩]
  | .ucSlCeCount => -- UC_SL_CE_COUNT: TAG DATA (R278)
    [⟨31, 16, .rc, 0x0⟩, ⟨15, 0, .rc, 0x0⟩]
  | .ucSlHits => -- UC_SL_HITS: COUNT (R278)
    [⟨31, 0, .rc, 0x0⟩]
  | .ucSlMisses => -- UC_SL_MISSES: COUNT (R278)
    [⟨31, 0, .rc, 0x0⟩]
  | .ucSlNp => -- UC_SL_NP: COUNT (R278)
    [⟨31, 0, .rc, 0x0⟩]
  | .ucSlFillwait => -- UC_SL_FILLWAIT: COUNT (R278)
    [⟨31, 0, .rc, 0x0⟩]
  | .ucSlReds => -- UC_SL_REDS: COUNT (R278)
    [⟨31, 0, .rc, 0x0⟩]
  | .ucBayErrStatus => -- UC_BAY_ERR_STATUS: TAG_LOST TAG_FIX DATA_UE_D DATA_UE_C DATA_CE (R278)
    [⟨4, 4, .w1c, 0x0⟩, ⟨3, 3, .w1c, 0x0⟩, ⟨2, 2, .w1c, 0x0⟩, ⟨1, 1, .w1c, 0x0⟩, ⟨0, 0, .w1c, 0x0⟩]
  | .ucBayCeCount => -- UC_BAY_CE_COUNT: TAG DATA (R278)
    [⟨31, 16, .rc, 0x0⟩, ⟨15, 0, .rc, 0x0⟩]
  | .ucBayHits => -- UC_BAY_HITS: COUNT (R278)
    [⟨31, 0, .rc, 0x0⟩]
  | .ucBayMisses => -- UC_BAY_MISSES: COUNT (R278)
    [⟨31, 0, .rc, 0x0⟩]
  | .ucBayAtomics => -- UC_BAY_ATOMICS: COUNT (R278)
    [⟨31, 0, .rc, 0x0⟩]
  | .ucShqSel => -- UC_SHQ_SEL: OWNER SHELF DIE SLICE (R278)
    [⟨28, 25, .rw, 0x0⟩, ⟨24, 20, .rw, 0x0⟩, ⟨10, 8, .rw, 0x0⟩, ⟨3, 0, .rw, 0x0⟩]
  | .ucShqCount => -- UC_SHQ_COUNT: LINES (R278)
    [⟨15, 0, .ro, 0x0⟩]
  | .ucShBase => -- UC_SH_BASE: BASE (R278)
    [⟨27, 0, .ro, 0x0⟩]
  | .ucShSize => -- UC_SH_SIZE: SIZE (R278)
    [⟨27, 0, .ro, 0x0⟩]
  | .ucShCfg => -- UC_SH_CFG: VALID CLASS QUOTA (R278)
    [⟨31, 31, .ro, 0x0⟩, ⟨9, 8, .ro, 0x0⟩, ⟨6, 0, .ro, 0x0⟩]
  | .ucRwBase => -- UC_RW_BASE: BASE (R278)
    [⟨27, 0, .ro, 0x0⟩]
  | .ucRwSize => -- UC_RW_SIZE: SIZE (R278)
    [⟨27, 0, .ro, 0x0⟩]
  | .ucRwCfg => -- UC_RW_CFG: VALID TYPE OP (R278)
    [⟨31, 31, .ro, 0x0⟩, ⟨5, 4, .ro, 0x0⟩, ⟨1, 0, .ro, 0x0⟩]
  | .hbmWinBase => -- HBM_WIN_BASEe: VALID SIZEM1 BASE (R309)
    [⟨31, 31, .rw, 0x0⟩, ⟨25, 16, .rw, 0x0⟩, ⟨9, 0, .rw, 0x0⟩]
  | .hbmWinCfg => -- HBM_WIN_CFGe: DOFF DIE MGMT CLASS MODE (R309)
    [⟨22, 16, .rw, 0x0⟩, ⟨10, 8, .rw, 0x0⟩, ⟨4, 4, .rw, 0x0⟩, ⟨2, 2, .rw, 0x0⟩, ⟨1, 0, .rw, 0x0⟩]
  | .hbmWinState => -- HBM_WIN_STATEe: BUSY ACTIVE (R309)
    [⟨1, 1, .ro, 0x0⟩, ⟨0, 0, .ro, 0x0⟩]
  | .hbmMapStatus => -- HBM_MAP_STATUS: REFUSED ENTRY REASON (R309)
    [⟨31, 31, .w1c, 0x0⟩, ⟨15, 8, .ro, 0x0⟩, ⟨3, 0, .ro, 0x0⟩]
  | .hbmCtStatus => -- HBM_CT_STATUS: CHFAIL RETRAINING SELFREF TRAINED (R309)
    [⟨11, 8, .ro, 0x0⟩, ⟨2, 2, .ro, 0x0⟩, ⟨1, 1, .ro, 0x0⟩, ⟨0, 0, .ro, 0x0⟩]
  | .hbmCtErrStatus => -- HBM_CT_ERR_STATUS: ECS_THR CHK_REBUILD CH_FAIL DET_UE COR_UE SYM_CE SB_CE (R309)
    [⟨6, 6, .w1c, 0x0⟩, ⟨5, 5, .w1c, 0x0⟩, ⟨4, 4, .w1c, 0x0⟩, ⟨3, 3, .w1c, 0x0⟩, ⟨2, 2, .w1c, 0x0⟩, ⟨1, 1, .w1c, 0x0⟩, ⟨0, 0, .w1c, 0x0⟩]
  | .hbmCtCeCount => -- HBM_CT_CE_COUNT: SYMBOL SIDEBAND (R309)
    [⟨31, 16, .rc, 0x0⟩, ⟨15, 0, .rc, 0x0⟩]
  | .hbmCtUeCount => -- HBM_CT_UE_COUNT: DETECTING CORRECTING (R309)
    [⟨31, 16, .rc, 0x0⟩, ⟨15, 0, .rc, 0x0⟩]
  | .hbmCtPoisonRd => -- HBM_CT_POISON_RD: COUNT (R309)
    [⟨31, 0, .rc, 0x0⟩]
  | .hbmCtEcs => -- HBM_CT_ECS: COUNT (R309)
    [⟨15, 0, .rc, 0x0⟩]
  | .hbmCtEcsThr => -- HBM_CT_ECS_THR: LIMIT (R309)
    [⟨15, 0, .rw, 0x100⟩]
  | .hbmCtRetrain => -- HBM_CT_RETRAIN: PARITY TOTAL (R309)
    [⟨31, 16, .rc, 0x0⟩, ⟨15, 0, .rc, 0x0⟩]
  | .cpStatus => -- CP_STATUS: QUIESCED CORES (R338)
    [⟨11, 4, .ro, 0x0⟩, ⟨3, 0, .ro, 0x0⟩]
  | .cpSlice => -- CP_SLICE: TICKS (R338)
    [⟨31, 0, .rw, 0x186a0⟩]
  | .cpCollTmo => -- CP_COLL_TMO: TICKS (R338)
    [⟨31, 0, .rw, 0x989680⟩]
  | .cpQuiesceTmo => -- CP_QUIESCE_TMO: TICKS (R338)
    [⟨31, 0, .rw, 0x3100000⟩]
  | .cpDmSwitches => -- CP_DM_SWITCHES: COUNT (R338)
    [⟨31, 0, .rc, 0x0⟩]
  | .cpOverruns => -- CP_OVERRUNS: COUNT (R338)
    [⟨31, 0, .rc, 0x0⟩]
  | .cpErrStatus => -- CP_ERR_STATUS: CORE_WDOG DEADLINE LATE OVERRUN FETCH DOORBELL (R338)
    [⟨5, 5, .w1c, 0x0⟩, ⟨4, 4, .w1c, 0x0⟩, ⟨3, 3, .w1c, 0x0⟩, ⟨2, 2, .w1c, 0x0⟩, ⟨1, 1, .w1c, 0x0⟩, ⟨0, 0, .w1c, 0x0⟩]
  | .cpPstate => -- CP_PSTATE: VALID BUSY CONTEXTS (R338)
    [⟨31, 31, .ro, 0x0⟩, ⟨30, 30, .ro, 0x0⟩, ⟨14, 0, .ro, 0x0⟩]
  | .cpQbaseLo => -- CP_QBASE_LO: ADDR (R338)
    [⟨31, 0, .rw, 0x0⟩]
  | .cpQbaseHi => -- CP_QBASE_HI: ADDR (R338)
    [⟨31, 0, .rw, 0x0⟩]
  | .cpQcfg => -- CP_QCFG: EN MGR LOC CLOC LOG2DEPTH VEC (R338)
    [⟨31, 31, .rw, 0x0⟩, ⟨30, 30, .rw, 0x0⟩, ⟨29, 29, .rw, 0x0⟩, ⟨28, 28, .rw, 0x0⟩, ⟨20, 16, .rw, 0x6⟩, ⟨10, 0, .rw, 0x0⟩]
  | .cpQtail => -- CP_QTAIL: SEQ (R338)
    [⟨22, 0, .rw, 0x0⟩]
  | .cpQhead => -- CP_QHEAD: SEQ (R338)
    [⟨22, 0, .ro, 0x0⟩]
  | .cpQdone => -- CP_QDONE: SEQ (R338)
    [⟨22, 0, .ro, 0x0⟩]
  | .cpQcbaseLo => -- CP_QCBASE_LO: ADDR (R338)
    [⟨31, 0, .rw, 0x0⟩]
  | .cpQcbaseHi => -- CP_QCBASE_HI: ADDR (R338)
    [⟨31, 0, .rw, 0x0⟩]
  | .cpQstate => -- CP_QSTATE: CFG_BAD FETCH_ERR STOPPED CONTEND IDLE (R338)
    [⟨4, 4, .w1c, 0x0⟩, ⟨3, 3, .ro, 0x0⟩, ⟨2, 2, .ro, 0x0⟩, ⟨1, 1, .ro, 0x0⟩, ⟨0, 0, .ro, 0x1⟩]
  | .cpQbudget => -- CP_QBUDGET: B (R338)
    [⟨31, 0, .ro, 0x186a0⟩]
  | .hstLinkStatus => -- HST_LINK_STATUS: WIDTH SPEED FLIT UP (R352)
    [⟨20, 16, .ro, 0x0⟩, ⟨10, 8, .ro, 0x0⟩, ⟨4, 4, .ro, 0x0⟩, ⟨0, 0, .ro, 0x0⟩]
  | .hstCtl => -- HST_CTL: COPY_RO (R352)
    [⟨0, 0, .rw, 0x0⟩]
  | .hstFlrHold => -- HST_FLR_HOLD: TICKS (R352)
    [⟨31, 0, .rw, 0x2625a0⟩]
  | .hstErrStatus => -- HST_ERR_STATUS: UNSUP POISON_OUT BAR0_SIZE RO_WRITE LINK_DOWN POISON_IN READ_FAIL CORR (R352)
    [⟨7, 7, .w1c, 0x0⟩, ⟨6, 6, .w1c, 0x0⟩, ⟨5, 5, .w1c, 0x0⟩, ⟨4, 4, .w1c, 0x0⟩, ⟨3, 3, .w1c, 0x0⟩, ⟨2, 2, .w1c, 0x0⟩, ⟨1, 1, .w1c, 0x0⟩, ⟨0, 0, .w1c, 0x0⟩]
  | .hstCeCount => -- HST_CE_COUNT: FEC REPLAY (R352)
    [⟨31, 16, .rc, 0x0⟩, ⟨15, 0, .rc, 0x0⟩]
  | .drwDnTail => -- DRW_DN_TAIL: INDEX (R366)
    [⟨4, 0, .rw, 0x0⟩]
  | .drwDnHead => -- DRW_DN_HEAD: INDEX (R366)
    [⟨4, 0, .rw, 0x0⟩]
  | .drwUpTail => -- DRW_UP_TAIL: INDEX (R366)
    [⟨4, 0, .rw, 0x0⟩]
  | .drwUpHead => -- DRW_UP_HEAD: INDEX (R366)
    [⟨4, 0, .rw, 0x0⟩]
  | .drwDnPend => -- DRW_DN_PEND: PEND (R366)
    [⟨2, 0, .w1c, 0x0⟩]
  | .drwUpPend => -- DRW_UP_PEND: PEND (R366)
    [⟨2, 0, .w1c, 0x0⟩]
  | .drwInstCtl => -- DRW_INST_CTL: FORCE RESET (R366)
    [⟨1, 1, .wo, 0x0⟩, ⟨0, 0, .w1s, 0x0⟩]
  | .drwInstStatus => -- DRW_INST_STATUS: RESETS DIE_LO DIES VF_EN REFUSED BUSY (R366)
    [⟨31, 16, .ro, 0x0⟩, ⟨9, 7, .ro, 0x0⟩, ⟨6, 4, .ro, 0x0⟩, ⟨2, 2, .ro, 0x0⟩, ⟨1, 1, .w1c, 0x0⟩, ⟨0, 0, .ro, 0x0⟩]
  | .drwErrStatus => -- DRW_ERR_STATUS: RST_REFUSED SLOT_OWNED INDEX_BAD (R366)
    [⟨2, 2, .w1c, 0x0⟩, ⟨1, 1, .w1c, 0x0⟩, ⟨0, 0, .w1c, 0x0⟩]
  | .drwCfg => -- DRW_CFG: LOCKED LOG2N (R366)
    [⟨31, 31, .ro, 0x0⟩, ⟨1, 0, .rwl, 0x0⟩]
  | .drwDnSlot => -- DRW_DN_SLOTi: WORD (R358)
    [⟨31, 0, .rw, 0x0⟩]
  | .drwUpSlot => -- DRW_UP_SLOTi: WORD (R358)
    [⟨31, 0, .rw, 0x0⟩]
  | .drwDnNotice => -- DRW_DN_NOTICEt: WORD (R360)
    [⟨31, 0, .ro, 0x0⟩]
  | .drwUpNotice => -- DRW_UP_NOTICE0: WORD (R360)
    [⟨31, 0, .ro, 0x0⟩]
  | .fabCfg => -- FAB_CFG: ETYPE REFCLK_OK GROUP (R391)
    [⟨31, 16, .rw, 0x88b5⟩, ⟨15, 15, .ro, 0x0⟩, ⟨1, 0, .rwl, 0x0⟩]
  | .fabMacpfx => -- FAB_MACPFX: PFX (R391)
    [⟨27, 0, .rw, 0x200000⟩]
  | .fabQtag => -- FAB_QTAG: EN VID PCP_SYNC PCP_CTL PCP_MIR PCP_BULK (R391)
    [⟨31, 31, .rw, 0x0⟩, ⟨27, 16, .rw, 0x0⟩, ⟨14, 12, .rw, 0x6⟩, ⟨10, 8, .rw, 0x5⟩, ⟨6, 4, .rw, 0x2⟩, ⟨2, 0, .rw, 0x1⟩]
  | .fabRto => -- FAB_RTO: RETRY TICKS (R391)
    [⟨31, 24, .rw, 0x8⟩, ⟨23, 0, .rw, 0x3e8⟩]
  | .fabErrStatus => -- FAB_ERR_STATUS: XCLP_EARLY TS_LOST NO_PEER REFUSED_RX DROPPED REFUSED_TX UNREACH REPLAY FEC_UE NO_REFCLK NOFORM TRAIN_FAIL PORT_DOWN (R391)
    [⟨12, 12, .w1c, 0x0⟩, ⟨11, 11, .w1c, 0x0⟩, ⟨10, 10, .w1c, 0x0⟩, ⟨9, 9, .w1c, 0x0⟩, ⟨8, 8, .w1c, 0x0⟩, ⟨7, 7, .w1c, 0x0⟩, ⟨6, 6, .w1c, 0x0⟩, ⟨5, 5, .w1c, 0x0⟩, ⟨4, 4, .w1c, 0x0⟩, ⟨3, 3, .w1c, 0x0⟩, ⟨2, 2, .w1c, 0x0⟩, ⟨1, 1, .w1c, 0x0⟩, ⟨0, 0, .w1c, 0x0⟩]
  | .fabCeCount => -- FAB_CE_COUNT: FEC_UE REPLAY (R391)
    [⟨31, 16, .rc, 0x0⟩, ⟨15, 0, .rc, 0x0⟩]
  | .fabTsCfg => -- FAB_TS_CFG: GM EN V1 PARENT1 V0 PARENT0 (R391)
    [⟨31, 31, .rw, 0x0⟩, ⟨30, 30, .rw, 0x0⟩, ⟨13, 13, .rw, 0x0⟩, ⟨12, 8, .rw, 0x0⟩, ⟨5, 5, .rw, 0x0⟩, ⟨4, 0, .rw, 0x0⟩]
  | .fabTsStatus => -- FAB_TS_STATUS: DEPTH USING1 LOCK (R391)
    [⟨15, 8, .ro, 0x0⟩, ⟨1, 1, .ro, 0x0⟩, ⟨0, 0, .ro, 0x0⟩]
  | .fabTsOffset => -- FAB_TS_OFFSET: NS (R391)
    [⟨31, 0, .ro, 0x0⟩]
  | .fabDevid => -- FAB_DEVIDk: VALID ID (R391)
    [⟨31, 31, .rw, 0x0⟩, ⟨19, 0, .rw, 0x0⟩]
  | .fabPortStatus => -- FAB_PORTp_STATUS: PEER_PORT ACTIVE_CBL DIRECT STATE (R391)
    [⟨12, 8, .ro, 0x0⟩, ⟨5, 5, .ro, 0x0⟩, ⟨4, 4, .ro, 0x0⟩, ⟨2, 0, .ro, 0x0⟩]
  | .fabPortCtl => -- FAB_PORTp_CTL: LLR_EN DOWN DISABLE (R391)
    [⟨2, 2, .rw, 0x1⟩, ⟨1, 1, .w1s, 0x0⟩, ⟨0, 0, .rw, 0x0⟩]
  | .fabPeerId => -- FAB_PEERi_ID: VALID SYSTEM STATE ACTIVE ID (R391)
    [⟨31, 31, .rw, 0x0⟩, ⟨30, 30, .rw, 0x0⟩, ⟨29, 28, .ro, 0x0⟩, ⟨21, 20, .ro, 0x0⟩, ⟨19, 0, .rw, 0x0⟩]
  | .fabPeerRt => -- FAB_PEERi_RT: V3 P3 V2 P2 V1 P1 V0 P0 (R391)
    [⟨31, 31, .rw, 0x0⟩, ⟨28, 24, .rw, 0x0⟩, ⟨23, 23, .rw, 0x0⟩, ⟨20, 16, .rw, 0x0⟩, ⟨15, 15, .rw, 0x0⟩, ⟨12, 8, .rw, 0x0⟩, ⟨7, 7, .rw, 0x0⟩, ⟨4, 0, .rw, 0x0⟩]
  | .fabXclpCfg => -- FAB_XCLPi_CFG: VALID ROOT PARENT (R391)
    [⟨31, 31, .rw, 0x0⟩, ⟨30, 30, .rw, 0x0⟩, ⟨11, 0, .rw, 0x0⟩]
  | .fabXclpKids0 => -- FAB_XCLPi_KIDS0: VB CHILDB VA CHILDA (R391)
    [⟨31, 31, .rw, 0x0⟩, ⟨27, 16, .rw, 0x0⟩, ⟨15, 15, .rw, 0x0⟩, ⟨11, 0, .rw, 0x0⟩]
  | .fabXclpKids1 => -- FAB_XCLPi_KIDS1: VB CHILDB VA CHILDA (R391)
    [⟨31, 31, .rw, 0x0⟩, ⟨27, 16, .rw, 0x0⟩, ⟨15, 15, .rw, 0x0⟩, ⟨11, 0, .rw, 0x0⟩]
  | .fcDevPend => -- FC_DEV_PEND: CLASS (R408)
    [⟨10, 1, .ro, 0x0⟩]
  | .fcDevCfg => -- FC_DEV_CFG: IRQ_SEV (R408)
    [⟨1, 0, .rw, 0x1⟩]
  | .fcDieSum => -- FC_DIE_SUM: LINEFLT PEND (R408)
    [⟨15, 8, .w1c, 0x0⟩, ⟨7, 0, .ro, 0x0⟩]
  | .fcLogdrop => -- FC_LOGDROP: COUNT (R408)
    [⟨31, 0, .rc, 0x0⟩]
  | .fcRcvCfg => -- FC_RCV_CFGk: LIMIT WINDOW QUIET (R408)
    [⟨31, 28, .rw, 0x8⟩, ⟨27, 16, .rw, 0x3c⟩, ⟨9, 0, .rw, 0x64⟩]
  | .fcDiePend => -- FC_DIE_PEND: CLASS (R408)
    [⟨10, 1, .ro, 0x0⟩]
  | .fcViewPend => -- FC_VIEW_PEND: CLASS (R408)
    [⟨10, 1, .ro, 0x0⟩]
  | .fcViewCfg => -- FC_VIEW_CFG: IRQ_SEV (R408)
    [⟨1, 0, .rw, 0x1⟩]
  | .fcRcv => -- FC_RCVi: LATCHED RECENT COUNT (R408)
    [⟨31, 31, .ro, 0x0⟩, ⟨27, 24, .ro, 0x0⟩, ⟨15, 0, .ro, 0x0⟩]
  | .fcDevRec0 => -- FC_DEV_RECc_W0: MASTER CODE (R408)
    [⟨31, 16, .ro, 0x0⟩, ⟨15, 0, .ro, 0x0⟩]
  | .fcDieRec0 => -- FC_DIE_RECc_W0: MASTER CODE (R408)
    [⟨31, 16, .ro, 0x0⟩, ⟨15, 0, .ro, 0x0⟩]
  | .fcViewRec0 => -- FC_VIEW_RECc_W0: MASTER CODE (R408)
    [⟨31, 16, .ro, 0x0⟩, ⟨15, 0, .ro, 0x0⟩]
  | .fcDevRec1 => -- FC_DEV_RECc_W1: VALID ESC INST SEV ACCESS (R408)
    [⟨31, 31, .w1c, 0x0⟩, ⟨24, 24, .ro, 0x0⟩, ⟨23, 16, .ro, 0x0⟩, ⟨9, 8, .ro, 0x0⟩, ⟨7, 0, .ro, 0x0⟩]
  | .fcDieRec1 => -- FC_DIE_RECc_W1: VALID ESC INST SEV ACCESS (R408)
    [⟨31, 31, .w1c, 0x0⟩, ⟨24, 24, .ro, 0x0⟩, ⟨23, 16, .ro, 0x0⟩, ⟨9, 8, .ro, 0x0⟩, ⟨7, 0, .ro, 0x0⟩]
  | .fcViewRec1 => -- FC_VIEW_RECc_W1: VALID ESC INST SEV ACCESS (R408)
    [⟨31, 31, .w1c, 0x0⟩, ⟨24, 24, .ro, 0x0⟩, ⟨23, 16, .ro, 0x0⟩, ⟨9, 8, .ro, 0x0⟩, ⟨7, 0, .ro, 0x0⟩]
  | .fcDevRec2 => -- FC_DEV_RECc_W2: ADDRESS (R408)
    [⟨31, 0, .ro, 0x0⟩]
  | .fcDieRec2 => -- FC_DIE_RECc_W2: ADDRESS (R408)
    [⟨31, 0, .ro, 0x0⟩]
  | .fcViewRec2 => -- FC_VIEW_RECc_W2: ADDRESS (R408)
    [⟨31, 0, .ro, 0x0⟩]
  | .fcDevRec3 => -- FC_DEV_RECc_W3: ADDRESS (R408)
    [⟨31, 0, .ro, 0x0⟩]
  | .fcDieRec3 => -- FC_DIE_RECc_W3: ADDRESS (R408)
    [⟨31, 0, .ro, 0x0⟩]
  | .fcViewRec3 => -- FC_VIEW_RECc_W3: ADDRESS (R408)
    [⟨31, 0, .ro, 0x0⟩]
  | .fcDevRec4 => -- FC_DEV_RECc_W4: TIME (R408)
    [⟨31, 0, .ro, 0x0⟩]
  | .fcDieRec4 => -- FC_DIE_RECc_W4: TIME (R408)
    [⟨31, 0, .ro, 0x0⟩]
  | .fcViewRec4 => -- FC_VIEW_RECc_W4: TIME (R408)
    [⟨31, 0, .ro, 0x0⟩]
  | .fcDevRec5 => -- FC_DEV_RECc_W5: TIME (R408)
    [⟨31, 0, .ro, 0x0⟩]
  | .fcDieRec5 => -- FC_DIE_RECc_W5: TIME (R408)
    [⟨31, 0, .ro, 0x0⟩]
  | .fcViewRec5 => -- FC_VIEW_RECc_W5: TIME (R408)
    [⟨31, 0, .ro, 0x0⟩]
  | .fcDevRec6 => -- FC_DEV_RECc_W6: COUNT (R408)
    [⟨15, 0, .ro, 0x0⟩]
  | .fcDieRec6 => -- FC_DIE_RECc_W6: COUNT (R408)
    [⟨15, 0, .ro, 0x0⟩]
  | .fcViewRec6 => -- FC_VIEW_RECc_W6: COUNT (R408)
    [⟨15, 0, .ro, 0x0⟩]
  | .fcDevRec7 => -- FC_DEV_RECc_W7:  (R408)
    []
  | .fcDieRec7 => -- FC_DIE_RECc_W7:  (R408)
    []
  | .fcViewRec7 => -- FC_VIEW_RECc_W7:  (R408)
    []
  | .mirSettle => -- MIR_SETTLE: TICKS (R431)
    [⟨31, 0, .rw, 0x1388⟩]
  | .mirCommitTmo => -- MIR_COMMIT_TMO: TICKS (R431)
    [⟨31, 0, .rw, 0xee6b280⟩]
  | .mirRepairTmo => -- MIR_REPAIR_TMO: TICKS (R431)
    [⟨31, 0, .rw, 0x1388⟩]
  | .mirErrStatus => -- MIR_ERR_STATUS: REFUSED SIG_BAD REPAIRED COMMIT_TO UNREACH DIVERGED (R431)
    [⟨5, 5, .w1c, 0x0⟩, ⟨4, 4, .w1c, 0x0⟩, ⟨3, 3, .w1c, 0x0⟩, ⟨2, 2, .w1c, 0x0⟩, ⟨1, 1, .w1c, 0x0⟩, ⟨0, 0, .w1c, 0x0⟩]
  | .mirRepairs => -- MIR_REPAIRS: COUNT (R431)
    [⟨31, 0, .rc, 0x0⟩]
  | .mirSent => -- MIR_SENT: COUNT (R431)
    [⟨31, 0, .rc, 0x0⟩]
  | .mirWState => -- MIR_W_STATE: ADOPTED FILL STATE (R431)
    [⟨4, 4, .ro, 0x0⟩, ⟨3, 3, .ro, 0x0⟩, ⟨2, 0, .ro, 0x0⟩]
  | .mirWBuddy => -- MIR_W_BUDDY: ID (R431)
    [⟨19, 0, .ro, 0x0⟩]
  | .mirWBaseLo => -- MIR_W_BASE_LO: VALUE (R431)
    [⟨31, 0, .ro, 0x0⟩]
  | .mirWBaseHi => -- MIR_W_BASE_HI: VALUE (R431)
    [⟨31, 0, .ro, 0x0⟩]
  | .mirWSizeLo => -- MIR_W_SIZE_LO: VALUE (R431)
    [⟨31, 0, .ro, 0x0⟩]
  | .mirWSizeHi => -- MIR_W_SIZE_HI: VALUE (R431)
    [⟨31, 0, .ro, 0x0⟩]
  | .mirWBaddrLo => -- MIR_W_BADDR_LO: VALUE (R431)
    [⟨31, 0, .ro, 0x0⟩]
  | .mirWBaddrHi => -- MIR_W_BADDR_HI: VALUE (R431)
    [⟨31, 0, .ro, 0x0⟩]
  | .mirWEpochLo => -- MIR_W_EPOCH_LO: VALUE (R431)
    [⟨31, 0, .ro, 0x0⟩]
  | .mirWEpochHi => -- MIR_W_EPOCH_HI: VALUE (R431)
    [⟨31, 0, .ro, 0x0⟩]
  | .mirWDirty => -- MIR_W_DIRTY: BLOCKS (R431)
    [⟨31, 0, .ro, 0x0⟩]
  | .pwrStatus => -- PWR_STATUS: TRIPPED DIP ENERGY (R457)
    [⟨2, 2, .ro, 0x0⟩, ⟨1, 1, .ro, 0x0⟩, ⟨0, 0, .ro, 0x0⟩]
  | .pwrInput => -- PWR_INPUT: IIN VIN (R457)
    [⟨31, 16, .ro, 0x0⟩, ⟨15, 0, .ro, 0x0⟩]
  | .pwrCfg => -- PWR_CFG: DIP_HOLD IWARN (R457)
    [⟨8, 8, .rw, 0x1⟩, ⟨7, 0, .rw, 0x46⟩]
  | .pwrErrStatus => -- PWR_ERR_STATUS: IOD_FAULT DOM_WAKE SENS_FAIL HTHROT TRIP JTHROT ILIMIT BROWNOUT IN_LOW (R457)
    [⟨8, 8, .w1c, 0x0⟩, ⟨7, 7, .w1c, 0x0⟩, ⟨6, 6, .w1c, 0x0⟩, ⟨5, 5, .w1c, 0x0⟩, ⟨4, 4, .w1c, 0x0⟩, ⟨3, 3, .w1c, 0x0⟩, ⟨2, 2, .w1c, 0x0⟩, ⟨1, 1, .w1c, 0x0⟩, ⟨0, 0, .w1c, 0x0⟩]
  | .pwrDips => -- PWR_DIPS: COUNT (R457)
    [⟨31, 0, .rc, 0x0⟩]
  | .pwrSleep => -- PWR_SLEEP: TICKS (R457)
    [⟨31, 0, .rw, 0xc350⟩]
  | .pwrEbucket => -- PWR_EBUCKET: MJ (R457)
    [⟨12, 0, .ro, 0x0⟩]
  | .pwrIodDom => -- PWR_IOD_DOM: STATE (R457)
    [⟨15, 0, .ro, 0x0⟩]
  | .pwrEvt => -- PWR_EVT: DOMFAIL MODULE DIEPWR GRANT SENSFAIL THERMCAP THROTTLE ENERGY ILIMIT DIP (R457)
    [⟨9, 9, .w1c, 0x0⟩, ⟨8, 8, .w1c, 0x0⟩, ⟨7, 7, .w1c, 0x0⟩, ⟨6, 6, .w1c, 0x0⟩, ⟨5, 5, .w1c, 0x0⟩, ⟨4, 4, .w1c, 0x0⟩, ⟨3, 3, .w1c, 0x0⟩, ⟨2, 2, .w1c, 0x0⟩, ⟨1, 1, .w1c, 0x0⟩, ⟨0, 0, .w1c, 0x0⟩]
  | .pwrDieOp => -- PWR_DIEd_OP: CAP CHANGING GRANT REQ (R457)
    [⟨18, 16, .rw, 0x4⟩, ⟨11, 11, .ro, 0x0⟩, ⟨10, 8, .ro, 0x0⟩, ⟨2, 0, .ro, 0x0⟩]
  | .pwrDieLim => -- PWR_DIEd_LIM: THERMCAP SENSFAIL THERMAL ENERGY CURRENT SUPPLY LEVEL (R457)
    [⟨13, 13, .ro, 0x0⟩, ⟨12, 12, .ro, 0x0⟩, ⟨11, 11, .ro, 0x0⟩, ⟨10, 10, .ro, 0x0⟩, ⟨9, 9, .ro, 0x0⟩, ⟨8, 8, .ro, 0x0⟩, ⟨1, 0, .ro, 0x0⟩]
  | .pwrDieDom => -- PWR_DIEd_DOM: STATE (R457)
    [⟨21, 0, .ro, 0x0⟩]
  | .pwrDieCtl => -- PWR_DIEd_CTL: REFUSED POWER_ON POWER_OFF (R457)
    [⟨2, 2, .w1c, 0x0⟩, ⟨1, 1, .w1s, 0x0⟩, ⟨0, 0, .w1s, 0x0⟩]
  | .pwrSens => -- PWR_SENSn: VALID FAIL OVER TEMP (R457)
    [⟨31, 31, .ro, 0x0⟩, ⟨30, 30, .ro, 0x0⟩, ⟨29, 29, .ro, 0x0⟩, ⟨15, 0, .ro, 0x0⟩]
  | .secOrder => -- SEC_ORDERn: VALUE (R476)
    [⟨31, 0, .ro, 0x0⟩]
  | .secStep => -- SEC_STEP: GEN STEP (R476)
    [⟨15, 8, .ro, 0x8⟩, ⟨7, 0, .ro, 0x10⟩]
  | .secSerialLo => -- SEC_SERIAL_LO: VALUE (R476)
    [⟨31, 0, .ro, 0x0⟩]
  | .secSerialHi => -- SEC_SERIAL_HI: VALUE (R476)
    [⟨31, 0, .ro, 0x0⟩]
  | .secStatus => -- SEC_STATUS: LOCKED DEBUG IDENTITY TRIMS_BACKUP CFG_DEFAULT RECOVERY LAST (R476)
    [⟨31, 31, .ro, 0x0⟩, ⟨30, 30, .ro, 0x0⟩, ⟨29, 29, .ro, 0x0⟩, ⟨28, 28, .ro, 0x0⟩, ⟨27, 27, .ro, 0x0⟩, ⟨26, 26, .ro, 0x0⟩, ⟨2, 0, .ro, 0x0⟩]
  | .secLock => -- SEC_LOCK: LOCK (R476)
    [⟨0, 0, .ro, 0x0⟩]
  | .secReset => -- SEC_RESET: KEY WARM (R476)
    [⟨31, 16, .wo, 0x0⟩, ⟨0, 0, .wo, 0x0⟩]
  | .secErrStatus => -- SEC_ERR_STATUS: LAYOUT DBG_REFUSED TRIMS NO_IDENTITY FILTER LOCKED_WR IMAGE (R476)
    [⟨6, 6, .w1c, 0x0⟩, ⟨5, 5, .w1c, 0x0⟩, ⟨4, 4, .w1c, 0x0⟩, ⟨3, 3, .w1c, 0x0⟩, ⟨2, 2, .w1c, 0x0⟩, ⟨1, 1, .w1c, 0x0⟩, ⟨0, 0, .w1c, 0x0⟩]
  | .secFw => -- SEC_FW: SEQ PENDING SLOT (R476)
    [⟨31, 8, .ro, 0x0⟩, ⟨1, 1, .ro, 0x0⟩, ⟨0, 0, .ro, 0x0⟩]
  | .secRafBase => -- SEC_RAF_BASEe: VALID RIGHT BASE (R476)
    [⟨31, 31, .rwl, 0x0⟩, ⟨17, 16, .rwl, 0x0⟩, ⟨13, 0, .rwl, 0x0⟩]
  | .secRafLimit => -- SEC_RAF_LIMITe: LIMIT (R476)
    [⟨13, 0, .rwl, 0x0⟩]

/-- The index list of offset `off` within a block of the given strides and counts. -/
def dimIndex : List (Nat × Nat) → Nat → Option (List Nat)
  | [], off => if off = 0 then some [] else none
  | (st, cnt) :: ds, off =>
    if off / st < cnt then (dimIndex ds (off % st)).map ((off / st) :: ·) else none

/-- The offset of an index list within a block. -/
def dimOffset : List (Nat × Nat) → List Nat → Nat
  | (st, _) :: ds, i :: is => st * i + dimOffset ds is
  | _, _ => 0

/-- BAR0 offset of one register of a block. -/
def RegName.addr (r : RegName) (ix : List Nat) : Nat := r.base + dimOffset r.dims ix

/-- The register at a BAR0 offset of the physical function, with its indices; none for a reserved
offset (R477). -/
def regAt (a : Nat) : Option (RegName × List Nat) :=
  RegName.all.findSome? fun r =>
    if r.base ≤ a then (dimIndex r.dims (a - r.base)).map fun ix => (r, ix) else none

/-- The reset value of a register: each field at its reset value, reserved bits zero (R9). -/
def RegName.reset (r : RegName) : W32 :=
  BitVec.ofNat 32 (r.fields.foldl (fun w f => w + f.reset <<< f.lo) 0)

/-- The mask of the bits that fields cover: reserved bits read as zero (R9). -/
def RegName.mask (r : RegName) : W32 :=
  BitVec.ofNat 32 (r.fields.foldl (fun w f => w + (2 ^ (f.hi + 1 - f.lo) - 1) <<< f.lo) 0)

end Sys2Proof.Machine
end

