-- ==== Sys2Proof/Machine/State.lean ====
section
/-! DEFINITION. The state of the LK8: the queue of waiting commands and the device. Plain data. -/

namespace Sys2Proof.Machine

/-- Reasons a step can stop with a fault: none. Every event the manual describes leads to a next state. -/
inductive Fault where
deriving DecidableEq, Repr

/-- Reasons a step can refuse. -/
inductive Refusal where
  /-- Raised by an arm of the dispatch that has no meaning yet; safe: the model stops. -/
  | notModelled (mnemonic : String)
deriving DecidableEq, Repr

/-- Who sends or receives a message on the device's networks. -/
inductive Agent where
  | bench (b : Nat)
  | bay (y : Nat)
  | slice (q : Nat)
  /-- an IOD agent 0 to 24 (R254) -/
  | iod (k : Nat)
  | clampRoot (die : Nat)
  | clampIod
deriving DecidableEq, Repr

/-- The kinds of message in flight inside the device. -/
inductive MsgKind where
  /-- bench to bay cache: a line read, a masked write, a reduce-into, an atomic (R253, R262 to R266) -/
  | benchRead | benchWrite | benchRed | benchAtomic
  /-- bay cache to bench: a line, a write acknowledged, an atomic's old value -/
  | lineRsp | writeAck | atomRsp
  /-- bench to bench: one 128-byte chunk of a slot transfer (R168) -/
  | slotChunk
  /-- bench to clamp root: an arrival or addition; `v0` is the physical ID, `v1` the amount (R221) -/
  | clampUp
  /-- client to home slice (R256) -/
  | rds | rdu | rdx | rdxn | wb | wra | ata | red
  /-- slice to client: snoops (R256) -/
  | inv | dwn | rcl
  /-- client to slice: the replies to a snoop (R256) -/
  | replyNp | replyAck | replyData
  /-- slice to bay cache: a grant; `op` 0 shared with data, 1 exclusive with data, 2 exclusive without data (R257) -/
  | grant
  /-- slice to bay cache: a write-back acknowledged (R253) -/
  | wbAck
  /-- slice to its HBM controller and back (R304); these never cross the mesh (R206) -/
  | hbmRead | hbmWrite | hbmData
deriving DecidableEq, Repr

/-- One message in flight. `line` is a device physical address divided by 128 and `loc` the die address of that line divided
by 128; `tag` ties a reply to what it answers; `op` and `v1` carry an atomic or clamp operation; `req` is the
requester that a bay cache forwards for. -/
structure Msg where
  kind : MsgKind
  src : Agent
  dst : Agent
  line : Nat := 0
  off : Nat := 0
  data : Line := 0
  be : ByteEn := 0
  poison : Bool := false
  tag : Nat := 0
  ctx : Nat := 0
  gen : Nat := 0
  op : Nat := 0
  ty : Nat := 0
  v0 : Nat := 0
  v1 : Nat := 0
  /-- stamped in-budget at its injection, and the epoch and cycle of its injection (R211) -/
  inBudget : Bool := false
  epoch : Nat := 0
  inj : Nat := 0
  /-- the IOD hub has received it on its way from one compute die to another; the gateway of its destination has (R211, R235) -/
  hub : Bool := false
  gw : Bool := false
  loc : Nat := 0
  req : Option Agent := none
  /-- the access type recorded with a cause (R396) -/
  acc : Nat := 0
  /-- the cause that kills the issuing context as the answer retires; 0 none (R245, R270) -/
  code : Nat := 0
deriving DecidableEq, Repr

/-- The states of a bay-cache line beside I (R253). -/
inductive BayState where
  | s | e | m
deriving DecidableEq, Repr

/-- A bay-cache line (R253). -/
structure BayLine where
  line : Nat
  loc : Nat
  st : BayState
  data : Line
  poison : Bool := false
deriving DecidableEq, Repr

/-- A miss of a bay cache (R253): the request sent, and the bench requests that wait for the line, oldest first. -/
structure BayMiss where
  line : Nat
  want : MsgKind
  waiting : List Msg
deriving DecidableEq, Repr

/-- An entry of a bay cache's write-back buffer (R253). -/
structure BayWb where
  line : Nat
  data : Line
  poison : Bool
deriving DecidableEq, Repr

/-- A bay cache (R253): lines by (half × 2,048 + set) × 16 + way, the pseudo-LRU trees by half × 2,048 + set. -/
structure Bay where
  lines : SMap BayLine := ⟨[]⟩
  plru : SMap Nat := ⟨[]⟩
  misses : List BayMiss := []
  wbs : List BayWb := []
deriving DecidableEq, Repr

/-- Directory states of a slice line beside I (R255): valid, shared, or owned by a bay cache. -/
inductive DirState where
  | v | s | x (bay : Nat)
deriving DecidableEq, Repr

/-- The class of a slice line (R271). -/
inductive LineClass where
  | keep | normal | stream | ordinary | untagged
deriving DecidableEq, Repr

/-- A line of a slice (R252): `valid` tells whether the way holds data, `shelf` its shelf (32 × owner + index), `used` when
it was last used, which gives the LRU rank. -/
structure SLine where
  line : Nat
  loc : Nat
  dir : DirState := .v
  presence : BitVec 96 := 0
  valid : Bool := false
  dirty : Bool := false
  poison : Bool := false
  data : Line := 0
  shelf : Option Nat := none
  cls : LineClass := .ordinary
  used : Nat := 0
deriving DecidableEq, Repr

/-- What a pending-table entry is doing (R252, R257, R268, R269). -/
inductive SPhase where
  /-- waiting behind an earlier request or an eviction of its line -/
  | waiting
  /-- waiting for an eligible way -/
  | noWay
  /-- its victim's copies are being snooped: the way and the presence bits not yet answered -/
  | evict (way : Nat) (left : List Nat)
  /-- its line is being read from HBM -/
  | fill (way : Nat)
  /-- its line's copies are being snooped: the presence bits not yet answered -/
  | snoop (left : List Nat)
  /-- a reduce-into ready for the reduction unit -/
  | apply
deriving DecidableEq, Repr

/-- A pending-table entry (R252). -/
structure SPend where
  id : Nat
  req : Msg
  phase : SPhase
  /-- an HBM read was issued for it (UC_SL_MISSES, R278) -/
  hbm : Bool := false
deriving DecidableEq, Repr

/-- A check line in a controller's check cache (R303): its offset in the die divided by 128, and whether it is dirty. -/
structure CheckLine where
  loc : Nat
  dirty : Bool
deriving DecidableEq, Repr

/-- A slice (R252) with its HBM controller: lines by 16 × set + way, the pending table oldest first, the use count, and the
controller's check cache, most recent first (R303). -/
structure Slice where
  lines : SMap SLine := ⟨[]⟩
  pend : List SPend := []
  tick : Nat := 0
  checks : List CheckLine := []
deriving DecidableEq, Repr

/-- Retraining of an HBM4 stack (R307): the tick of the last one, and whether a parity error has taken the place of the next
periodic one. -/
structure StackSt where
  last : Option Nat := none
  skip : Bool := false
deriving DecidableEq, Repr

/-- A line in an IOD agent's buffer (R254): a shared copy, or the line its last RDU delivered. -/
structure IodLine where
  agent : Nat
  line : Nat
  data : Line
  poison : Bool
  shared : Bool
deriving DecidableEq, Repr

/-- A set of block numbers that may hold almost all of them: membership is `all` unless the number is listed. -/
structure BlockSet where
  all : Bool := false
  flips : SMap Unit := ⟨[]⟩
deriving DecidableEq, Repr

/-- The side states of a book as last confirmed (R411): 0 EMPTY, 1 FILLING, 2 SEALED, with their epochs. -/
structure BookSides where
  st0 : Nat := 0
  ep0 : Nat := 0
  st1 : Nat := 0
  ep1 : Nat := 0
deriving DecidableEq, Repr

/-- A block on its way from a book (R422, R424): its bytes and its signature as they have arrived. -/
structure BlockGot where
  block : Nat
  data : List Byte := []
  sig : Option (List Byte) := none
  poison : Bool := false
deriving DecidableEq, Repr

/-- What an open book-match window keeps beside its registers (R409 to R425), key 64 × owner + number. -/
structure MirWin where
  /-- peer index of the buddy -/
  peer : Nat := 0
  sides : BookSides := {}
  d0 : BlockSet := {}
  d1 : BlockSet := {}
  /-- blocks written, with the tick of the last write (R415) -/
  wrote : SMap Nat := ⟨[]⟩
  /-- the header that opens the fill side has been sent, since the open or the last commit (R415) -/
  sent : Bool := false
  /-- BITMAP_VALID of the trailer -/
  bitmapValid : Bool := false
  /-- signatures of blocks of the fill side not yet sent -/
  sigs : SMap W64 := ⟨[]⟩
  /-- the epoch of a commit in progress (R417), and the blocks written since the commit point (R418) -/
  commit : Option Nat := none
  /-- the tick of the commit point -/
  commitAt : Nat := 0
  late : SMap Unit := ⟨[]⟩
  /-- headers sent and not yet confirmed, oldest first, with why: 0 a fresh book, 1 a side opened, 2 a commit, 3 a local copy kept,
  4 a commit that has been abandoned -/
  hdrs : List (Nat × BookSides) := []
  /-- the queue whose command this window's open, commit or restore belongs to, and that command's sequence number -/
  job : Option (Nat × Nat) := none
  /-- a restore: the state before it, source peer, KEEP, the source's header, its signatures as they come, blocks to copy
  still, the block being read, blocks poisoned -/
  prev : Nat := 0
  srcPeer : Nat := 0
  keep : Nat := 0
  srcSides : BookSides := {}
  rx : List Byte := []
  todo : List Nat := []
  got : Option BlockGot := none
  bad : Nat := 0
  /-- dies whose stacks were lost since the window was last whole (R420, R422) -/
  lost : List Nat := []
deriving DecidableEq, Repr

/-- A line repair in progress (R424): the slice whose read is held, the window, the line and its block's bytes. -/
structure Repair where
  id : Nat
  peer : Nat
  slice : Nat
  win : Nat
  line : Nat
  loc : Nat
  block : Nat
  code : Nat
  /-- a read waits for it -/
  held : Bool := true
  data : Option (List Byte) := none
  sig : Option (List Byte) := none
  want : Nat := 0
  /-- the tick in which it began -/
  since : Nat := 0
deriving DecidableEq, Repr

/-- The configuration of a PCI Express function (R339 to R347). -/
structure HostFn where
  memEn : Bool := false
  d3 : Bool := false
  msixEn : Bool := false
  msixMask : Bool := false
  roEn : Bool := true
  /-- Max Payload and Max Read Request Size, as log2 of units of 128 bytes, and the Completion Timeout Value in ticks (R339, R349) -/
  mps : Fin 3 := 0
  mrrs : Fin 6 := 2
  cto : Nat := 2500000
  /-- the addresses that the host has given BAR0 and BAR2 (R341) -/
  bar0 : Nat := 0
  bar2Base : Nat := 0
  /-- log2 of the BAR2 size in GiB (R341) -/
  bar2 : Nat := 10
  /-- a function level reset is in progress (R345) -/
  flr : Bool := false
  /-- the tick in which its hold ends -/
  flrEnd : Nat := 0
  /-- errors recorded by AER, and the first of them that was not masked (R350, R351) -/
  aer : List AerErr := []
  aerFirst : Option AerErr := none
  /-- the AER mask registers, and the errors whose severity is fatal (R350) -/
  aerMask : List AerErr := []
  aerFatal : List AerErr := [.surpriseDown, .malformed]
deriving DecidableEq, Repr

/-- An MSI-X table entry with its pending bit (R346, R347). -/
structure MsixVec where
  addr : Nat := 0
  data : W32 := 0
  mask : Bool := true
  pend : Bool := false
deriving DecidableEq, Repr

/-- A fault report on its way to a collector (R393): code, master ID, access type, address, the
instance charged, the die whose collector it reaches first (none: the device collector), and the tick at which the
collector first samples the source's pair asserted, if the pair was clear (R395). -/
structure Report where
  code : Nat
  master : Nat
  access : Nat
  addr : Nat
  inst : Option Nat
  die : Option Nat
  seen : Option Nat := none
  /-- the tick in which the cause arose -/
  raisedAt : Nat := 0
deriving DecidableEq, Repr

/-- What a fabric operation was sent for: what completes on its acknowledgement and fails with it
(R379, R384). -/
inductive FabOwner where
  | none
  /-- tile-mover descriptor `id` of bench `b` -/
  | tm (b id : Nat)
  /-- the command with sequence number `seq` running on queue `q` -/
  | queue (q seq : Nat)
  /-- book-match window `w` (64 × owner + index) -/
  | mirror (w : Nat)
  /-- a tree edge of system clamp `i` -/
  | clamp (i : Nat)
  /-- repair `id` of a line from its mirror (R424) -/
  | repair (id : Nat)
deriving DecidableEq, Repr

/-- A sequenced frame sent and not yet acknowledged, or waiting to be sent (R383): what it was sent for, and the SEQ of the request
that it answers. -/
structure SentFrame where
  frame : Frame
  owner : FabOwner
  answers : Option Nat := none
  /-- the tick in which it was last sent -/
  sentAt : Nat := 0
deriving DecidableEq, Repr

/-- One stream of a peer: the next SEQ to send, the SEQ expected, frames unacknowledged (at most 256) and
frames waiting for the window, whether an acknowledgement is due and since which tick, the tick in which the last NAK was sent (R383), and the
route slot in use (R385). -/
structure Stream where
  next : Nat := 0
  expected : Nat := 0
  unacked : List SentFrame := []
  backlog : List SentFrame := []
  ackDue : Bool := false
  ackAt : Nat := 0
  nakAt : Option Nat := none
  slot : Nat := 0
deriving DecidableEq, Repr

/-- A fabric peer's transport state (R383 to R385): 0 OK, 1 RESYNC, 2 UNREACH; expiries without
progress; RESYNC sent and received since it became unreachable, and the tick in which it became so or the last RESYNC was sent. -/
structure Peer where
  st : Nat := 0
  bulk : Stream := {}
  clamp : Stream := {}
  expiries : Nat := 0
  resyncSent : Bool := false
  resyncGot : Bool := false
  resyncAt : Nat := 0
deriving DecidableEq, Repr

/-- A fabric port (R369, R382): its state and why it is NOFORM or LATCHED (1 lanes split over two instances, 2 lane order,
3 no reference clock; 4 training failed, 5 recovery count latched), whether it has been UP, the partner if it is an LK8 with link
retry, link sequence counts, the replay buffer, the tick in which it was last acknowledged, replayed or begun, and the consecutive replays of
its first frame; frames that wait for room in the buffer, oldest first, and whether mirror is ahead of bulk among them (R375); the tick in which
the port last left UP (R384). -/
structure FabPort where
  st : Nat := 0
  why : Nat := 0
  wasUp : Bool := false
  direct : Bool := false
  partnerPort : Nat := 0
  partnerId : Nat := 0
  activeCbl : Bool := false
  lseqNext : Nat := 0
  lseqExp : Nat := 0
  replay : List Frame := []
  lackAt : Nat := 0
  fails : Nat := 0
  failSeq : Nat := 0
  wait : List Frame := []
  mirNext : Bool := false
  leftUp : Nat := 0
  /-- time sync on the port (R387): when the last TS_PDREQ left, the link delay, when the last TS_SYNC came -/
  pdSent : Option Nat := none
  delay : Nat := 0
  syncAt : Option Nat := none
deriving DecidableEq, Repr

/-- A READ_REQ whose responses are awaited: the bytes still to come and where they go. -/
structure FabRead where
  owner : FabOwner
  peer : Nat
  laddr : Nat
  len : Nat
  /-- byte offset of the request within the operation, for the owner's use -/
  off : Nat
  row : Nat
deriving DecidableEq, Repr

/-- What leaves the module: a frame on a fabric port; to the host, a read, a posted write, an MSI-X message, a completion with its
status (0 SC, 1 UR) and EP bit, or the report of an error through AER with its severity; a management-bus reply. -/
inductive OutMsg where
  | frame (port : Nat) (f : Frame)
  | hostRead (fn addr len : Nat) (ro : Bool)
  | hostWrite (fn addr : Nat) (data : List Byte) (ro : Bool)
  | msix (fn addr : Nat) (data : W32)
  | completion (fn status : Nat) (ep : Bool) (data : List Byte)
  | error (fn : Nat) (e : AerErr) (sev : ErrSev)
  | mgmt (kind : Nat) (data : List Byte)
deriving DecidableEq, Repr

/-- What the command processor asks of host memory (R348): the function, the address and the number of bytes, and the tick of the
request. -/
structure HostRead where
  fn : Nat
  addr : Nat
  len : Nat
  sentAt : Nat := 0
deriving DecidableEq, Repr

/-- A request of the host, from function `f`, that waits: for a line whose business is in progress, or for posted writes that the function
has sent before it (R258, R291). A write is one line's part of a posted write. -/
inductive HostReq where
  | read (f a n : Nat)
  | write (f a : Nat) (data : List Byte) (ep : Bool)
  | atomic (f a size op x compare : Nat)
  | bar0 (f off n : Nat)
  | bar0Write (f off : Nat) (data : List Byte)
  | doorbell (f q v : Nat)
deriving DecidableEq, Repr

/-! ### The module, power and flash -/

/-- The supply of a fabric cable connector's sideband (R22): a cable is mated, CBL_3V3 is on, an overload holds it off. -/
structure Cable where
  mated : Bool := false
  supply : Bool := false
  latched : Bool := false
deriving DecidableEq, Repr

/-- What the module's board and its input controller hold (R24 to R26, R458): the input switch and its start delay, the bus pin, whether
the input has risen above the turn-on threshold, an over-voltage excursion, the two latches, PWR_DIS and PERST_N; a warm
reset that waits for PERST_N (the slot it boots, whether its boot configuration fails, whether the fabric clock is there); the slot
booted last; default trims in force. -/
structure Board where
  swOn : Bool := false
  starting : Bool := false
  mated : Bool := false
  risen : Bool := false
  ovExc : Bool := false
  ovTrip : Bool := false
  brownOut : Bool := false
  pwrDis : Bool := false
  perst : Bool := false
  bootWait : Option (Bool × Bool × Bool) := none
  booted : Option Bool := none
  trimsBad : Bool := false
  /-- the 25 MHz crystal is absent or out of tolerance: the device has not left reset (R29) -/
  xtalBad : Bool := false
  /-- cable connectors 2 (J2) and 3 (J3) -/
  cables : SMap Cable := ⟨[]⟩
deriving DecidableEq, Repr

/-- What the power manager holds beside its registers (R440 to R454). `supply`: 1 the input is below 52 V, 2 it is back and the 100 µs run.
Levels count 0 for 100 % to 3 for 25 %. -/
structure PwrSt where
  supply : Nat := 0
  curWarn : Bool := false
  curLimit : Bool := false
  curBack : Bool := false
  /-- the ticks in which the input was back and the current was; an excursion above 80 A lasts (R445) -/
  supplyAt : Nat := 0
  curAt : Nat := 0
  curExc : Bool := false
  /-- level of the energy trigger while active, and the bucket in 10⁻¹⁰ J (R449) -/
  energy : Option Nat := none
  bucket : Nat := 0
  /-- the tick in which the energy trigger's level last moved; that of each thermal trigger -/
  energyAt : Nat := 0
  thermAt : SMap Nat := ⟨[]⟩
  /-- level of the thermal trigger of a sensing point while active -/
  therm : SMap Nat := ⟨[]⟩
  /-- by die: the count from which the level of PWR_DIEd_LIM holds, and the level before it (R441) -/
  limOld : SMap (Nat × Nat) := ⟨[]⟩
  /-- by die: the count from which its level is held before it rises a step (R441) -/
  limRel : SMap Nat := ⟨[]⟩
  /-- by die: whether its thermal trigger holds it at 25 % (1), holds it higher (0) or has ended (2), and the tick since which, or of the last
  step of the thermal cap (R452) -/
  capAt : SMap (Nat × Nat) := ⟨[]⟩
  /-- failed sensing points whose cause software has cleared (R440) -/
  unfail : List Nat := []
  /-- by die: the dip cap with the LAUNCHes, queue and sequence number, that held the die; the thermal cap (R446, R452) -/
  dipCap : SMap (Nat × List (Nat × Nat)) := ⟨[]⟩
  thermCap : SMap Nat := ⟨[]⟩
  /-- by die: the point toward which a change runs (R435) -/
  opTarget : SMap Nat := ⟨[]⟩
  /-- by die: the time since power, in ns, at which the present change stops the core clock, and the time at which the clock runs again, none where it
  does as the change ends (R435) -/
  opStop : SMap (Nat × Option Nat) := ⟨[]⟩
  /-- dies whose grant is below their request for a cap of the power manager's own (R455) -/
  low : List Nat := []
  /-- events of the present tick that met their bit of PWR_EVT set (R455) -/
  again : List Nat := []
deriving DecidableEq, Repr

/-- An image listed in a slot's directory (R470): type, offset in the slot, size, security version, and the body of a boot
configuration record. -/
structure FwImage where
  ty : Nat
  off : Nat := 0
  size : Nat := 0
  svn : Nat := 0
  body : List Byte := []
deriving DecidableEq, Repr

/-- An image slot of the module flash (R470): SEQ, STATE and its images. -/
structure FwSlot where
  seq : Nat := 0
  st : Nat := 0
  imgs : List FwImage := []
deriving DecidableEq, Repr

/-- The module flash (R34): slots A and B, the versions of the two trims records. The event log is `Dev.evlog`. -/
structure Flash where
  a : FwSlot := { st := 2, imgs := [{ ty := 1 }, { ty := 2 }, { ty := 3 }, { ty := 4 }, { ty := 5 }] }
  b : FwSlot := {}
  trims : Nat := 0
  trimsBackup : Nat := 0
deriving DecidableEq, Repr

/-- A firmware update in progress (R473): the slot written, and the types the package has brought. -/
structure Update where
  slot : Bool
  got : List Nat := []
deriving DecidableEq, Repr

/-- A LAUNCH past its checks (R319, R320, R332 to R336). Slots are 16 × instance + slot; `marks` holds the schedule's progress
numbers and EXPECT. -/
structure Launch where
  prog : Nat
  back : Option Nat := none
  lateMode : Nat := 0
  atomic : Bool := false
  first : Nat := 0
  steps : Nat := 1
  margin : Nat := 0
  deadline : Nat := 0
  clamps : List Nat := []
  marks : List (Nat × Nat) := []
  /-- the step that runs or comes next, whether it runs, and the ticks in which it started and in which the LAUNCH began -/
  step : Nat := 0
  running : Bool := false
  stepT : Nat := 0
  began : Nat := 0
  /-- the tick from which it has waited to start its next step (R336) -/
  waitT : Option Nat := none
  /-- the switch to the backing program has been taken; the present step runs on it -/
  switched : Bool := false
  onBack : Bool := false
  /-- a step has run on the backing program (R329) -/
  ranBack : Bool := false
  main : Nat := 0
  backs : Nat := 0
  /-- marks of the present step that have arrived, and late entries already acted on -/
  arrived : List Nat := []
  lateDone : List Nat := []
  /-- the LAUNCH holds its benches, or waits for those another queue holds -/
  owns : Bool := false
  contends : Bool := false
  /-- ticks of overrun, and whether OVERRUN has been raised -/
  overrun : Nat := 0
  overRaised : Bool := false
  /-- the operating point it asks for (R434) -/
  op : Nat := 2
  /-- the status and fault with which it ends once its contexts are killed -/
  killing : Option (Nat × Nat) := none
deriving DecidableEq, Repr

/-- A command fetched by a queue (R313): its sequence number and packet; what it has gathered and how far it is; fabric
operations outstanding and what they brought; and once it has ended, its status and INFO0, until its record is written. -/
structure Cmd where
  seq : Nat
  pkt : List Byte
  phase : Nat := 0
  off : Nat := 0
  got : List Byte := []
  /-- a host read that is awaited -/
  host : Option HostRead := none
  /-- fabric operations outstanding; a failure of one: status, fault, STATUS of the refusal -/
  acks : Nat := 0
  bad : Option (Nat × Nat × Nat) := none
  rx : List (Nat × List Byte) := []
  /-- COLL messages received: sub-type, sender, chunk; how far each chunk is; bytes of each chunk reduced in by the member
  before (R388) -/
  coll : List (Nat × Nat × Nat) := []
  stage : SMap Nat := ⟨[]⟩
  redGot : SMap Nat := ⟨[]⟩
  /-- the word that a barrier's addition met (R389) -/
  old : Option Nat := none
  fault : Nat := 0
  overrun : Bool := false
  launch : Option Launch := none
  fin : Option (Nat × Nat) := none
deriving DecidableEq, Repr

/-- A command queue beside its registers (R310 to R313, R332): a host fetch awaited, the command that runs, the budget in
ticks. -/
structure Queue where
  fetch : Option HostRead := none
  run : Option Cmd := none
  budget : Int := 100000
  /-- after a RESUME, the step at which the LAUNCH that the queue fetches again goes on (R326) -/
  resumeAt : Option Nat := none
deriving DecidableEq, Repr

/-- A mark-table entry (R203). -/
structure MarkEntry where
  kind : Nat
  op : Nat
  reporter : Nat
  progress : Nat
deriving DecidableEq, Repr

/-- A filled program slot (R317): the image copied into the management region, the mark table, the number of contexts. -/
structure ProgSlot where
  image : List Byte
  split : Nat
  progId : List Byte
  marks : List MarkEntry
  contexts : Nat
deriving DecidableEq, Repr

/-- A start message (R216): the die, the queue whose step it starts, the start count, whether it has reached the die. -/
structure StartMsg where
  die : Nat
  q : Nat
  cycle : Nat
  arrived : Bool := false
deriving DecidableEq, Repr

/-- A kill message to a bench (R321): the context, the cause, the queue it comes from. -/
structure KillMsg where
  bench : Nat
  ctx : Nat
  code : Nat
  q : Nat
deriving DecidableEq, Repr

/-- What waits while a function is in D3hot (R347): a host write or an event of a vector. -/
inductive HeldMsg where
  | write (addr : Nat) (data : List Byte) (ro : Bool)
  | event (vec : Nat)
deriving DecidableEq, Repr

/-- An occurrence of a drawer notice (R360): the direction, the drawer, the record, and what a first occurrence writes. -/
structure Notice where
  up : Bool
  k : Nat
  slot : Nat
  code : Nat
  die : Nat
  addr : Nat
deriving DecidableEq, Repr

/-- A clamp broadcast on its way down a die (R221): the newest value, and the clamp nodes, 12 × row + column,
that it has not reached. -/
structure ClampDown where
  die : Nat
  id : Nat
  value : W32
  left : BitVec 144
deriving DecidableEq, Repr

/-- A compute die (R4, R154, R250). `cyc10` is its cycle count in tenths of a core cycle; `st` is DAT_STATE.STATE. -/
structure Die where
  st : Nat := 0
  cyc10 : Nat := 0
  stopped : Bool := false
  /-- fenced under R243 or R237 -/
  linkFence : Bool := false
  /-- NET_BUDGET as the present epoch began with it (R211) -/
  budget : W32 := 0x1018180A
deriving DecidableEq, Repr

/-- A die-attach module (R235, R236): for flits toward the die and away from it, the consecutive failures of the present flit
and whether a replay has been asked for; whether the module trains, and whether its training failed. -/
structure ModSt where
  failsIn : Nat := 0
  failsOut : Nat := 0
  askIn : Bool := false
  askOut : Bool := false
  training : Bool := false
  failed : Bool := false
deriving DecidableEq, Repr

/-- The device. -/
structure Dev where
  time : Nat := 0
  /-- always-on ticks since the input switch closed (R6, R433) -/
  ticks : Nat := 0
  /-- a trip (R454), or a fault of an IOD domain or regulator (R439), has stopped the device -/
  tripped : Bool := false
  halted : Bool := false
  board : Board := {}
  pwr : PwrSt := {}
  flash : Flash := {}
  update : Option Update := none
  /-- module causes asserted (R32) -/
  modCauses : List Nat := []
  /-- J5 and J6: the I3C dynamic address (R27), the instruction of each test access port (R28), the algorithms negotiated (R463), the
  pending debug nonce as the count of its free value (R474) -/
  i3cAddr : Option Nat := none
  taps : SMap Nat := ⟨[]⟩
  /-- what measurements 8, 9 and 11 measured as the boot lock was taken, and the version of the trims in use (R464) -/
  measured : List (List Byte) := []
  spdmAlgs : Option (Bool × Bool) := none
  nonce : Option Nat := none
  dies : SMap Die := ⟨[]⟩
  benches : SMap Bench := ⟨[]⟩
  regs : SMap W32 := ⟨[]⟩
  /-- bits that the device has set in the present tick, by register (R8) -/
  fresh : SMap W32 := ⟨[]⟩
  net : List Msg := []
  clampDown : List ClampDown := []
  /-- flits that each source has injected in the present epoch, up to its budget: key 2 × (1,024 × die + source) + plane (R211) -/
  spent : SMap Nat := ⟨[]⟩
  reports : List Report := []
  /-- reports that have reached their collectors in the present tick (R398, R402) -/
  caught : List Report := []
  /-- modules by 24 × die + site -/
  mods : SMap ModSt := ⟨[]⟩
  /-- applied module lists by 9 × die + remote die, 8 the IOD, and the lists that wait for a change (R233) -/
  modLists : SMap (List Nat) := ⟨[]⟩
  listPend : SMap Unit := ⟨[]⟩
  /-- the re-seat that runs, with its mode, and the dies that wait for theirs (R247) -/
  reseat : Option (Nat × Bool) := none
  reseats : List Nat := []
  /-- command queues, program slots by 16 × instance + slot, start and kill messages on the control network -/
  queues : SMap Queue := ⟨[]⟩
  slots : SMap ProgSlot := ⟨[]⟩
  starts : List StartMsg := []
  kills : List KillMsg := []
  /-- phase marks on their way to the power manager: program slot and operating point (R203, R434) -/
  phaseMarks : List (Nat × Nat) := []
  /-- instances that are quiesced (R326) -/
  quiesced : List Nat := []
  /-- recovery sources by the index of FC_RCV: device times of the latest 15 returns, newest first, and the ticks in which quiet periods end (R404,
  R405) -/
  returns : SMap (List Nat) := ⟨[]⟩
  quiet : SMap Nat := ⟨[]⟩
  /-- master IDs of sources after a line fault (R394) -/
  lineFault : List Nat := []
  /-- the persistent event log, newest last, and the tick of its last append (R34, R401) -/
  evlog : List (List W32) := []
  evlogLast : Option Nat := none
  /-- PLDM events not yet read: code and master ID (R26, R401) -/
  pldm : List (Nat × Nat) := []
  hbm : Mem := ⟨[]⟩
  /-- lines stored poisoned, by 2^30 × die + die line (R305) -/
  hbmPoison : SMap Unit := ⟨[]⟩
  bays : SMap Bay := ⟨[]⟩
  slices : SMap Slice := ⟨[]⟩
  iodLines : List IodLine := []
  /-- window entries that are busy: base and size in GiB of the range being flushed (R299) -/
  winFlush : SMap (Nat × Nat) := ⟨[]⟩
  hbmStacks : SMap StackSt := ⟨[]⟩
  mirrors : SMap MirWin := ⟨[]⟩
  /-- bytes of mirror payload sent that do not fill a KiB of MIR_SENT -/
  mirSentRem : Nat := 0
  repairs : List Repair := []
  fns : SMap HostFn := ⟨[]⟩
  numVfs : Nat := 0
  vfEnable : Bool := false
  msix : SMap MsixVec := ⟨[]⟩
  heldMsgs : List (Nat × HeldMsg) := []
  /-- drawer notices that have occurred in the present tick, oldest first (R360) -/
  noticed : List Notice := []
  /-- whose command a core of the command processor took last: an instance, or 8 for the manager queues (R364) -/
  cpTurn : Nat := 8
  /-- requests of the host that wait, oldest first -/
  hostWait : List HostReq := []
  /-- reads of host memory whose queue, given with each, no longer waits for them, oldest first (R349) -/
  orphans : List (Nat × HostRead) := []
  peers : SMap Peer := ⟨[]⟩
  ports : SMap FabPort := ⟨[]⟩
  fabReads : SMap FabRead := ⟨[]⟩
  nextTag : Nat := 0
  /-- the bays that a LAUNCH holds, and by bay the tick in which the last one gave it up (R436) -/
  heldBays : List Nat := []
  bayFree : SMap Nat := ⟨[]⟩
  /-- time sync: the tick in which messages were last exchanged; device time has been set once; consecutive syncs beyond 20 ns and within 10 ns; the part of a nanosecond that
  slewing has left, in 10⁻⁶ ns (R387) -/
  tsAt : Nat := 0
  tsStepped : Bool := false
  tsBad : Nat := 0
  tsGood : Nat := 0
  timeFrac : Int := 0
  /-- COLL messages for which no COLLECTIVE runs yet: instance, generation, and the message (R388) -/
  collHeld : List (Nat × Nat × Nat × Nat × Nat) := []
  out : List OutMsg := []
  free : Nat := 0
deriving DecidableEq, Repr

/-- The machine: the commands that wait, first in first out, and the device. -/
structure State where
  pending : List Instr
  dev : Dev
deriving DecidableEq, Repr

/-- The machine right after reset. -/
def State.reset : State := { pending := [], dev := {} }

/-- The outcome of a command whose effect on the device is `f`; the queue is untouched. -/
def State.run (f : Dev → Dev) (s : State) : Host.Outcome State Fault Refusal :=
  .next { s with dev := f s.dev }

end Sys2Proof.Machine
end

