-- ==== Sys2Proof/Machine/Ops.lean ====
section
/-! DEFINITION. The operations every family shares: reading and writing dies, benches, registers and
bytes, putting messages in flight, and raising fault causes (R8 to R11, R393, R397). -/

namespace Sys2Proof.Machine

/-! ### Parts of the device -/

def Dev.die (d : Dev) (i : Nat) : Die := d.dies.getD i {}
def Dev.setDie (d : Dev) (i : Nat) (x : Die) : Dev := { d with dies := d.dies.set i x }
def Dev.modDie (d : Dev) (i : Nat) (f : Die → Die) : Dev := d.setDie i (f (d.die i))

def Dev.bench (d : Dev) (i : Nat) : Bench := d.benches.getD i {}
def Dev.setBench (d : Dev) (i : Nat) (x : Bench) : Dev := { d with benches := d.benches.set i x }
def Dev.modBench (d : Dev) (i : Nat) (f : Bench → Bench) : Dev := d.setBench i (f (d.bench i))

/-- The die of a bench (R5). -/
def dieOf (b : Nat) : Nat := b / 576
/-- The device bay of a bench (R5). -/
def bayOf (b : Nat) : Nat :=
  let l := b % 576
  8 * dieOf b + 2 * (l / 24 / 6) + l % 24 / 12

/-- The core-cycle count of a die (R154). -/
def Dev.cycle (d : Dev) (i : Nat) : Nat := (d.die i).cyc10 / 10

/-- The device runs: the boot lock has been taken, and neither a trip nor a power fault has stopped it (R439, R454, R460). -/
def Dev.live (d : Dev) : Bool := (d.regs.getD (RegName.secStatus.addr []) 0).getLsbD 31 && !d.halted && !d.tripped

/-- The outcome of a command of the running device: nothing happens while the device does not run. -/
def State.runLive (f : Dev → Dev) (s : State) : Host.Outcome State Fault Refusal :=
  s.run fun d => if d.live then f d else d

/-- The always-on domain runs: the input switch is closed and the crystal is there (R29, R437). -/
def Dev.on (d : Dev) : Bool := d.board.swOn && !d.board.xtalBad

/-- The outcome of a command of a part that is powered while the input switch is closed (R437). -/
def State.runOn (f : Dev → Dev) (s : State) : Host.Outcome State Fault Refusal :=
  s.run fun d => if d.on then f d else d

/-- Nanoseconds that the always-on domain has run (R433). -/
def Dev.upTime (d : Dev) : Nat := 20 * d.ticks

/-- An operating-point change holds the core clock of a die stopped (R174, R435). -/
def Dev.clockHeld (d : Dev) (i : Nat) : Bool :=
  match d.pwr.opStop.find? i with
  | none => false
  | some (a, e) => decide (a ≤ d.upTime) && match e with
    | some e => decide (d.upTime < e)
    | none => true

/-- A die has its core clock: it is UP, and no trip or fault has stopped it (R154, R454). -/
def Dev.dieClock (d : Dev) (i : Nat) : Bool := !d.tripped && !d.halted && (d.die i).st == 2 && !(d.die i).stopped
/-- A die's core clock runs: it has one, and no change of its point holds it (R174, R435). -/
def Dev.dieRuns (d : Dev) (i : Nat) : Bool := d.dieClock i && !d.clockHeld i

/-- The least number at or after `x` that is `r` modulo `m`. -/
def nextMod (x m r : Nat) : Nat := x + (m + r - x % m) % m

/-! ### Registers -/

/-- The stored value of a register; its reset value until written (R9). -/
def Dev.reg (d : Dev) (r : RegName) (ix : List Nat) : W32 := d.regs.getD (r.addr ix) r.reset
def Dev.setReg (d : Dev) (r : RegName) (ix : List Nat) (v : W32) : Dev :=
  { d with regs := d.regs.set (r.addr ix) v }
/-- Field `[hi:lo]` of a register. -/
def Dev.regFld (d : Dev) (r : RegName) (ix : List Nat) (hi lo : Nat) : Nat := fld (d.reg r ix) hi lo
def Dev.setRegFld (d : Dev) (r : RegName) (ix : List Nat) (hi lo v : Nat) : Dev :=
  d.setReg r ix (setFld (d.reg r ix) hi lo v)
/-- The ticks that a register of a time gives; where it is 0, those of its reset value (R338, R431). -/
def Dev.ticksOf (d : Dev) (r : RegName) : Nat := if d.reg r [] = 0 then r.reset.toNat else (d.reg r []).toNat
def Dev.regBit (d : Dev) (r : RegName) (ix : List Nat) (i : Nat) : Bool := (d.reg r ix).getLsbD i
/-- Bits of a register that the device has set in the present tick (R8). -/
def Dev.freshBits (d : Dev) (r : RegName) (ix : List Nat) : W32 := d.fresh.getD (r.addr ix) 0
/-- The device sets bits of a register: until the tick ends they outlast a write that clears them (R8). -/
def Dev.orReg (d : Dev) (r : RegName) (ix : List Nat) (w : W32) : Dev :=
  { d.setReg r ix (d.reg r ix ||| w) with fresh := d.fresh.set (r.addr ix) (d.freshBits r ix ||| w) }
def Dev.setRegBit (d : Dev) (r : RegName) (ix : List Nat) (i : Nat) : Dev := d.orReg r ix (BitVec.ofNat 32 (2 ^ i))
def Dev.clrRegBit (d : Dev) (r : RegName) (ix : List Nat) (i : Nat) : Dev := d.setRegFld r ix i i 0
/-- Add to a counter field that saturates at all ones (R61 and the other counters). -/
def Dev.count (d : Dev) (r : RegName) (ix : List Nat) (hi lo : Nat) (n : Nat := 1) : Dev :=
  d.setRegFld r ix hi lo (satAdd (2 ^ (hi + 1 - lo) - 1) (d.regFld r ix hi lo) n)
/-- Forget the stored values of the registers whose offset satisfies `p`: they read as at reset (R9). -/
def Dev.resetRegs (d : Dev) (p : Nat → Bool) : Dev := { d with regs := d.regs.filter fun a _ => !p a }

/-! ### The cycle count and its epochs (R154, R211) -/

/-- Every budget counter of a die's sources is set to its class's NET_BUDGET (R211). -/
def Dev.refill (d : Dev) (i : Nat) : Dev :=
  { d.modDie i fun x => { x with budget := d.reg .netBudget [i] } with
    spent := d.spent.filter fun k _ => k / 2 / 1024 != i }

/-- Move a die's count, in tenths of a core cycle, forward; it never runs back. A new epoch refills the budgets of its sources (R154, R211). -/
def Dev.countTo (d : Dev) (i c10 : Nat) : Dev :=
  let old := (d.die i).cyc10
  if c10 ≤ old then d
  else
    let d1 := d.modDie i fun x => { x with cyc10 := c10 }
    if old / 10240 = c10 / 10240 then d1 else d1.refill i

/-- Move a die's count forward to a given cycle. -/
def Dev.advanceTo (d : Dev) (i cyc : Nat) : Dev := d.countTo i (cyc * 10)

/-- Benches of a die are to start at a count below `cyc`, so that the count cannot reach `cyc` before they do (R155, R216). -/
def Dev.startsBefore (d : Dev) (i cyc : Nat) : Bool := d.starts.any fun m => m.die == i && decide (m.cycle < cyc)

/-! ### Messages -/

/-- The kinds that answer a request: they return on the other plane (R208). -/
def MsgKind.isRsp : MsgKind → Bool
  | .lineRsp | .writeAck | .atomRsp | .replyNp | .replyAck | .replyData | .grant | .wbAck => true
  | _ => false

/-- The plane of a dynamic flit: bit 8 of the line address for requests, the other one for responses (R208). -/
def Msg.plane (m : Msg) : Nat :=
  let p := m.line / 2 % 2
  if m.kind.isRsp then 1 - p else p

/-- The bulk-network source that injects a message, within its die, and its class: 0 bench, 1 bay-cache port, 2 slice
(R206, R211); none for what travels on another network, in reserved slots or from the IOD. -/
def Msg.source (m : Msg) : Option (Nat × Nat × Nat) :=
  if m.kind ∈ [.slotChunk, .clampUp, .hbmRead, .hbmWrite, .hbmData] then none
  else match m.src with
    | .bench b => some (dieOf b, b % 576, 0)
    | .bay y => some (y / 8, 576 + 2 * (y % 8) + m.line % 2, 1)
    | .slice q => some (q / 16, 592 + q % 16, 2)
    | _ => none

/-- NET_BUDGET's field for a class of source (R228). -/
def budgetOf (w : W32) (cls : Nat) : Nat := fld w (8 * cls + 7) (8 * cls)

/-- Charge a dynamic flit to its source's budget counter for its plane: while the counter is nonzero the flit is in
budget and the counter goes down by one (R211). -/
def Dev.charge (d : Dev) (die src cls plane : Nat) : Bool × Dev :=
  let k := 2 * (1024 * die + src) + plane
  let n := d.spent.getD k 0
  if n < budgetOf (d.die die).budget cls then (true, { d with spent := d.spent.set k (n + 1) }) else (false, d)

/-- The compute die an agent is on; none for one in the IOD. -/
def agentDie : Agent → Option Nat
  | .bench b => some (dieOf b)
  | .bay y => some (y / 8)
  | .slice q => some (q / 16)
  | .clampRoot k => some k
  | _ => none

/-- A message for an agent of a die that is fenced, from outside the die: it is discarded (R245). -/
def Dev.fencedOff (d : Dev) (m : Msg) : Bool :=
  match agentDie m.dst with
  | some k => ((d.die k).st == 3 || (d.die k).st == 4) && agentDie m.src != some k
  | none => false

/-- Put a message in flight, its flit stamped at its source (R211). -/
def Dev.send (d : Dev) (m : Msg) : Dev :=
  if d.fencedOff m then d
  else match m.source with
    | none => { d with net := d.net ++ [m] }
    | some (die, src, cls) =>
      let (inb, d1) := d.charge die src cls m.plane
      { d1 with net := d1.net ++ [{ m with inBudget := inb, epoch := d.cycle die / 1024, inj := d.cycle die }] }

/-- Split a list at its first element that satisfies `p`: the element and the list without it. -/
def takeFirst {α : Type} (p : α → Bool) : List α → Option (α × List α)
  | [] => none
  | x :: xs => if p x then some (x, xs) else (takeFirst p xs).map fun r => (r.1, x :: r.2)

/-- Change the first element that satisfies `p`. -/
def modFirst {α : Type} (p : α → Bool) (f : α → α) : List α → List α
  | [] => []
  | x :: xs => if p x then f x :: xs else x :: modFirst p f xs

/-- A message crosses die attach as bulk flits (R207, R231). -/
def Msg.crosses (m : Msg) : Bool :=
  agentDie m.src != agentDie m.dst && !(m.kind ∈ [.slotChunk, .clampUp, .hbmRead, .hbmWrite, .hbmData])

/-- A message can be delivered: it crosses no die attach, or the gateway of its destination has received it (R231, R235). -/
def Msg.ready (m : Msg) : Bool := !m.crosses || m.gw

/-- A message that travels in dynamic bulk flits somewhere on its way (R207, R211). -/
def Msg.dynamic (m : Msg) : Bool := !(m.kind ∈ [.slotChunk, .clampUp, .hbmRead, .hbmWrite, .hbmData])

/-- Its place in the order in which the arbiters of die `k` serve waiting flits: those of an earlier epoch, the earliest first, then the
in-budget and the over-budget ones of the present epoch (R212). -/
def Dev.flitKey (d : Dev) (k : Nat) (m : Msg) : Nat :=
  if !m.dynamic then 0
  else
    let e := d.cycle k / 1024
    if m.epoch < e then m.epoch else e + b2n (!m.inBudget)

/-- NET_LATE of die `k` counts a flit that it serves in an epoch after that of its injection (R212, R228). -/
def Dev.lateCount (d : Dev) (k : Nat) (m : Msg) : Dev :=
  if m.dynamic && decide (m.epoch < d.cycle k / 1024) then d.count .netLate [k] 31 0 else d

/-- Take the first element of the least key among those that satisfy `p`. -/
def takeBest {α : Type} (p : α → Bool) (key : α → Nat) (xs : List α) : Option (α × List α) :=
  match ((xs.filter p).map key).min? with
  | none => none
  | some k => takeFirst (fun x => p x && key x == k) xs

/-- Take, among the messages in flight that have arrived and satisfy `p`, the one that the network serves first; within a class the one
that has been in flight longest (R212). -/
def Dev.recv (d : Dev) (p : Msg → Bool) : Option (Msg × Dev) :=
  let key (m : Msg) : Nat := match agentDie m.dst with
    | some k => d.flitKey k m
    | none => 0
  (takeBest (fun m => m.ready && p m) key d.net).map fun r =>
    let d1 : Dev := { d with net := r.2 }
    (r.1, match agentDie r.1.dst with
      | some k => d1.lateCount k r.1
      | none => d1)

/-- The current free value: nothing constrains it; the counter then moves on. -/
def Dev.tickFree (d : Dev) : Dev := { d with free := d.free + 1 }

/-! ### Fault causes -/

/-- The severity of a fault code: 0 event, 1 contained, 2 die, 3 device (R397, R407). -/
def severity (code : Nat) : Nat :=
  let c := nfld code 11 0
  let h := nfld code 15 12
  if c = 0xE01 ∨ c = 0xE03 then 0
  else if c = 0xE02 then 1
  else if h = 1 then 1
  else if code ∈ [0x2102, 0x2105, 0x2107, 0x2201, 0x2202, 0x2203, 0x2301, 0x2302, 0x2403, 0x2503, 0x2506] then 1
  else if code ∈ [0x2405, 0x2505] then 2
  else if h = 2 then 0
  else if code ∈ [0x3101, 0x3203, 0x3204, 0x3205, 0x3206] then 1
  else if h = 3 then 0
  else if code ∈ [0x4102, 0x4302] then 1
  else if code = 0x4202 then 2
  else if h = 4 then 0
  else if code ∈ [0x5101, 0x5102] then 0
  else if code ∈ [0x5105, 0x5106, 0x5107, 0x5109] then 2
  else if h = 5 then 1
  else if code ∈ [0x6105, 0x6106, 0x6202, 0x6203, 0x6301, 0x6302] then 0
  else if h = 6 then 1
  else if code = 0x7301 then 2
  else if code ∈ [0x7102, 0x7202, 0x7302] then 3
  else if h = 7 then 0
  else if code = 0x8107 then 3
  else if h = 8 then 0
  else if code ∈ [0x9102, 0x9105, 0x9106, 0x9202, 0x9203, 0x9207] then 1
  else if code = 0x9204 then 3
  else if h = 9 then 0
  else if code = 0xA104 then 0
  else 1

/-- Put a fault report on its way to its collector (R393). -/
def Dev.report (d : Dev) (r : Report) : Dev := { d with reports := d.reports ++ [{ r with raisedAt := d.ticks }] }

/-- The ERR_STATUS registers of a bench, one source of faults. -/
def benchErrRegs : List RegName := [.bchErrStatus, .mrtErrStatus, .plnErrStatus, .tgrErrStatus, .clpErrStatus]

/-- The line pair of a source reads clear: no bit of its ERR_STATUS is set, or an auto-recovering source has returned since (R393, R404). -/
def Dev.pairClear (d : Dev) (reg : RegName) (ix : List Nat) (code : Nat) : Bool :=
  code ∈ [0x6101, 0x5103, 0x7201, 0x7203] ||
    if benchErrRegs.contains reg then benchErrRegs.all fun r => d.reg r ix == 0 else d.reg reg ix == 0

/-- Raise a cause: set a bit of an ERR_STATUS register and report it; the collector samples a pair that was clear in the next tick (R393,
R395). -/
def Dev.raise (d : Dev) (reg : RegName) (ix : List Nat) (bit : Nat) (r : Report) : Dev :=
  (d.setRegBit reg ix bit).report { r with seen := if d.pairClear reg ix r.code then some (d.time + 20) else none }

/-- The ERR_STATUS bit that a bench cause sets, if a register holds one (R61, R85, R133, R153, R227);
`thread` tells a thread-mode clamp wait from a jig wait for 0x1501. -/
def benchErrBit (b code : Nat) (thread : Bool) : Option (RegName × List Nat × Nat) :=
  if code = 0x1101 then some (.bchErrStatus, [b], 7)
  else if code = 0x1102 then some (.bchErrStatus, [b], 8)
  else if code = 0x1103 then some (.bchErrStatus, [b], 9)
  else if code = 0x1104 then some (.bchErrStatus, [b], 10)
  else if 0x2101 ≤ code ∧ code ≤ 0x2107 then some (.bchErrStatus, [b], code - 0x2101)
  else if 0x1201 ≤ code ∧ code ≤ 0x1205 then some (.mrtErrStatus, [b], code - 0x1201)
  else if code = 0x2201 then some (.mrtErrStatus, [b], 5)
  else if code = 0x2202 then some (.mrtErrStatus, [b], 6)
  else if 0x1301 ≤ code ∧ code ≤ 0x1303 then some (.plnErrStatus, [b], code - 0x1301)
  else if code = 0x2301 then some (.plnErrStatus, [b], 3)
  else if code = 0x2302 then some (.plnErrStatus, [b], 4)
  else if 0x1401 ≤ code ∧ code ≤ 0x1403 then some (.tgrErrStatus, [b], code - 0x1401)
  else if code = 0x1501 then some (if thread then (.tgrErrStatus, [b], 3) else (.clpErrStatus, [b], 0))
  else if 0x1502 ≤ code ∧ code ≤ 0x1504 then some (.clpErrStatus, [b], code - 0x1501)
  else if code = 0x6204 then some (.fabErrStatus, [], 9)
  else if code = 0x6205 then some (.fabErrStatus, [], 10)
  else none

/-- The master ID of a bench (R11). -/
def benchMaster (b : Nat) : Nat := dieOf b * 0x1000 + b % 576

/-- Raise a cause of bench `b`, charged to context `n`'s instance (R400): its ERR_STATUS bit and its
report through the die's collector (R393). -/
def Dev.benchCause (d : Dev) (b n code access addr : Nat) (thread : Bool := false) : Dev :=
  let d' := match benchErrBit b code thread with
    | some (r, ix, i) => d.setRegBit r ix i
    | none => d
  let c := (d.bench b).ctxs.getD n {}
  let clear := [RegName.bchErrStatus, .mrtErrStatus, .plnErrStatus, .tgrErrStatus, .clpErrStatus].all fun r => d.reg r [b] == 0
  d'.report { seen := if clear then some (d.time + 20) else none, code := code, master := benchMaster b, access := access, addr := addr,
              inst := if c.valid then some (c.prog / 16) else none, die := some (dieOf b) }

end Sys2Proof.Machine
end

