-- ==== Sys2Proof/Machine/BenchOps.lean ====
section
/-! DEFINITION. The operations of a bench that its jig core, engines and tile mover share: resident
contexts and bench addresses (R41, R43, R56), killing a context (R59), the range scoreboard (R51 to
R53), the L1, infeed and merge buffer (R44 to R50), and jig registers (R179, R181). -/

namespace Sys2Proof.Machine

/-! ### Contexts, registers and addresses -/

def Bench.ctxN (bn : Bench) (n : Nat) : BenchCtx := bn.ctxs.getD n {}
/-- The running context (meaningful while `running`). -/
def Bench.ctx (bn : Bench) : BenchCtx := bn.ctxN bn.runCtx
def Bench.modCtx (bn : Bench) (n : Nat) (f : BenchCtx → BenchCtx) : Bench :=
  { bn with ctxs := bn.ctxs.set n (f (bn.ctxN n)) }

/-- A jig register; j0 reads as zero (R179). -/
def Bench.j (bn : Bench) (r : Nat) : W32 := if r = 0 then 0 else bn.jregs.toList.getD r 0
/-- Write a jig register; writes to j0 are discarded (R179). -/
def Bench.setJ (bn : Bench) (r : Nat) (v : W32) : Bench :=
  if r = 0 then bn else { bn with jregs := bn.jregs.setIfInBounds r v }

/-- Local-store bytes under a split (R41). -/
def lsSize (split : Nat) : Nat :=
  match split with
  | 0 => 1048576
  | 1 => 917504
  | 2 => 786432
  | _ => 524288

/-- L1 sets under a split (R41). -/
def l1Sets (split : Nat) : Nat :=
  match split with
  | 0 => 0
  | 1 => 128
  | 2 => 256
  | _ => 512

/-- First byte of a context's partition in the tile store (R56). -/
def BenchCtx.base (c : BenchCtx) : Nat := c.partBase * 65536
/-- Usable bytes of a context's partition: less 96 KiB when SAVE is set (R56). -/
def BenchCtx.usable (c : BenchCtx) : Nat := c.partSize * 65536 - (if c.save then 98304 else 0)
/-- First byte of the save area in the tile store (R56). -/
def BenchCtx.saveBase (c : BenchCtx) : Nat := c.base + c.usable

/-- What a 48-bit bench address names (R43). -/
inductive Space where
  | store (off : Nat)
  | device (pa : Nat)
  | bad
deriving DecidableEq, Repr

/-- Interpret a bench address (R43). -/
def classify (a : Nat) : Space :=
  let t := nfld a 47 44
  if t = 0 then .device (nfld a 43 0)
  else if t = 8 ∧ nfld a 43 20 = 0 then .store (nfld a 19 0)
  else .bad

/-- The bench address of a local-store offset (R43). -/
def localAddr (off : Nat) : Nat := 0x8000_0000_0000 + off

/-- The 48-bit address of a register pair, plus a signed offset, with carry through 48 bits (R181). -/
def pairAddr (lo hi : W32) (imm : Int) : Nat :=
  wrapI 48 (((lo.toNat + (hi.toNat % 65536) * 2 ^ 32 : Nat) : Int) + imm)

/-! ### Killing a context -/

/-- Invalidate the whole L1 and the infeed; fills in flight become void (R44). DESIGN CHOICE (log 71): the pseudo-LRU trees are cleared
with the lines, here and where the split changes. -/
def Bench.invalidate (bn : Bench) : Bench :=
  { bn with l1 := ⟨[]⟩, plru := ⟨[]⟩, infeed := bn.infeed.filter (!·.held)
            fills := bn.fills.map fun f => { f with void := true } }

/-- What a kill does to the bench (R59, R83, R131, R151, R219, R225): the context's in-flight work is
dropped, the L1 and infeed are invalidated, its generation moves on, its groups and clamp counters are freed, and the register file,
scale slots and partition stay. A context that the bench holds loaded, running or at a boundary, loses its engines' state too. -/
def Bench.killCtx (bn : Bench) (n : Nat) : Bench :=
  let bn1 := bn.modCtx n fun c =>
    { c with gen := (c.gen + 1) % 16, killed := true, idle := true, savedOut := false, chain := false,
             chainStream := false, chainM := 0, chainN := 0, liveA := false, liveB := false,
             nextSet := false, seq := 0, savedSlots := ⟨[]⟩ }
  let bn2 := { bn1.invalidate with
    sb := bn1.sb.filter (·.ctx != n)
    tm := bn1.tm.filter (·.ctx != n)
    groups := bn1.groups.filter fun _ g => g.ctx != n
    clampVal := bn1.clampVal.filter fun k _ => bn1.clampOwner.getD k 4 != n
    clampOwner := bn1.clampOwner.filter fun _ o => o != n
    switchTo := if bn1.switchTo == some n then none else bn1.switchTo }
  if bn.runCtx == n then
    { bn2 with
      running := false, wait := .none, ended := false, jigSb := none
      infeed := [], fills := [], merge := []
      mortise := { gap := bn.mortise.gap }, outfeed := []
      plane := { bn2.plane with vl := 64, queue := [], pends := [] }
      slots := ⟨[]⟩, moves := [] }
  else bn2

/-- Kill a context for a cause that has been reported already, or for none of its own (R245, R270, R321); a loaded context's
sticky plane flags are cleared with it (R131). -/
def Dev.killQuiet (d : Dev) (b n code : Nat) : Dev :=
  let loaded := (d.bench b).runCtx == n
  let d := d.modBench b fun bn => (bn.killCtx n).modCtx n fun c => { c with killCause := code, killTime := d.ticks }
  if loaded then d.setReg .plnFlags [b] 0 else d

/-- Raise a cause and kill the context it belongs to (R59). -/
def Dev.kill (d : Dev) (b n code access addr : Nat) (thread : Bool := false) : Dev :=
  (d.benchCause b n code access addr thread).killQuiet b n code

/-- The kill of the running context that uses poisoned data: cause 0x3205, or the cause already reported that the answer
carries (R245, R270, R306). -/
def Dev.killPoison (d : Dev) (b code access addr : Nat) : Dev :=
  if code = 0 then d.kill b (d.bench b).runCtx 0x3205 access addr else d.killQuiet b (d.bench b).runCtx code

/-- Kill the running context. -/
def Dev.killRun (d : Dev) (b code access addr : Nat) : Dev := d.kill b (d.bench b).runCtx code access addr

/-! ### Range scoreboard (R51 to R53) -/

/-- A range to be entered in the scoreboard, before rounding. -/
structure SbRange where
  dev : Bool
  fabric : Bool := false
  first : Nat
  last : Nat
  wr : Bool
  l1 : Bool
deriving DecidableEq, Repr

/-- Round a range outward: 64 bytes in local store, 128 bytes in device memory (R51). -/
def SbRange.round (r : SbRange) : SbRange :=
  let m := if r.dev then 128 else 64
  { r with first := r.first / m * m, last := r.last / m * m + (m - 1) }

/-- Whether an older entry holds up a new access (R52). R52 lets a load through the L1 pass an older store through the L1 because the
store's bytes already come back to it; a store that still waits and has placed no byte holds the load up (R279; DEDUCED, log 16). -/
def sbConflicts (r : SbRange) (e : SbEntry) : Bool :=
  let r := r.round
  (r.dev == e.dev) && (r.fabric == e.fabric) && decide (r.first ≤ e.last) && decide (e.first ≤ r.last)
    && (r.wr || e.wr) && !(r.l1 && !r.wr && e.l1 && e.wr && e.placed)

/-- An access may enter: no conflicting older entry, and a free entry for each range (R52, R53). -/
def Bench.sbFree (bn : Bench) (rs : List SbRange) : Bool :=
  decide (bn.sb.length + rs.length ≤ 64) && rs.all fun r => bn.sb.all fun e => !sbConflicts r e

/-- The ranges can be entered although they must wait: only the entry count matters (R51). -/
def Bench.sbRoom (bn : Bench) (k : Nat) : Bool := decide (bn.sb.length + k ≤ 64)

/-- Enter a range for the running context; answers its id. -/
def Bench.sbEnter (bn : Bench) (r : SbRange) (group : Option Nat := none) (atomic : Bool := false) : Nat × Bench :=
  let q := r.round
  (bn.nextId, { bn with
    nextId := bn.nextId + 1
    sb := bn.sb ++ [{ id := bn.nextId, dev := q.dev, fabric := q.fabric, first := q.first, last := q.last,
                      wr := q.wr, l1 := q.l1, done := false, ctx := bn.runCtx, group := group, atomic := atomic }] })

/-- Enter several ranges; answers their ids. -/
def Bench.sbEnterAll (bn : Bench) (rs : List SbRange) (group : Option Nat := none) : List Nat × Bench :=
  match rs with
  | [] => ([], bn)
  | r :: rs =>
    let (i, bn1) := bn.sbEnter r group
    let (is, bn2) := bn1.sbEnterAll rs group
    (i :: is, bn2)

/-- Drop entries by id. -/
def Bench.sbDrop (bn : Bench) (ids : List Nat) : Bench := { bn with sb := bn.sb.filter fun e => !ids.contains e.id }

/-- Mark entries complete: they retire at the next SCOREBOARD_RETIRE (R53). -/
def Bench.sbDone (bn : Bench) (ids : List Nat) : Bench :=
  { bn with sb := bn.sb.map fun e => if ids.contains e.id then { e with done := true } else e }

/-- A store's bytes are all in the merge buffer. -/
def Bench.sbPlaced (bn : Bench) (id : Nat) : Bench :=
  { bn with sb := bn.sb.map fun e => if e.id == id then { e with placed := true } else e }

/-- An entry still waits on an older conflicting one (R52). -/
def Bench.sbWaits (bn : Bench) (id : Nat) : Bool :=
  match bn.sb.find? (·.id == id) with
  | none => false
  | some e =>
    bn.sb.any fun o => decide (o.id < id) &&
      sbConflicts { dev := e.dev, fabric := e.fabric, first := e.first, last := e.last, wr := e.wr, l1 := e.l1 } o

/-- The highest occupancy since the last read (BCH_SB_STAT.HIGH). -/
def Dev.sbNote (d : Dev) (b : Nat) : Dev :=
  let n := (d.bench b).sb.length
  if d.regFld .bchSbStat [b] 22 16 < n then d.setRegFld .bchSbStat [b] 22 16 n else d

/-- Entry `id` waits on an older conflicting entry outside `own` (R52). -/
def Bench.sbWaitsBut (bn : Bench) (id : Nat) (own : List Nat) : Bool :=
  match bn.sb.find? (·.id == id) with
  | none => false
  | some e =>
    bn.sb.any fun o => decide (o.id < id) && !own.contains o.id &&
      sbConflicts { dev := e.dev, fabric := e.fabric, first := e.first, last := e.last, wr := e.wr, l1 := e.l1 } o

/-! ### L1 and infeed -/

/-- The L1 way that holds a line, as its key 8 × set + way (R44). -/
def Bench.l1Find (bn : Bench) (line : Nat) : Option Nat :=
  let sets := l1Sets bn.split
  if sets = 0 then none
  else (List.range 8).findSome? fun w =>
    let k := 8 * (line % sets) + w
    match bn.l1.find? k with
    | some x => if x.line = line then some k else none
    | none => none

/-- Tile-store offset of an L1 way (R44). -/
def Bench.l1Off (bn : Bench) (k : Nat) : Nat := lsSize bn.split + k * 128

/-- Tree pseudo-LRU after using way `w` of 8: each node on the path points to the other half (R44). -/
def plruTouch (t w : Nat) : Nat :=
  let b2 := w / 4
  let b1 := w / 2 % 2
  let b0 := w % 2
  let t := nput t 0 0 (1 - b2)
  let t := nput t (1 + b2) (1 + b2) (1 - b1)
  let n := 3 + 2 * b2 + b1
  nput t n n (1 - b0)

/-- The way the tree points to. -/
def plruVictim (t : Nat) : Nat :=
  let b2 := nfld t 0 0
  let b1 := nfld t (1 + b2) (1 + b2)
  let n := 3 + 2 * b2 + b1
  4 * b2 + 2 * b1 + nfld t n n

def Bench.l1Touch (bn : Bench) (k : Nat) : Bench :=
  { bn with plru := bn.plru.set (k / 8) (plruTouch (bn.plru.getD (k / 8) 0) (k % 8)) }

/-- The way that a line takes: an empty way of its set that no fill in flight has chosen, otherwise the pseudo-LRU victim,
which is overwritten without write-back (R44, R46); none where the split has no L1. -/
def Bench.l1Choose (bn : Bench) (line : Nat) : Option Nat :=
  let sets := l1Sets bn.split
  if sets = 0 then none
  else
    let s := line % sets
    match (List.range 8).find? fun w => !bn.l1.has (8 * s + w) && !bn.fills.any fun f => f.way == some (8 * s + w) with
    | some w => some (8 * s + w)
    | none => some (8 * s + plruVictim (bn.plru.getD s 0))

/-- The victim way of a miss, chosen in the cycle after it (R46): the way holds nothing until its line arrives. DESIGN CHOICE
(log 71): the choice counts as the way's use. -/
def Bench.l1Reserve (bn : Bench) (line : Nat) : Option Nat × Bench :=
  match bn.l1Choose line with
  | none => (none, bn)
  | some k => (some k, ({ bn with l1 := bn.l1.erase k }).l1Touch k)

/-- Write a line into a way and mark it valid (R44, R46). -/
def Bench.l1Put (bn : Bench) (k line : Nat) (data : Line) (poison : Option Nat) : Bench :=
  { bn with l1 := bn.l1.set k { line := line, poison := poison }
            tile := bn.tile.writeMasked (bn.l1Off k) data (BitVec.allOnes 128) }

/-- Put a line into the L1: the way that holds it, the way chosen for it, or one chosen now. -/
def Bench.l1Insert (bn : Bench) (line : Nat) (data : Line) (poison : Option Nat) (way : Option Nat := none) : Bench :=
  match bn.l1Find line, way with
  | some k, _ => bn.l1Put k line data poison
  | none, some k => bn.l1Put k line data poison
  | none, none => match bn.l1Reserve line with
    | (some k, bn1) => bn1.l1Put k line data poison
    | (none, _) => bn

/-- The bench's own copies of lines that its tile mover or an atomic writes are dropped, so that no later load returns older bytes
(R279; DEDUCED, log 71: the spec does not say how). -/
def Bench.dropLines (bn : Bench) (lines : List Nat) : Bench :=
  { bn with l1 := bn.l1.filter fun _ x => !lines.contains x.line
            infeed := bn.infeed.filter fun e => !(e.held && lines.contains e.line)
            fills := bn.fills.map fun f => if lines.contains f.line then { f with void := true } else f }

/-- A load's lookup in L1 and infeed. A parity error discards the line and records the event; the
access then misses (R47, R50). A hit answers the line and, if it is poisoned, the cause reported for it. -/
def Dev.l1Access (d : Dev) (b line : Nat) (pe : Bool) (addr : Nat) : Option (Line × Option Nat) × Dev :=
  let bn := d.bench b
  match bn.l1Find line with
  | some k =>
    if pe then
      (none, (((d.modBench b fun x => { x with l1 := x.l1.erase k }).benchCause b bn.runCtx 0x2103 0x10 addr).count
        .bchErrCount [b] 31 16))
    else
      (some (bn.tile.readLine (bn.l1Off k), (bn.l1.getD k ⟨0, none⟩).poison), d.modBench b (·.l1Touch k))
  | none =>
    match bn.infeed.find? fun e => e.held && e.line == line with
    | some e =>
      let d1 := d.modBench b fun x => { x with infeed := x.infeed.filter fun y => !(y.held && y.line == line) }
      if pe then
        (none, ((d1.benchCause b bn.runCtx 0x2104 0x10 (line * 128)).count .bchErrCount [b] 31 16))
      else (some (e.data, e.poison), d1.modBench b (·.l1Insert line e.data e.poison))
    | none => (none, d)

/-! ### Merge buffer (R48, R49) -/

/-- Drain entries in allocation order up to the last one that satisfies `p` (R48). Parity is checked as each entry drains: the first
bad one and every other entry of the context are discarded and the context is killed; entries before it are already on their
way (R49, R59). -/
def Dev.drainWhere (d : Dev) (b : Nat) (p : MergeEntry → Bool) : Dev :=
  let bn := d.bench b
  let n := bn.merge.length - (bn.merge.reverse.takeWhile fun e => !p e).length
  let go := (bn.merge.take n).filter fun e => !e.draining
  let good := go.takeWhile fun e => !e.pe
  let d1 := (good.foldl (fun d e => d.send
    { kind := .benchWrite, src := .bench b, dst := .bay (bayOf b), line := e.line, data := e.data, be := e.be,
      tag := e.id, ctx := bn.runCtx, gen := bn.ctx.gen }) d).modBench b fun x =>
        { x with
          merge := x.merge.map fun e => if good.any (·.id == e.id) then { e with draining := true } else e }
  match go.find? (·.pe) with
  | none => d1
  | some e => d1.killRun b 0x2105 0x11 (e.line * 128)

/-- The oldest entry that no drain has started turns out to have bad parity: the next drain finds it (R49). -/
def Bench.mergeBad (bn : Bench) (mp : Bool) : Bench :=
  if mp then { bn with merge := modFirst (!·.draining) (fun e => { e with pe := true }) bn.merge } else bn

/-- Merge-buffer entries that no drain has started yet hold the line. -/
def Bench.mergeHolds (bn : Bench) (line : Nat) : Bool := bn.merge.any fun e => e.line == line && !e.draining

/-- Put a store's bytes, `dat` under the byte enables `be`, into the merge buffer, in an entry of the line that is not yet draining or a
free one; none when the buffer is full (R48). `mp`: the entry's parity goes bad (R49); `now` is the die's cycle count. -/
def Bench.mergeStore (bn : Bench) (line : Nat) (dat : Line) (be : ByteEn) (sb : Nat) (mp : Bool) (now : Nat) : Option Bench :=
  if bn.mergeHolds line then
    some { bn with
      merge := modFirst (fun e => e.line == line && !e.draining)
        (fun e => { e with data := mergeLine e.data dat be, be := e.be ||| be, sbs := e.sbs ++ [sb], pe := e.pe || mp, last := now }) bn.merge }
  else if bn.merge.length < 16 then
    some { bn with
      nextId := bn.nextId + 1
      merge := bn.merge ++ [{ id := bn.nextId, line := line, data := dat, be := be, draining := false, sbs := [sb], pe := mp, last := now }] }
  else none

/-- A store updates the L1 line and any infeed line of the same address at once, and is remembered for
fills in flight (R46, R48). DESIGN CHOICE (log 71): a store hit is no use of the line for the pseudo-LRU tree. -/
def Bench.storeThrough (bn : Bench) (line : Nat) (dat : Line) (be : ByteEn) : Bench :=
  let bn := match bn.l1Find line with
    | some k => { bn with tile := bn.tile.writeMasked (bn.l1Off k) dat be }
    | none => bn
  { bn with
    infeed := bn.infeed.map fun e => if e.held && e.line == line then { e with data := mergeLine e.data dat be } else e
    fills := bn.fills.map fun f => if f.line == line then { f with ovData := mergeLine f.ovData dat be, ovBe := f.ovBe ||| be } else f }

/-- While twelve or more entries are occupied the oldest drains (R48). -/
def Dev.mergeHigh (d : Dev) (b : Nat) : Dev :=
  match (d.bench b).merge with
  | [] => d
  | e :: _ => if (d.bench b).merge.length ≥ 12 ∧ e.draining = false then d.drainWhere b (·.id == e.id) else d

/-- The drains that a store can start: the entry that became full, and the oldest when twelve or more
are occupied (R48). -/
def Dev.mergeAfterStore (d : Dev) (b : Nat) : Dev :=
  let full (e : MergeEntry) : Bool := e.be == BitVec.allOnes 128 && !e.draining
  let d1 := if (d.bench b).merge.any full then d.drainWhere b full else d
  if (d1.bench b).running then d1.mergeHigh b else d1

/-- One store into a line: parity of the L1 or infeed line it hits, which is then discarded, write-through, merge buffer.
Answers false when the buffer is full and the storing unit stalls (R47, R48, R50). -/
def Dev.storeLine (d : Dev) (b line : Nat) (dat : Line) (be : ByteEn) (sb : Nat) (pe mp : Bool) (addr : Nat) : Bool × Dev :=
  let bn := d.bench b
  match bn.mergeStore line dat be sb mp (d.cycle (dieOf b)) with
  | none => (false, d)
  | some bn1 =>
    let d1 := match bn.l1Find line, pe with
      | some k, true => (d.setBench b { bn1 with l1 := bn1.l1.erase k }).benchCause b bn.runCtx 0x2103 0x11 addr
      | none, true =>
        if bn.infeed.any fun e => e.held && e.line == line then
          (d.setBench b { bn1 with infeed := bn1.infeed.filter fun e => !(e.held && e.line == line) }).benchCause b bn.runCtx 0x2104
            0x11 (line * 128)
        else d.setBench b bn1
      | _, false => d.setBench b bn1
    (true, (d1.modBench b (·.storeThrough line dat be)).mergeAfterStore b)

/-! ### Waiting for a fence (R283, R146) -/

/-- The writes that a release of the running context still waits for, among entries before `upto`:
device writes, device reads, and fabric writes at system scope. -/
def Bench.releaseDone (bn : Bench) (sys : Bool) (upto : Nat) : Bool :=
  bn.sb.all fun e => !(decide (e.id < upto) && e.ctx == bn.runCtx && !e.done &&
    ((e.dev && !e.fabric) || (sys && e.fabric && e.wr)))

/-- A jig fence that is complete lets issue go on, its acquire invalidating the L1 and infeed (R44, R283). -/
def Bench.jigFenceCheck (bn : Bench) : Bench :=
  match bn.wait with
  | .fence sys acq upto =>
    if bn.releaseDone sys upto then (if acq then { bn.invalidate with wait := .none } else { bn with wait := .none }) else bn
  | _ => bn

/-- Fences of the jig core and of the thread groups that are complete let their issuers go on (R146). -/
def Bench.fenceCheck (bn : Bench) : Bench :=
  let done (x : TFence) : Bool := bn.releaseDone x.sys x.upto
  let acq := bn.slots.cells.any fun c => c.2.fences.any fun x => done x && x.acq
  let bn1 := { bn with slots := bn.slots.mapVals fun _ g => { g with fences := g.fences.filter fun x => !done x } }
  (if acq then bn1.invalidate else bn1).jigFenceCheck

/-- Entries leave the scoreboard: whatever fence waited for them goes on (R53, R283). -/
def Bench.sbLeave (bn : Bench) (ids : List Nat) : Bench := (bn.sbDrop ids).fenceCheck

/-! ### Fills (R45, R46, R50) -/

/-- The read request of a fill, if it is not yet sent. -/
def Dev.sendFill (d : Dev) (b line : Nat) : Dev :=
  let bn := d.bench b
  (d.send { kind := .benchRead, src := .bench b, dst := .bay (bayOf b), line := line, tag := 0, ctx := bn.runCtx,
            gen := bn.ctx.gen }).modBench b fun x =>
    { x with fills := x.fills.map fun f => if f.line == line then { f with sent := true } else f }

/-- Request a fill for a demand miss of the jig core or plane engine, or for a prefetch: join a fill
of the line that is pending; otherwise send the request, or drain the line's merge-buffer entry first
and send it on the acknowledgement (R45, R46). A demand miss chooses its victim way (R46). -/
def Dev.requestFill (d : Dev) (b line : Nat) (jig plane infeed : Bool) : Dev :=
  let bn := d.bench b
  let demand := jig || plane
  match bn.fills.find? (·.line == line) with
  | some f =>
    let (way, bn1) := if demand && f.way.isNone then bn.l1Reserve line else (f.way, bn)
    d.setBench b { bn1 with
      fills := bn1.fills.map fun f =>
        if f.line == line then
          { f with jig := f.jig || jig, plane := f.plane || plane, infeed := f.infeed || infeed, way := way }
        else f }
  | none =>
    let (way, bn1) := if demand then bn.l1Reserve line else (none, bn)
    let f : Fill := { line := line, infeed := infeed, jig := jig, plane := plane, ctx := bn.runCtx, gen := bn.ctx.gen,
                      sent := false, void := false, ovData := 0, ovBe := 0, way := way }
    let d1 := d.setBench b { bn1 with fills := bn1.fills ++ [f] }
    if bn.merge.any (·.line == line) then d1.drainWhere b (·.line == line)
    else d1.sendFill b line

/-- A store in the merge buffer that an entered access waits for drains at once (R52). -/
def Dev.drainFor (d : Dev) (b : Nat) (ids : List Nat) : Dev :=
  let bn := d.bench b
  let holds (x : Nat) : Bool := bn.sb.any fun o => o.id == x && ids.any fun i => decide (x < i) && !ids.contains x &&
    match bn.sb.find? (·.id == i) with
    | some e => sbConflicts { dev := e.dev, fabric := e.fabric, first := e.first, last := e.last, wr := e.wr, l1 := e.l1 } o
    | none => false
  let blocks (e : MergeEntry) : Bool := !e.draining && e.sbs.any holds
  if bn.merge.any blocks then d.drainWhere b blocks else d

/-- Enter an access in the scoreboard, or find it again under `held`; a store in the merge buffer that it
waits for drains at once (R51 to R53). Answers the entry and whether the access may proceed; none while
all 64 entries are taken. -/
def Dev.sbTry (d : Dev) (b : Nat) (held : Option Nat) (r : SbRange) (group : Option Nat := none)
    (atomic : Bool := false) : Option (Nat × Bool) × Dev :=
  let ent : Option (Nat × Dev) := match held with
    | some i => some (i, d)
    | none =>
      if (d.bench b).sbRoom 1 then
        let (i, bn) := (d.bench b).sbEnter r group atomic
        some (i, (d.setBench b bn).sbNote b)
      else none
  match ent with
  | none => (none, d)
  | some (i, d1) => if (d1.bench b).sbWaits i then (some (i, false), d1.drainFor b [i]) else (some (i, true), d1)

/-! ### Vector registers -/

/-- A vector register (R115). -/
def Bench.vreg (bn : Bench) (n : Nat) : VReg := bn.plane.vregs.getD n 0
/-- Write a vector register; a register of zeros is not listed. -/
def Bench.setVreg (bn : Bench) (n : Nat) (v : VReg) : Bench :=
  { bn with plane := { bn.plane with vregs := if v = 0 then bn.plane.vregs.erase n else bn.plane.vregs.set n v } }

/-! ### Local store (R42) -/

/-- Read `n` bytes of the running context's local store from offset `off`. -/
def Bench.lsRead (bn : Bench) (off n : Nat) : List Byte := bn.tile.readBytes (bn.ctx.base + off) n
/-- Write bytes to the running context's local store. -/
def Bench.lsWrite (bn : Bench) (off : Nat) (bs : List Byte) : Bench :=
  { bn with tile := bn.tile.writeBytes (bn.ctx.base + off) bs }

/-- The resident context whose partition holds a tile-store offset (R42, R56). -/
def Bench.ownerAt (bn : Bench) (off : Nat) : Option (Nat × BenchCtx) :=
  bn.ctxs.cells.find? fun c => c.2.valid && decide (c.2.base ≤ off) && decide (off < c.2.base + c.2.partSize * 65536)

/-- What SECDED does as the local-store word at a tile-store offset is read: a single-bit error is corrected and recorded; a double-bit
error kills the context whose partition holds the word, if any does. The record's address is the word's local-store bench address in
that context, or its tile-store offset. Answers true when the access goes on (R42, R60). -/
def Dev.tileEcc (d : Dev) (b off access : Nat) (e : Ecc) : Bool × Dev :=
  let (n, addr) := match (d.bench b).ownerAt off with
    | some (n, c) => (some n, localAddr ((off - c.base) / 8 * 8))
    | none => (none, off / 8 * 8)
  match e with
  | .ok => (true, d)
  | .single => (true, (d.benchCause b (n.getD 4) 0x2101 access addr).count .bchErrCount [b] 15 0)
  | .double => match n with
    | some n => (false, d.kill b n 0x2102 access addr)
    | none => (true, d.benchCause b 4 0x2102 access addr)

/-- The same for a word of the running context's local store. -/
def Dev.lsEcc (d : Dev) (b off access : Nat) (e : Ecc) : Bool × Dev := d.tileEcc b ((d.bench b).ctx.base + off) access e

/-- The same for an access of many words, whose bytes are `first` to `last`: a finding outside them is none. -/
def Dev.lsEccAt (d : Dev) (b first last access : Nat) (x : EccAt) : Bool × Dev :=
  if first / 8 * 8 ≤ x.off ∧ x.off ≤ last then d.lsEcc b x.off access x.e else (true, d)

/-- The same for an access of several ranges of words. -/
def Dev.lsEccIn (d : Dev) (b : Nat) (spans : List (Nat × Nat)) (access : Nat) (x : EccAt) : Bool × Dev :=
  if spans.any fun p => decide (p.1 / 8 * 8 ≤ x.off) && decide (x.off ≤ p.2) then d.lsEcc b x.off access x.e else (true, d)

/-! ### Park records (R137, R139) -/

/-- First byte of a group's park record, as an offset in the partition. -/
def BenchCtx.parkAt (c : BenchCtx) (g : Nat) : Nat := c.parkBase * 1024 + 0x2400 * g
/-- A group has a park record only if it lies wholly inside the park area (R139). -/
def BenchCtx.hasPark (c : BenchCtx) (g : Nat) : Bool := decide (g < c.parkSize * 1024 / 0x2400)

/-- The watchdog counts of a group stop, or go on, as its die's count is `now`: starting counts become elapsed cycles and back (R148). -/
def TGroup.flip (g : TGroup) (now : Nat) : TGroup :=
  { g with wdog := if g.arrived = 0 then 0 else now - g.wdog, clampAt := g.clampAt.mapVals fun _ t => now - t }

/-- The bytes of a park record: registers, program counters, ages and masks (R137). -/
def parkBytes (regs : List VReg) (g : TGroup) : List Byte :=
  (regs.flatMap fun v => leBytes v.toNat 256) ++ (g.pcs.flatMap fun p => leBytes p 4) ++
    (g.ages.map (BitVec.ofNat 8)) ++ leBytes g.exited.toNat 8 ++ leBytes g.arrived.toNat 8 ++
    leBytes g.clampWait.toNat 8 ++ leBytes (g.wdog % 2 ^ 32) 8 ++ List.replicate 672 0

/-- A group as its park record holds it. -/
def parkedGroup (rd : Nat → Byte) (a num : Nat) : TGroup :=
  let n (o k : Nat) : Nat := leNat ((List.range k).map fun j => rd (a + o + j))
  { num := num, pcs := (List.range 64).map fun t => n (0x2000 + 4 * t) 4, ages := (List.range 64).map fun t => n (0x2100 + t) 1
    exited := BitVec.ofNat 64 (n 0x2140 8), arrived := BitVec.ofNat 64 (n 0x2148 8)
    clampWait := BitVec.ofNat 64 (n 0x2150 8), wdog := n 0x2158 4 }

end Sys2Proof.Machine
end

