-- ==== Sys2Proof/Machine/Crc.lean ====
section
/-! DEFINITION. The check codes of records: CRC-32 with the IEEE 802.3 polynomial (R238, R411) and CRC-64 with the ECMA-182
polynomial (R422), both reflected, with all-ones initial value and final inversion. -/

namespace Sys2Proof

/-- One bit of a reflected CRC of `n` bits with (reflected) polynomial `poly`. -/
def crcBit (poly r : Nat) : Nat := if r % 2 = 1 then (r / 2) ^^^ poly else r / 2

/-- One byte of a reflected CRC. -/
def crcByte (poly r : Nat) (b : Byte) : Nat :=
  (List.range 8).foldl (fun r _ => crcBit poly r) (r ^^^ b.toNat)

/-- A reflected CRC of `n` bits over bytes. -/
def crcOf (n poly : Nat) (bs : List Byte) : Nat :=
  (bs.foldl (crcByte poly) (2 ^ n - 1)) ^^^ (2 ^ n - 1)

/-- CRC-32, IEEE 802.3: the polynomial 0x04C11DB7, reflected. -/
def crc32 (bs : List Byte) : Nat := crcOf 32 0xEDB88320 bs

/-- CRC-64, ECMA-182: the polynomial 0x42F0E1EBA9EA3693, reflected (R422). -/
def crc64 (bs : List Byte) : Nat := crcOf 64 0xC96C5795D7870F42 bs

end Sys2Proof
end

