-- ==== Sys2Proof/Machine/FabricOps.lean ====
section
/-! DEFINITION. The fabric operations every sender shares: instances and their parts (R353, R354), finding a
peer (R374), routes (R385), sending sequenced and unsequenced frames (R375, R383), cutting transfers
into frames (R378), and the address checks of R373. -/

namespace Sys2Proof.Machine

/-! ### Instances -/

/-- log2 of the instance count (DRW_CFG.LOG2N, R353). -/
def Dev.log2N (d : Dev) : Nat := d.regFld .drwCfg [] 1 0
/-- The instance count N (R353). -/
def Dev.instN (d : Dev) : Nat := 2 ^ d.log2N
/-- The instance that owns a compute die (R353). -/
def Dev.instOfDie (d : Dev) (die : Nat) : Nat := die / (8 / d.instN)

/-- Lanes of a port under the grouping: the port count is 6, 12 or 24 (R367). -/
def Dev.portCount (d : Dev) : Nat :=
  match d.regFld .fabCfg [] 1 0 with
  | 0 => 6
  | 1 => 12
  | _ => 24

/-! ### Peers and routes -/

def Dev.peer (d : Dev) (i : Nat) : Peer := d.peers.getD i {}
def Dev.setPeer (d : Dev) (i : Nat) (p : Peer) : Dev := { d with peers := d.peers.set i p }
def Dev.modPeer (d : Dev) (i : Nat) (f : Peer → Peer) : Dev := d.setPeer i (f (d.peer i))
def Dev.port (d : Dev) (p : Nat) : FabPort := d.ports.getD p {}
def Dev.setPort (d : Dev) (p : Nat) (x : FabPort) : Dev := { d with ports := d.ports.set p x }
def Dev.modPort (d : Dev) (p : Nat) (f : FabPort → FabPort) : Dev := d.setPort p (f (d.port p))

/-- First peer index of an instance's share of the 4,096 entries (R374). -/
def Dev.peerBase (d : Dev) (inst : Nat) : Nat := inst * (4096 / d.instN)
/-- The instance that owns a peer entry (R374). -/
def Dev.instOfPeer (d : Dev) (i : Nat) : Nat := i / (4096 / d.instN)

def Dev.peerValid (d : Dev) (i : Nat) : Bool := d.regBit .fabPeerId [i] 31
def Dev.peerSystem (d : Dev) (i : Nat) : Bool := d.regBit .fabPeerId [i] 30
def Dev.peerDev (d : Dev) (i : Nat) : Nat := d.regFld .fabPeerId [i] 19 0

/-- The lowest-indexed valid entry of the instance that holds a device ID (R374). -/
def Dev.findPeer (d : Dev) (inst devId : Nat) : Option Nat :=
  let lo := d.peerBase inst
  (d.regs.keys.filterMap fun a => match regAt a with
    | some (.fabPeerId, [i]) => if lo ≤ i ∧ i < lo + 4096 / d.instN then some i else none
    | _ => none).find? fun i => d.peerValid i && d.peerDev i == devId

/-- The four route slots of a peer: valid bit and port, most preferred first (R385). -/
def Dev.routes (d : Dev) (i : Nat) : List (Bool × Nat) :=
  let w := d.reg .fabPeerRt [i]
  [(w.getLsbD 7, fld w 4 0), (w.getLsbD 15, fld w 12 8), (w.getLsbD 23, fld w 20 16), (w.getLsbD 31, fld w 28 24)]

/-- The instance a port belongs to: ports are dealt to the instances in equal consecutive shares when
there are at least as many as instances (R354). -/
def Dev.instOfPort (d : Dev) (p : Nat) : Nat := p * d.instN / d.portCount

/-- A route slot is usable: valid, its port UP and the peer's instance's own (R385). -/
def Dev.routeUp (d : Dev) (i : Nat) (r : Bool × Nat) : Bool :=
  r.1 && (d.port r.2).st == 3 && d.instOfPort r.2 == d.instOfPeer i

/-- The first listed port that is UP, as slot and port (R385). -/
def Dev.routePort (d : Dev) (i : Nat) : Option (Nat × Nat) :=
  ((d.routes i).zipIdx.find? fun r => d.routeUp i r.1).map fun r => (r.2, r.1.2)

/-- The peer cannot be reached: every operation to it fails (R384). -/
def Dev.peerDown (d : Dev) (i : Nat) : Bool := (d.peer i).st != 0

/-! ### Sending frames -/

def Dev.emit (d : Dev) (m : OutMsg) : Dev := { d with out := d.out ++ [m] }

/-- The stream an opcode travels in: true for the clamp stream (R376). -/
def clampStream (op : Nat) : Bool := op == 0x20 || op == 0x21
/-- An opcode travels in a stream (R376). -/
def inStream (op : Nat) : Bool := decide (op < 0x30)

/-- The class of an opcode: 0 bulk, 1 mirror, 2 control, 3 sync (R376). -/
def frameClass (op : Nat) : Nat :=
  if op = 0x20 ∨ op = 0x21 ∨ (0x40 ≤ op ∧ op ≤ 0x43) then 3
  else if op = 0x07 ∨ op = 0x08 ∨ (0x30 ≤ op ∧ op ≤ 0x34) then 2
  else if 0x10 ≤ op ∧ op ≤ 0x12 then 1
  else 0

/-- The bytes that a frame takes on the wire (R372). -/
def Dev.wireBytes (d : Dev) (f : Frame) : Nat := f.data.length + 54 + if d.regBit .fabQtag [] 31 then 4 else 0

/-- A frame has room in the 128 KiB replay buffer of a port; a LACK that it waits for may always be answered (R382). -/
def Dev.replayRoom (d : Dev) (x : FabPort) (f : Frame) : Bool :=
  x.replay.isEmpty || decide ((x.replay.map d.wireBytes).sum + d.wireBytes f ≤ 131072)

/-- Waiting frames that may leave next: those that no earlier frame of their own stream precedes. -/
def firstOfStream : List Frame → List Frame → List Frame
  | _, [] => []
  | seen, f :: fs =>
    let late := inStream f.op && seen.any fun g => inStream g.op && clampStream g.op == clampStream f.op && g.dst == f.dst
    if late then firstOfStream (seen ++ [f]) fs else f :: firstOfStream (seen ++ [f]) fs

/-- The waiting frame that a port sends next: sync, then control, then mirror and bulk in turn (R375). -/
def FabPort.nextFrame (x : FabPort) : Option Frame :=
  let fs := firstOfStream [] x.wait
  let pick (c : Nat) : Option Frame := fs.find? fun f => frameClass f.op == c
  (pick 3).orElse fun _ => (pick 2).orElse fun _ => if x.mirNext then (pick 1).orElse fun _ => pick 0 else (pick 0).orElse fun _ => pick 1

/-- A link-retry port sends a frame, which carries the next LSEQ and stays in the replay buffer until a LACK releases it (R382). -/
def Dev.putDirect (d : Dev) (p : Nat) (f : Frame) : Dev :=
  let x := d.port p
  let g := { f with lseq := x.lseqNext }
  (d.setPort p { x with
    lseqNext := (x.lseqNext + 1) % 256, replay := x.replay ++ [g]
    lackAt := if x.replay.isEmpty then d.ticks else x.lackAt
    mirNext := if frameClass f.op = 0 then true else if frameClass f.op = 1 then false else x.mirNext }).emit (.frame p g)

/-- Waiting frames leave while the replay buffer has room, at most `n` of them. -/
def Dev.portPump (p : Nat) : Nat → Dev → Dev
  | 0, d => d
  | n + 1, d => match (d.port p).nextFrame with
    | none => d
    | some f =>
      if d.replayRoom (d.port p) f then Dev.portPump p n ((d.modPort p fun x => { x with wait := x.wait.erase f }).putDirect p f)
      else d

/-- Put a frame on a port; on a link-retry port it may have to wait for room in the replay buffer (R375, R382). -/
def Dev.putOnPort (d : Dev) (p : Nat) (f : Frame) : Dev :=
  if (d.port p).direct then Dev.portPump p ((d.port p).wait.length + 1) (d.modPort p fun x => { x with wait := x.wait ++ [f] })
  else d.emit (.frame p f)

def Peer.stream (p : Peer) (c : Bool) : Stream := if c then p.clamp else p.bulk
def Peer.setStream (p : Peer) (c : Bool) (s : Stream) : Peer := if c then { p with clamp := s } else { p with bulk := s }

/-- Send a frame that no sequence protects (ACK, NAK, RESYNC) to a peer. -/
def Dev.sendPlain (d : Dev) (i : Nat) (f : Frame) : Dev :=
  match d.routePort i with
  | some (_, p) => d.putOnPort p f
  | none => d

/-- The instance's own device ID. -/
def Dev.ownId (d : Dev) (inst : Nat) : Nat := d.regFld .fabDevid [inst] 19 0

/-- The highest SEQ that a stream acknowledges: what has been accepted, short of a request whose answer still waits; all ones before
the first frame (R383). -/
def Stream.ackVal (s : Stream) : Nat :=
  match (s.backlog.filterMap (·.answers)).head? with
  | some a => (a + 2 ^ 32 - 1) % 2 ^ 32
  | none => (s.expected + 2 ^ 32 - 1) % 2 ^ 32

/-- The route slot and port that a stream sends on: the one in use while it is UP and frames are unacknowledged, otherwise the
first listed port that is UP (R385). -/
def Dev.streamPort (d : Dev) (i : Nat) (s : Stream) : Option (Nat × Nat) :=
  match (d.routes i)[s.slot]? with
  | some r => if !s.unacked.isEmpty && d.routeUp i r then some (s.slot, r.2) else d.routePort i
  | none => d.routePort i

/-- Send a stream's unacknowledged frames again from the oldest one (R383, R385). -/
def Dev.resend (d : Dev) (i : Nat) (c : Bool) : Dev :=
  let s := (d.peer i).stream c
  match d.streamPort i s with
  | none => d
  | some (sl, p) =>
    let sent := s.unacked.map fun x => { x with sentAt := d.ticks }
    let d1 := d.modPeer i fun q => q.setStream c { s with unacked := sent, slot := sl, ackDue := s.ackDue && s.unacked.isEmpty }
    s.unacked.foldl (fun d x => d.putOnPort p { x.frame with ack := s.ackVal }) d1

/-- Move backlog frames into the window and onto the port while fewer than 256 are unacknowledged (R383). -/
def Dev.pump (d : Dev) (i : Nat) (c : Bool) : Nat → Dev
  | 0 => d
  | n + 1 =>
    let s := (d.peer i).stream c
    match s.backlog with
    | [] => d
    | x :: xs =>
      if s.unacked.length < 256 && !d.peerDown i then
        let s1 := { s with next := (s.next + 1) % 2 ^ 32, backlog := xs }
        let f := { x.frame with seq := s.next, ack := s1.ackVal }
        let port := d.streamPort i s
        let s2 : Stream := { s1 with
          unacked := s.unacked ++ [{ x with frame := f, sentAt := d.ticks }], ackDue := s.ackDue && port.isNone
          slot := (port.map (·.1)).getD s.slot }
        let d1 := d.modPeer i fun p => p.setStream c s2
        (match port with
          | some (_, p) => d1.putOnPort p f
          | none => d1).pump i c n
      else d

/-- Send a sequenced frame to peer `i` on its opcode's stream; `ans` is the request that it answers (R383). -/
def Dev.sendSeq (d : Dev) (i : Nat) (f : Frame) (o : FabOwner) (ans : Option Nat := none) : Dev :=
  let c := clampStream f.op
  let d1 := d.modPeer i fun p =>
    let s := p.stream c
    p.setStream c { s with backlog := s.backlog ++ [{ frame := f, owner := o, answers := ans }] }
  d1.pump i c ((d1.peer i).stream c).backlog.length

/-- The master ID of the fabric engine that serves a source device (R378). -/
def fabMaster (src : Nat) : Nat := 0xF829 + src % 16

/-- A cause of the fabric engine (R390). -/
def Dev.fabCause (d : Dev) (inst src code bit access addr : Nat) : Dev :=
  d.raise .fabErrStatus [] bit { code := code, master := fabMaster src, access := access, addr := addr, inst := some inst, die := none }

/-! ### Addresses and cutting (R373, R378) -/

/-- The parts of a fabric address: device ID, alias, local address. -/
def fabDev (a : Nat) : Nat := nfld a 63 44
def fabAlias (a : Nat) : Nat := nfld a 43 40
def fabLocal (a : Nat) : Nat := nfld a 43 0

/-- The operation (0 ADD, 1 MIN, 2 MAX) and type (0 FP32, 1 BF16, 2 INT32) of a reduce-into alias (R373). -/
def aliasOp (al : Nat) : Nat := (al - 1) / 3
def aliasTy (al : Nat) : Nat := (al - 1) % 3

/-- The peer a fabric access goes to, when the requester's checks pass: no read with an alias, no
reserved alias, a valid entry, and no reduction to an outer peer (R373, R374). -/
def Dev.fabTarget (d : Dev) (inst a : Nat) (write : Bool) : Option Nat :=
  let al := fabAlias a
  if (!write && al != 0) || 10 ≤ al then none
  else match d.findPeer inst (fabDev a) with
    | none => none
    | some i => if al != 0 && !d.peerSystem i then none else some i

/-- Cut `n` bytes from target address `a` into pieces of at most 4,096 bytes that do not cross a 4 KiB
boundary: offsets and lengths (R378). -/
def cutFrames (a : Nat) (off n : Nat) : Nat → List (Nat × Nat)
  | 0 => []
  | fuel + 1 =>
    if n = 0 then []
    else
      let k := min n (4096 - (a + off) % 4096)
      (off, k) :: cutFrames a (off + k) (n - k) fuel

/-- Send the bytes of a write or reduce-into to a fabric address as frames; answers how many (R373, R378). -/
def Dev.fabWrite (d : Dev) (inst i a : Nat) (bs : List Byte) (o : FabOwner) : Nat × Dev :=
  let cuts := cutFrames (nfld a 39 0) 0 bs.length (bs.length / 4096 + 2)
  (cuts.length, cuts.foldl (fun d c => d.sendSeq i
    { op := if fabAlias a = 0 then 0x01 else 0x04, src := d.ownId inst, dst := fabDev a, laddr := fabLocal a + c.1,
      len := c.2, data := (bs.drop c.1).take c.2 } o) d)

/-- Ask a peer for `n` bytes from a fabric address; answers the number of requests (R378). -/
def Dev.fabRead (d : Dev) (inst i a n row : Nat) (o : FabOwner) : Nat × Dev :=
  let cuts := cutFrames (nfld a 39 0) 0 n (n / 4096 + 2)
  (cuts.length, cuts.foldl (fun d c =>
    let t := d.nextTag % 65536
    let d1 := { d with
      nextTag := d.nextTag + 1
      fabReads := d.fabReads.set t { owner := o, peer := i, laddr := fabLocal a + c.1, len := c.2, off := c.1, row := row } }
    d1.sendSeq i { op := 0x02, src := d.ownId inst, dst := fabDev a, laddr := fabLocal a + c.1, len := c.2, tag := t } o) d)

/-! ### Frames on the wire (R372, R375, R376) -/

/-- The transport header. -/
def Frame.header (f : Frame) : List Byte :=
  leBytes 1 1 ++ leBytes f.op 1 ++ leBytes (b2n f.poison) 1 ++ leBytes f.lseq 1 ++ leBytes (f.src % 2 ^ 20) 4 ++ leBytes (f.dst % 2 ^ 20) 4 ++
    leBytes f.seq 4 ++ leBytes f.ack 4 ++ leBytes f.laddr 8 ++ leBytes f.len 2 ++ leBytes f.tag 2

/-- The bytes of a number, the most significant first, as a MAC header has them. -/
def beBytes (v n : Nat) : List Byte := (leBytes v n).reverse

/-- The MAC address of endpoint `i`. -/
def Dev.macOf (d : Dev) (i : Nat) : Nat := d.regFld .fabMacpfx [] 27 0 * 2 ^ 20 + i % 2 ^ 20

/-- The 802.1Q tag of a class, while FAB_QTAG.EN is set. -/
def Dev.vlanTag (d : Dev) (c : Nat) : List Byte :=
  if d.regBit .fabQtag [] 31 then
    beBytes 0x8100 2 ++ beBytes (d.regFld .fabQtag [] (match c with
      | 0 => 2
      | 1 => 6
      | 2 => 10
      | _ => 14) (match c with
      | 0 => 0
      | 1 => 4
      | 2 => 8
      | _ => 12) * 2 ^ 13 + d.regFld .fabQtag [] 27 16) 2
  else []

/-- The bytes of a frame as a port sends it, up to its end-to-end CRC; the FCS that follows is the MAC's. -/
def Dev.frameBytes (d : Dev) (f : Frame) : List Byte :=
  let body := f.header ++ f.data
  beBytes (d.macOf f.dst) 6 ++ beBytes (d.macOf f.src) 6 ++ d.vlanTag (frameClass f.op) ++ beBytes (d.regFld .fabCfg [] 31 16) 2 ++ body ++
    leBytes (crc32 body) 4

end Sys2Proof.Machine
end

