-- ==== Sys2Proof/Machine/ClampOps.lean ====
section
/-! DEFINITION. Clamps (R218 to R225, R386): counters and their owners, device clamp IDs, broadcasts down a die,
system clamps over the fabric, and what a failed ID does to its waiters. -/

namespace Sys2Proof.Machine

/-- A clamp's value has reached a target (R218). -/
def clampReached (v t : W32) : Bool := decide ((v - t).toNat < 2 ^ 31)

/-! ### Device clamp IDs (R220, R229) -/

def Dev.clampValid (d : Dev) (i : Nat) : Bool := d.regBit .clpIdcfg [i] 31
def Dev.clampFailed (d : Dev) (i : Nat) : Bool := d.regBit .clpIdcfg [i] 30
/-- Device scope; otherwise die scope. -/
def Dev.clampDevScope (d : Dev) (i : Nat) : Bool := d.regBit .clpIdcfg [i] 29
def Dev.clampRootDie (d : Dev) (i : Nat) : Nat := d.regFld .clpIdcfg [i] 26 24
def Dev.clampInst (d : Dev) (i : Nat) : Nat := d.regFld .clpIdcfg [i] 18 16

/-- The physical ID of an instance-relative one (R220). -/
def Dev.clampPhys (d : Dev) (inst idx : Nat) : Nat := inst * (256 / d.instN) + idx

/-- An instruction of the running context of bench `b` may not name instance-relative ID `idx` (R220). -/
def Dev.clampBad (d : Dev) (b idx : Nat) : Bool :=
  let inst := (d.bench b).ctx.prog / 16
  let i := d.clampPhys inst idx
  decide (256 / d.instN ≤ idx) || !d.clampValid i || d.clampInst i != inst ||
    (!d.clampDevScope i && d.clampRootDie i != dieOf b)

/-- The dies that hold shadows of an ID (R220, R221). -/
def Dev.clampDies (d : Dev) (i : Nat) : List Nat :=
  if d.clampDevScope i then (List.range 8).filter fun k => d.instOfDie k == d.clampInst i else [d.clampRootDie i]

/-- Start the broadcast of an ID's value down every die in its scope that is UP; a queued broadcast of the ID is replaced
by the newer one (R221). -/
def Dev.clampBroadcast (d : Dev) (i : Nat) (v : W32) : Dev :=
  let dies := (d.clampDies i).filter fun k => (d.die k).st == 2
  { d with
    clampDown := (d.clampDown.filter fun x => !(x.id == i && dies.contains x.die)) ++
      dies.map fun k => { die := k, id := i, value := v, left := BitVec.allOnes 144 } }

/-- The root of an ID takes a value and broadcasts it (R221). -/
def Dev.clampTake (d : Dev) (i : Nat) (v : W32) : Dev := (d.setReg .clpIdval [i] v).clampBroadcast i v

/-! ### System clamps (R386) -/

def Dev.xclp (d : Dev) (i : Nat) : Bool := d.regBit .fabXclpCfg [i] 31
def Dev.xclpRoot (d : Dev) (i : Nat) : Bool := d.regBit .fabXclpCfg [i] 30
def Dev.xclpParent (d : Dev) (i : Nat) : Nat := d.regFld .fabXclpCfg [i] 11 0
/-- Peer indices of the valid children. -/
def Dev.xclpKids (d : Dev) (i : Nat) : List Nat :=
  ([(RegName.fabXclpKids0, 15, 11, 0), (.fabXclpKids0, 31, 27, 16), (.fabXclpKids1, 15, 11, 0), (.fabXclpKids1, 31, 27, 16)]
    : List (RegName × Nat × Nat × Nat)).filterMap fun k =>
      if d.regBit k.1 [i] k.2.1 then some (d.regFld k.1 [i] k.2.2.1 k.2.2.2) else none

/-- The payload of a clamp frame: physical ID, then the sum or value (R376). -/
def clampData (i : Nat) (v : W32) : List Byte := leBytes i 4 ++ leBytes v.toNat 4
def clampDataId (bs : List Byte) : Nat := leNat (bs.take 4)
def clampDataVal (bs : List Byte) : W32 := BitVec.ofNat 32 (leNat ((bs.drop 4).take 4))

/-! ### Waiters -/

/-- The instruction at which a thread of a group stands. -/
def Bench.threadAt (bn : Bench) (c : BenchCtx) (t : Nat) (g : TGroup) : W64 :=
  BitVec.ofNat 64 (bn.istore.readN (c.istrBase * 1024 + g.pcs.getD t 0) 8)

/-- The clamp that the thread of a group waits for: its CWAIT instruction is at its program counter (R148, R195); device
ID, index, and target. -/
def Bench.threadClamp (bn : Bench) (c : BenchCtx) (slot t : Nat) (g : TGroup) : Bool × Nat × W32 :=
  let w := bn.threadAt c t g
  (w.getLsbD 31, fld w 39 32, BitVec.ofNat 32 (laneN (bn.vreg (32 * slot + fld w 21 17)) 32 t))

/-- Threads of a group that wait at a clamp. -/
def TGroup.clampThreads (g : TGroup) : List Nat := (List.range 64).filter fun t => g.clampWait.getLsbD t

/-- The live groups of context `n`, active on the bench, switched out with it, or parked in its partition (R137, R150). -/
def Bench.groupsOf (bn : Bench) (n : Nat) : List TGroup :=
  let c := bn.ctxN n
  (if bn.runCtx == n then bn.slots.cells.map (·.2) else []) ++ c.savedSlots.cells.map (·.2) ++
    bn.groups.cells.filterMap fun x =>
      if x.2.ctx == n && x.2.slot.isNone then some (parkedGroup (fun o => bn.tile.read (c.base + o)) (c.parkAt x.1) x.1) else none

/-- A context waits on device clamp ID `idx`: its jig core, or a thread of one of its groups. -/
def Bench.waitsOn (bn : Bench) (n idx : Nat) : Bool :=
  (bn.running && bn.runCtx == n && match bn.wait with
    | .clamp true i _ _ => i == idx
    | _ => false) ||
  (bn.groupsOf n).any fun g => g.clampThreads.any fun t =>
    let w := bn.threadAt (bn.ctxN n) t g
    w.getLsbD 31 && fld w 39 32 == idx

/-- An ID is marked FAILED: every context that waits on it is killed with 0x1504 (R224). -/
def Dev.clampFail (d : Dev) (i : Nat) : Dev :=
  let inst := d.clampInst i
  let idx := i - d.clampPhys inst 0
  let d1 := d.setRegBit .clpIdcfg [i] 30
  d.benches.keys.foldl (fun d b => (List.range 4).foldl (fun d n =>
    let bn := d.bench b
    let c := bn.ctxN n
    if c.valid && !c.killed && c.prog / 16 == inst && (d.clampDies i).contains (dieOf b) && bn.waitsOn n idx
    then d.kill b n 0x1504 0x00 0 else d) d) d1

/-! ### Messages between roots -/

/-- Send a clamp frame to a peer. One of the same ID and opcode that still waits takes the sum (CLAMP_UP) or the newer
value (CLAMP_DOWN) instead (R386). The ID fails with a peer that cannot be reached (R384); to an entry that is not valid or has SYSTEM clear
nothing is sent, which is cause 0x6205 (R374; DESIGN CHOICE, log 29: no context and no command is its requester). -/
def Dev.sendClamp (d : Dev) (inst p op i : Nat) (v : W32) : Dev :=
  let same (x : SentFrame) : Bool := x.frame.op == op && clampDataId x.frame.data == i
  if d.peerDown p then if d.clampValid i then d.clampFail i else d
  else if !d.peerValid p || !d.peerSystem p then d.fabCause inst (d.peerDev p) 0x6205 10 0x71 0
  else if (d.peer p).clamp.backlog.any same then
    d.modPeer p fun q =>
      { q with
        clamp := { q.clamp with
          backlog := modFirst same (fun x =>
            { x with frame := { x.frame with data := clampData i (if op = 0x20 then clampDataVal x.frame.data + v else v) } })
            q.clamp.backlog } }
  else d.sendSeq p { op := op, src := d.ownId inst, dst := d.peerDev p, len := 8, data := clampData i v } (.clamp i)

/-- A CLAMP_DOWN of the value to every child (R386). -/
def Dev.clampToKids (d : Dev) (i : Nat) (v : W32) : Dev :=
  (d.xclpKids i).foldl (fun d p => d.sendClamp (d.clampInst i) p 0x21 i v) d

/-- A sum reaches the root of an ID: it is added to the value and broadcast; a system clamp's sum goes to the parent, or
from the root device to the children too (R221, R386). Nothing reaches a FAILED ID (R224). -/
def Dev.clampApply (d : Dev) (i : Nat) (sum : W32) : Dev :=
  if !d.clampValid i || d.clampFailed i then d
  else if d.clampDevScope i && d.xclp i && !d.xclpRoot i then d.sendClamp (d.clampInst i) (d.xclpParent i) 0x20 i sum
  else
    let v := d.reg .clpIdval [i] + sum
    let d1 := d.clampTake i v
    if d.clampDevScope i && d.xclp i then d1.clampToKids i v else d1

/-- The command processor configures an ID at LAUNCH: its value is cleared, FAILED too, and 0 is broadcast (R220, R386). -/
def Dev.clampConfig (d : Dev) (i : Nat) (devScope : Bool) (root inst : Nat) : Dev :=
  let d1 := d.setReg .clpIdcfg [i] (BitVec.ofNat 32 (2 ^ 31 + b2n devScope * 2 ^ 29 + (if devScope then 0 else root) * 2 ^ 24 + inst * 2 ^ 16))
  let d2 := { d1 with net := d1.net.filter fun (m : Msg) => !(m.kind == MsgKind.clampUp && m.v0 == i) }
  let d3 := d2.clampTake i 0
  if devScope && d3.xclp i && d3.xclpRoot i then d3.clampToKids i 0 else d3

/-- A single-bit or double-bit finding of a clamp message on a die: counted, or recorded with the ID marked FAILED.
Answers true when the message is delivered (R224). -/
def Dev.clampEcc (d : Dev) (die i : Nat) (e : Ecc) : Bool × Dev :=
  let rep (code : Nat) : Report :=
    { code := code, master := die * 0x1000 + 0x842, access := 0, addr := 0, inst := some (d.clampInst i), die := some die }
  match e with
  | .ok => (true, d)
  | .single => (true, (d.raise .netErrStatus [die] 4 (rep 0x4301)).count .netCeCount [die] 15 0)
  | .double => (false, (d.raise .netErrStatus [die] 5 (rep 0x4302)).clampFail i)

/-- Take every message that satisfies `p`, at most `k` of them. -/
def takeUpTo {α : Type} (p : α → Bool) : Nat → List α → List α × List α
  | _, [] => ([], [])
  | 0, xs => ([], xs)
  | k + 1, x :: xs =>
    if p x then let r := takeUpTo p k xs; (x :: r.1, r.2)
    else let r := takeUpTo p (k + 1) xs; (r.1, x :: r.2)

end Sys2Proof.Machine
end

