-- ==== Sys2Proof/Machine/Numbers.lean ====
section
/-! DEFINITION. Numbers: the element formats (R86), exact values, rounding to nearest even and stochastic
rounding (R103), and the FP32 operations that round once (R95, R119, R265). A finite value is held exactly
as a sign and `m × 2^e`; arithmetic is exact on these and one rounding ends it. -/

namespace Sys2Proof.Machine

/-- What an encoding means: a NaN, an infinity, or a finite number `m × 2^e` with a sign. -/
inductive Fv where
  | nan
  | inf (neg : Bool)
  | fin (neg : Bool) (m : Nat) (e : Int)
deriving DecidableEq, Repr

/-- How a format uses its top exponent: IEEE infinities and NaNs, the one NaN of E4M3, or neither. -/
inductive FpKind where
  | ieee | e4m3 | finite
deriving DecidableEq, Repr

/-- A binary floating-point format: exponent bits, mantissa bits, use of the top exponent. -/
structure FpFmt where
  eb : Nat
  mb : Nat
  kind : FpKind
deriving DecidableEq, Repr

def fp32 : FpFmt := ⟨8, 23, .ieee⟩
def bf16 : FpFmt := ⟨8, 7, .ieee⟩
def fp16 : FpFmt := ⟨5, 10, .ieee⟩
def fp8E4m3 : FpFmt := ⟨4, 3, .e4m3⟩
def fp8E5m2 : FpFmt := ⟨5, 2, .ieee⟩
def mxE2m1 : FpFmt := ⟨2, 1, .finite⟩
def mxE2m3 : FpFmt := ⟨2, 3, .finite⟩
def mxE3m2 : FpFmt := ⟨3, 2, .finite⟩

/-- Bits of an encoding (R86). -/
def FpFmt.bits (f : FpFmt) : Nat := 1 + f.eb + f.mb
def FpFmt.bias (f : FpFmt) : Int := (((2 ^ (f.eb - 1) : Nat)) : Int) - 1
/-- Exponent of the unit of the subnormals. -/
def FpFmt.qmin (f : FpFmt) : Int := 1 - f.bias - f.mb
/-- The first magnitude code above the largest finite one. -/
def FpFmt.top (f : FpFmt) : Nat :=
  match f.kind with
  | .ieee => (2 ^ f.eb - 1) * 2 ^ f.mb
  | .e4m3 => 0x7F
  | .finite => 2 ^ (f.eb + f.mb)
/-- The canonical NaN (R100, R119). -/
def FpFmt.nanCode (f : FpFmt) : Nat :=
  match f.kind with
  | .ieee => (2 ^ f.eb - 1) * 2 ^ f.mb + 2 ^ (f.mb - 1)
  | _ => 0x7F

/-- The value of an encoding (R86). -/
def FpFmt.dec (f : FpFmt) (w : Nat) : Fv :=
  let s := w.testBit (f.eb + f.mb)
  let ef := nfld w (f.eb + f.mb - 1) f.mb
  let mf := w % 2 ^ f.mb
  if f.kind = .ieee ∧ ef = 2 ^ f.eb - 1 then (if mf = 0 then .inf s else .nan)
  else if f.kind = .e4m3 ∧ ef = 15 ∧ mf = 7 then .nan
  else if ef = 0 then .fin s mf f.qmin
  else .fin s (2 ^ f.mb + mf) (((ef : Int)) - f.bias - f.mb)

/-- Shift a magnitude right by `d` bits, rounding to nearest, ties to even. -/
def rneShift (m d : Nat) : Nat :=
  let q := m >>> d
  let r := m % 2 ^ d
  let half := 2 ^ d / 2
  if d = 0 then m else if r > half ∨ (r = half ∧ q % 2 = 1) then q + 1 else q

/-- Stochastic rounding of a magnitude shifted right by `d` bits with random bits `r` (R103). -/
def srShift (m d r : Nat) : Nat :=
  let t := m >>> d
  let rest := m % 2 ^ d
  let f := rest * 65536 / 2 ^ d
  if rest = 0 then t else if 65536 ≤ f + r then t + 1 else t

/-- The exponent of the last place that `m × 2^e` keeps in a format, subnormals taken into account. -/
def FpFmt.ulp (f : FpFmt) (m : Nat) (e : Int) : Int := max (e + Nat.log2 m - f.mb) f.qmin

/-- Magnitude code of `m × 2^e` rounded once, with exponents above the format's own allowed (the caller
compares with `top`): to nearest even, or stochastically with the given random bits (R103). -/
def FpFmt.roundMag (f : FpFmt) (m : Nat) (e : Int) (sr : Option Nat) : Nat :=
  if m = 0 then 0
  else
    let q := f.ulp m e
    let k :=
      if q ≤ e then m <<< (e - q).toNat
      else match sr with
        | none => rneShift m (q - e).toNat
        | some r => srShift m (q - e).toNat r
    (q - f.qmin).toNat * 2 ^ f.mb + k

/-- Put a sign on a magnitude code. -/
def FpFmt.withSign (f : FpFmt) (neg : Bool) (c : Nat) : Nat := if neg then c + 2 ^ (f.eb + f.mb) else c

/-- Encode with round to nearest even; overflow gives an infinity and answers true (R119). For the IEEE formats. -/
def FpFmt.enc (f : FpFmt) (v : Fv) : Nat × Bool :=
  match v with
  | .nan => (f.nanCode, false)
  | .inf s => (f.withSign s f.top, false)
  | .fin s m e =>
    let c := f.roundMag m e none
    if f.top ≤ c then (f.withSign s f.top, true) else (f.withSign s c, false)

/-! ### Exact arithmetic -/

def Fv.isNan : Fv → Bool
  | .nan => true
  | _ => false

def Fv.isZero : Fv → Bool
  | .fin _ 0 _ => true
  | _ => false

def Fv.sign : Fv → Bool
  | .nan => false
  | .inf s => s
  | .fin s _ _ => s

def Fv.neg : Fv → Fv
  | .nan => .nan
  | .inf s => .inf !s
  | .fin s m e => .fin (!s) m e

/-- A signed integer multiple of 2^e; a zero takes the given sign. -/
def Fv.ofInt (i : Int) (e : Int) (zneg : Bool) : Fv :=
  if i = 0 then .fin zneg 0 e else .fin (decide (i < 0)) i.natAbs e

/-- The signed multiple of 2^e of a sign and magnitude given at exponent `e0 ≥ e`. -/
def signedAt (s : Bool) (m : Nat) (e0 e : Int) : Int :=
  let x : Int := (m <<< (e0 - e).toNat : Nat)
  if s then -x else x

/-- Exact sum. Opposite infinities give a NaN; an exact zero from a cancellation is +0. -/
def Fv.add : Fv → Fv → Fv
  | .nan, _ => .nan
  | _, .nan => .nan
  | .inf s, .inf t => if s = t then .inf s else .nan
  | .inf s, _ => .inf s
  | _, .inf t => .inf t
  | .fin s m e, .fin t n g =>
    let q := min e g
    Fv.ofInt (signedAt s m e q + signedAt t n g q) q (m == 0 && n == 0 && s && t)

/-- Exact product. An infinity times zero gives a NaN. -/
def Fv.mul : Fv → Fv → Fv
  | .nan, _ => .nan
  | _, .nan => .nan
  | .inf s, .inf t => .inf (s != t)
  | .inf s, .fin t n _ => if n = 0 then .nan else .inf (s != t)
  | .fin s m _, .inf t => if m = 0 then .nan else .inf (s != t)
  | .fin s m e, .fin t n g => .fin (s != t) (m * n) (e + g)

/-- Compare by value, −0 equal to +0; none when either is a NaN. -/
def Fv.cmp : Fv → Fv → Option Ordering
  | .nan, _ => none
  | _, .nan => none
  | .inf s, .inf t => some (if s = t then .eq else if s then .lt else .gt)
  | .inf s, .fin _ _ _ => some (if s then .lt else .gt)
  | .fin _ _ _, .inf t => some (if t then .gt else .lt)
  | .fin s m e, .fin t n g =>
    let q := min e g
    some (compare (signedAt s m e q) (signedAt t n g q))

/-- The minimum or maximum of two encodings of one format: any NaN gives the canonical NaN, −0 < +0 (R119). -/
def FpFmt.minMax (f : FpFmt) (mx : Bool) (a b : Nat) : Nat :=
  let x := f.dec a
  let y := f.dec b
  match x.cmp y with
  | none => f.nanCode
  | some .lt => if mx then b else a
  | some .gt => if mx then a else b
  | some .eq => if mx then (if x.sign then b else a) else (if x.sign then a else b)

/-! ### FP32 operations with one rounding -/

def f32Add (a b : Nat) : Nat := (fp32.enc ((fp32.dec a).add (fp32.dec b))).1
def f32Neg (a : Nat) : Nat := a ^^^ 0x80000000
def f32Sub (a b : Nat) : Nat := (fp32.enc ((fp32.dec a).add (fp32.dec b).neg)).1
def f32Mul (a b : Nat) : Nat := (fp32.enc ((fp32.dec a).mul (fp32.dec b))).1
/-- a × b + c rounded once. -/
def f32Fma (a b c : Nat) : Nat := (fp32.enc (((fp32.dec a).mul (fp32.dec b)).add (fp32.dec c))).1

/-! ### Square roots, exponentials and logarithms, correctly rounded (R119) -/

/-- ⌊√n⌋ for n < 2^(2k): one result bit at a time from bit k − 1. -/
def isqrtBits (n : Nat) : (k r : Nat) → Nat
  | 0, r => r
  | k + 1, r => if (r + 2 ^ k) * (r + 2 ^ k) ≤ n then isqrtBits n k (r + 2 ^ k) else isqrtBits n k r

def isqrt (n : Nat) : Nat := isqrtBits n (Nat.log2 n / 2 + 1) 0

/-- A magnitude with one sticky bit below it, set when something nonzero was cut off. -/
def sticky (q : Nat) (exact : Bool) : Nat := 2 * q + (if exact then 0 else 1)

/-- 1 / x. -/
def Fv.rcp : Fv → Fv
  | .nan => .nan
  | .inf s => .fin s 0 0
  | .fin s m e =>
    if m = 0 then .inf s
    else
      let k : Nat := Nat.log2 m + 64
      .fin s (sticky (2 ^ k / m) (2 ^ k % m == 0)) (-(k : Int) - e - 1)

/-- √x; a negative nonzero operand gives a NaN, −0 gives −0. -/
def Fv.sqrt : Fv → Fv
  | .nan => .nan
  | .inf s => if s then .nan else .inf false
  | .fin s m e =>
    if m = 0 then .fin s 0 0
    else if s then .nan
    else
      let sh := 128 + ((e % 2).toNat)
      let n := m * 2 ^ sh
      let r := isqrt n
      .fin false (sticky r (r * r == n)) ((e - sh) / 2 - 1)

/-- 1 / √x; ±0 gives the infinity of its sign. -/
def Fv.rsq : Fv → Fv
  | .nan => .nan
  | .inf s => if s then .nan else .fin false 0 0
  | .fin s m e =>
    if m = 0 then .inf s
    else if s then .nan
    else
      let m' := m * 2 ^ (e % 2).toNat
      let k : Nat := 96
      let r := isqrt (2 ^ (2 * k) / m')
      .fin false (sticky r (r * r * m' == 2 ^ (2 * k))) (-((e - e % 2) / 2) - k - 1)

/-- ln 2 × 2^192, truncated. -/
def ln2Fix : Nat := 0xb17217f7d1cf79abc9e3b39803f2f6af40f343267298b62d

/-- The terms y^k / k! from the k-th on, in units of 2^−192. -/
def expTerms (y : Nat) : (fuel k term : Nat) → Nat
  | 0, _, _ => 0
  | fuel + 1, k, term => term + expTerms y fuel (k + 1) (term * y / 2 ^ 192 / k)

/-- 2^x. The fraction's power is a series in ln 2 carried to 192 bits; an exponent far out of range overflows or
underflows whatever its fraction. -/
def Fv.exp2 : Fv → Fv
  | .nan => .nan
  | .inf s => if s then .fin false 0 0 else .inf false
  | .fin s m e =>
    let big := if s then Fv.fin false 1 (-1000) else Fv.fin false 1 1000
    if m = 0 then .fin false 1 0
    else if 20 < e + Nat.log2 m then big
    else
      let d := (-e).toNat
      let x : Int := signedAt s m (max e 0) 0
      let n : Int := if 0 ≤ e then x else x / (2 ^ d : Nat)
      let fr : Nat := if 0 ≤ e then 0 else (x % (2 ^ d : Nat)).toNat
      if 400 < n then .fin false 1 1000
      else if n < -400 then .fin false 1 (-1000)
      else if fr = 0 then .fin false 1 n
      else
        let f := fr * 2 ^ 192 / 2 ^ d
        .fin false (sticky (expTerms (f * ln2Fix / 2 ^ 192) 60 1 (2 ^ 192)) false) (n - 193)

/-- The first `fuel` bits of log2 of a number in [1, 2) given in units of 2^−320: square, take a bit, repeat. -/
def log2Bits : (fuel x acc : Nat) → Nat
  | 0, _, acc => acc
  | fuel + 1, x, acc =>
    let y := x * x / 2 ^ 320
    if 2 ^ 321 ≤ y then log2Bits fuel (y / 2) (2 * acc + 1) else log2Bits fuel y (2 * acc)

/-- log2 x; ±0 gives −∞, a negative operand a NaN. -/
def Fv.log2 : Fv → Fv
  | .nan => .nan
  | .inf s => if s then .nan else .inf false
  | .fin s m e =>
    if m = 0 then .inf true
    else if s then .nan
    else
      let k := Nat.log2 m
      let n : Int := e + k
      if m = 2 ^ k then Fv.ofInt n 0 false
      else
        let fr := log2Bits 128 (m * 2 ^ 320 / 2 ^ k) 0
        Fv.ofInt (2 * (n * (2 ^ 128 : Nat) + fr) + 1) (-129) false

/-! ### 32-bit atomics (R265) -/

/-- The new word of an atomic by its function code of R196: `old` word, operand `x`, and for ACAS the new value `y`. -/
def atomicOp (fn old x y : Nat) : Nat :=
  match fn with
  | 0x10 => (old + x) % 2 ^ 32
  | 0x11 => f32Add old x
  | 0x12 => if sxt 32 x < sxt 32 old then x else old
  | 0x13 => min old x
  | 0x14 => fp32.minMax false old x
  | 0x15 => if sxt 32 old < sxt 32 x then x else old
  | 0x16 => max old x
  | 0x17 => fp32.minMax true old x
  | 0x18 => old &&& x
  | 0x19 => old ||| x
  | 0x1A => old ^^^ x
  | 0x1B => x
  | _ => if old = x then y else old

end Sys2Proof.Machine
end

