-- ==== Sys2Proof/Machine/HostOps.lean ====
section
/-! DEFINITION. What the device sends to the host (R346 to R348) and the drawers' notice records (R360): functions, MSI-X
messages, posted writes, and the notices that the device itself posts. -/

namespace Sys2Proof.Machine

/-! ### Functions (R339, R343, R345) -/

def Dev.fn (d : Dev) (f : Nat) : HostFn := d.fns.getD f {}
def Dev.setFn (d : Dev) (f : Nat) (x : HostFn) : Dev := { d with fns := d.fns.set f x }
def Dev.modFn (d : Dev) (f : Nat) (g : HostFn → HostFn) : Dev := d.setFn f (g (d.fn f))

/-- The virtual function of an instance is enabled (R344). -/
def Dev.vfOn (d : Dev) (inst : Nat) : Bool := d.vfEnable && decide (inst < d.numVfs) && decide (inst < d.instN)

/-- A function exists for the host: the physical one, or an enabled virtual one (R343, R344). -/
def Dev.fnOn (d : Dev) (f : Nat) : Bool := f == 0 || d.vfOn (f - 1)

/-- The number of MSI-X vectors of a function (R346). -/
def Dev.vecCount (d : Dev) (f : Nat) : Nat := if f = 0 then 2048 else 512 / d.instN + 16

def Dev.vec (d : Dev) (f v : Nat) : MsixVec := d.msix.getD (2048 * f + v) {}
def Dev.setVec (d : Dev) (f v : Nat) (x : MsixVec) : Dev := { d with msix := d.msix.set (2048 * f + v) x }

/-! ### Messages and writes (R347, R348) -/

/-- The message of an unmasked vector leaves; a masked one sets the pending bit; nothing while MSI-X is disabled (R347). -/
def Dev.msixNow (d : Dev) (f v : Nat) : Dev :=
  let x := d.vec f v
  if !(d.fn f).msixEn || !d.fnOn f || decide (d.vecCount f ≤ v) then d
  else if x.mask || (d.fn f).msixMask then d.setVec f v { x with pend := true }
  else d.emit (.msix f x.addr x.data)

/-- An event of a vector: one message, which waits while the function is in D3hot; a masked vector's sets the pending bit then too, and
while MSI-X is disabled there is nothing to wait (R347). -/
def Dev.msixEvent (d : Dev) (f v : Nat) : Dev :=
  if (d.fn f).d3 && (d.fn f).msixEn && !(d.vec f v).mask && !(d.fn f).msixMask then { d with heldMsgs := d.heldMsgs ++ [(f, .event v)] }
  else d.msixNow f v

/-- Bytes of the next request of a transfer: at most `most`, and no 4 KiB boundary is crossed (R339). -/
def tlpLen (most a n : Nat) : Nat := min n (min most (4096 - a % 4096))

/-- Posted writes leave, each of at most the Max Payload Size of the function (R339); the first argument bounds them. -/
def Dev.hostSend (f : Nat) (ro : Bool) : Nat → Dev → Nat → List Byte → Dev
  | 0, d, _, _ => d
  | n + 1, d, a, bs =>
    if bs.isEmpty then d
    else
      let k := tlpLen (128 * 2 ^ (d.fn f).mps.val) a bs.length
      Dev.hostSend f ro n (d.emit (.hostWrite f a (bs.take k) ro)) (a + k) (bs.drop k)

/-- A posted write to host memory by the function that owns the work, waiting while it is in D3hot (R347, R348). -/
def Dev.hostWrite (d : Dev) (f addr : Nat) (bs : List Byte) (ro : Bool) : Dev :=
  if (d.fn f).d3 then { d with heldMsgs := d.heldMsgs ++ [(f, .write addr bs ro)] } else Dev.hostSend f ro bs.length d addr bs

/-- What waited for a function leaves in order (R347). -/
def Dev.releaseHeld (d : Dev) (f : Nat) : Dev :=
  let mine := d.heldMsgs.filter (·.1 == f)
  mine.foldl (fun d x => match x.2 with
    | .write a bs ro => Dev.hostSend f ro bs.length d a bs
    | .event v => d.msixNow f v) { d with heldMsgs := d.heldMsgs.filter (·.1 != f) }

/-- The host link is powered and out of reset (R437, R439, R454, R461). -/
def Dev.linkOn (d : Dev) : Bool := d.on && !d.board.perst && !d.halted && !d.tripped && !d.regBit .secStatus [] 26

/-- The outcome of a request of the host that is completed: before the boot lock it completes with UR (R460, R477). -/
def State.runAsk (f : Nat) (g : Dev → Dev) (s : State) : Host.Outcome State Fault Refusal :=
  s.run fun d => if d.live then g d else if d.linkOn then d.emit (.completion f 1 false []) else d

/-! ### Requests that wait (R258, R291) -/

def Dev.hostHold (d : Dev) (r : HostReq) : Dev := { d with hostWait := d.hostWait ++ [r] }

/-- A posted write of function `f`, or a part of one, waits (R291, R478). -/
def HostReq.isWrite (f : Nat) (r : HostReq) : Bool :=
  match r with
  | .write g _ _ _ => g == f
  | .bar0Write g _ _ => g == f
  | .doorbell g _ _ => g == f
  | _ => false

/-- A part of a posted write of function `f` to a line waits. -/
def HostReq.isWriteAt (f line : Nat) (r : HostReq) : Bool :=
  match r with
  | .write g a _ _ => g == f && a / 128 == line
  | _ => false

/-- The function that sent a request. -/
def HostReq.fn (r : HostReq) : Nat :=
  match r with
  | .read f _ _ => f
  | .write f _ _ _ => f
  | .atomic f _ _ _ _ _ => f
  | .bar0 f _ _ => f
  | .bar0Write f _ _ => f
  | .doorbell f _ _ => f

/-- Posted writes that function `f` has sent before are still to be performed (R291). -/
def Dev.writesWait (d : Dev) (f : Nat) : Bool := d.hostWait.any (HostReq.isWrite f)

/-! ### Causes (R350) -/

/-- The errors that are correctable (R350). -/
def AerErr.correctable (e : AerErr) : Bool :=
  match e with
  | .receiver | .replayTimer | .badTlp | .badDllp => true
  | _ => false

/-- The severity of an error of a function (R350): `adv` where a non-fatal one is advisory. -/
def HostFn.severity (x : HostFn) (e : AerErr) (adv : Bool) : ErrSev :=
  if e.correctable then .correctable else if x.aerFatal.contains e then .fatal else if adv then .advisory else .nonFatal

/-- An error is recorded by AER. One that is not masked is reported, and the first of them is remembered (R350, R351; that a masked error is
recorded all the same is PCI Express's own rule: PRESUMED, log 78). -/
def Dev.aer (d : Dev) (f : Nat) (e : AerErr) (adv : Bool) : Dev :=
  let d1 := d.modFn f fun x => { x with aer := if x.aer.contains e then x.aer else x.aer ++ [e] }
  if (d.fn f).aerMask.contains e then d1
  else (d1.modFn f fun x => { x with aerFirst := x.aerFirst.orElse fun _ => some e }).emit (.error f e ((d.fn f).severity e adv))

/-- A cause of the host link, charged to the virtual function it arose at (R350, R400). -/
def Dev.hstCause (d : Dev) (fn code bit access addr : Nat) (e : Option AerErr) : Dev :=
  let d1 := d.raise .hstErrStatus [] bit
    { code := code, master := 0xF840, access := access, addr := addr, inst := if fn = 0 then none else some (fn - 1), die := none }
  match e with
  | some x => d1.aer fn x (code == 0x9203 || code == 0x9205)
  | none => d1

/-! ### Drawer notices (R360) -/

/-- A 16-byte group of a notice record as a number, and its words. -/
def Dev.noticeWord (d : Dev) (up : Bool) (k rec w : Nat) : W32 :=
  if up then d.reg .drwUpNotice [k, w] else d.reg .drwDnNotice [k, rec, w]
def Dev.setNoticeWord (d : Dev) (up : Bool) (k rec w : Nat) (v : Nat) : Dev :=
  if up then d.setReg .drwUpNotice [k, w] (BitVec.ofNat 32 v) else d.setReg .drwDnNotice [k, rec, w] (BitVec.ofNat 32 v)

/-- The pending bits of a direction. -/
def pendReg (up : Bool) : RegName := if up then .drwUpPend else .drwDnPend

/-- FAULT, DIE, ADDRESS and FIRST of a notice record, which a first occurrence writes. -/
def Dev.noticeFirst (d : Dev) (x : Notice) : Dev :=
  ([(1, x.code + x.die * 65536), (2, x.addr % 2 ^ 32), (3, x.addr / 2 ^ 32), (4, d.time % 2 ^ 32), (5, d.time / 2 ^ 32)] : List (Nat × Nat)).foldl
    (fun d w => d.setNoticeWord x.up x.k x.slot w.1 w.2) d

/-- Post a notice to drawer `k`: `up` toward the manager, record `rec`, with the fault code, die and address of a first
occurrence (R360). -/
def Dev.notice (d : Dev) (up : Bool) (k rec code die addr : Nat) : Dev :=
  let x : Notice := { up := up, k := k, slot := rec, code := code, die := die, addr := addr }
  let ty := if up then 0x8004 else 0x8001 + rec
  let count := satAdd 65535 (fld (d.noticeWord up k rec 0) 31 16) 1
  let d1 := ((d.setNoticeWord up k rec 0 (ty + count * 65536)).setNoticeWord up k rec 6 (d.time % 2 ^ 32)).setNoticeWord up k rec 7
    (d.time / 2 ^ 32)
  let d2 := ({ d1 with noticed := d.noticed ++ [x] } : Dev).setRegBit (pendReg up) [k] rec
  if d.regBit (pendReg up) [k] rec then d2
  else if up then (d2.noticeFirst x).msixEvent 0 (1 + k)
  else (d2.noticeFirst x).msixEvent (k + 1) 1

/-- The consumer clears pending bits. A notice that has occurred in the same tick leaves its bit set and counts as a first occurrence
(R8, R360). -/
def Dev.pendWrite (d : Dev) (up : Bool) (k : Nat) (v : W32) : Dev :=
  (List.range 3).foldl (fun d t =>
    if v.getLsbD t then
      match d.noticed.find? fun x => x.up == up && x.k == k && x.slot == t with
      | some x => d.noticeFirst x
      | none => d.clrRegBit (pendReg up) [k] t
    else d) d

/-- Post a downward notice to every instance (R357). -/
def Dev.noticeAll (d : Dev) (rec code die addr : Nat) : Dev :=
  (List.range d.instN).foldl (fun d k => d.notice false k rec code die addr) d

end Sys2Proof.Machine
end

