-- ==== Sys2Proof/Machine/PowerBase.lean ====
section
/-! DEFINITION. The power manager's causes and events (R455, R456), and powering a compute die on (R438). -/

namespace Sys2Proof.Machine

/-- A cause of the power manager with its PWR_ERR_STATUS bit (R456). -/
def Dev.pwrCause (d : Dev) (code bit addr : Nat) : Dev :=
  d.raise .pwrErrStatus [] bit { code := code, master := 0xF870, access := 0, addr := addr, inst := none, die := none }

/-- An event of R455: vector 9 is sent as its bit goes from 0 to 1. One that meets its bit set changes nothing, but outlasts a write that clears
the bit in the same tick. -/
def Dev.pwrEvent (d : Dev) (bit : Nat) : Dev :=
  let d1 := d.setRegBit .pwrEvt [] bit
  if d.regBit .pwrEvt [] bit then
    if (d.freshBits .pwrEvt []).getLsbD bit then d else { d1 with pwr := { d1.pwr with again := d1.pwr.again ++ [bit] } }
  else d1.msixEvent 0 9

/-- POWER_ON of a die that is OFF: its link-up and self-refresh exit begin (R438). -/
def Dev.powerOn (d : Dev) (die : Nat) : Dev :=
  if (d.die die).st = 0 then (d.modDie die fun x => { x with st := 1 }).setRegBit .pwrDieCtl [die] 1 else d

/-- A die's power-on has not ended. -/
def Dev.powering (d : Dev) (die : Nat) : Bool := (d.die die).st == 0 || d.regBit .pwrDieCtl [die] 1

/-- PWR_DIEd_DOM with every domain ON, and with the die always-on domain alone (R436, R457). -/
def domAllOn : W32 := 0x2AAAAA#32
def domAllOff : W32 := 0x200000#32

end Sys2Proof.Machine
end

