-- ==== Sys2Proof/Machine/WindowOps.lean ====
section
/-! DEFINITION. Device memory below the caches: the window table and its decode (R294 to R297), who may see an address
(R355), reduction windows and shelves (R266, R272), the bytes of HBM with their poison (R305), and which lines an open
book-match window holds (R409, R414). -/

namespace Sys2Proof.Machine

/-! ### Requesters -/

/-- Who makes an access (R355): an instance, the manager, or the command processor and security core for the management
region. -/
inductive Who where
  | inst (k : Nat)
  | manager
  | core
deriving DecidableEq, Repr

/-! ### The window table (R295, R296, R309) -/

/-- A window-table entry as its registers give it. -/
structure Win where
  entry : Nat
  valid : Bool
  busy : Bool
  base : Nat
  size : Nat
  mode : Nat
  detecting : Bool
  die : Nat
  doff : Nat
  mgmt : Bool
deriving DecidableEq, Repr

def Dev.win (d : Dev) (e : Nat) : Win :=
  let b := d.reg .hbmWinBase [e]
  let c := d.reg .hbmWinCfg [e]
  { entry := e, valid := b.getLsbD 31, busy := d.regBit .hbmWinState [e] 1, base := fld b 9 0, size := fld b 25 16 + 1
    mode := fld c 1 0, detecting := c.getLsbD 2, die := fld c 10 8, doff := fld c 22 16, mgmt := c.getLsbD 4 }

def Win.holds (w : Win) (pa : Nat) : Bool :=
  w.valid && !w.busy && decide (w.base * 2 ^ 30 ≤ pa) && decide (pa < (w.base + w.size) * 2 ^ 30)

/-- The valid window, not busy, that holds an address (R294). -/
def Dev.winFind (d : Dev) (pa : Nat) : Option Win :=
  (List.range 144).findSome? fun e => let w := d.win e; if w.holds pa then some w else none

/-- The window that holds an address, or is busy with a range that does (R294, R299). -/
def Dev.winAt (d : Dev) (pa : Nat) : Option Win :=
  (List.range 144).findSome? fun e =>
    let w := d.win e
    match d.winFlush.find? e with
    | some (b, n) => if b * 2 ^ 30 ≤ pa ∧ pa < (b + n) * 2 ^ 30 then some { w with base := b, size := n } else none
    | none => if w.holds pa then some w else none

/-- The home die and die address of an address in a window (R296). -/
def Win.decode (w : Win) (pa : Nat) : Nat × Nat :=
  let o := pa - w.base * 2 ^ 30
  let b := w.doff * 2 ^ 30
  match w.mode with
  | 0 => (w.die, b + o)
  | 1 => (if nfld o 12 12 = 1 then (w.die + 1) % 8 else w.die, b + (o >>> 13) <<< 12 + nfld o 11 0)
  | _ => (nfld o 14 12, b + (o >>> 15) <<< 12 + nfld o 11 0)

/-- GiB that a window backs on each of its dies (R296). -/
def Win.backed (w : Win) : Nat :=
  match w.mode with
  | 0 => w.size
  | 1 => w.size / 2
  | _ => w.size / 8

/-- The dies that back a window (R296). -/
def Win.dies (w : Win) : List Nat :=
  match w.mode with
  | 0 => [w.die]
  | 1 => [w.die, (w.die + 1) % 8]
  | _ => List.range 8

/-- The instance that owns a window entry; none for a manager entry (R295). -/
def Win.owner (w : Win) : Option Nat := if w.entry < 16 then none else some ((w.entry - 16) / 16)

/-- Where an address lies: home die, die address, whether the requester may only read, and the window. -/
structure Loc where
  die : Nat
  x : Nat
  ro : Bool
  win : Win
deriving DecidableEq, Repr

/-- The view of a requester: none where the address is unmapped for it (R294, R295, R355). -/
def Dev.access (d : Dev) (who : Who) (pa : Nat) : Option Loc :=
  match d.winFind pa with
  | none => none
  | some w =>
    let (die, x) := w.decode pa
    let go (ro : Bool) : Option Loc := some { die := die, x := x, ro := ro, win := w }
    match who, w.owner with
    | .inst k, some i => if i = k then go false else none
    | .inst _, none => if w.mgmt then none else go true
    | .manager, none => if w.mgmt then none else go false
    | .manager, some _ => go false
    | .core, _ => go false

/-- Die-local pseudo-channel and offset within it of a die address (R297). -/
def pseudoChannel (x : Nat) : Nat := nfld x 14 8
def pcOffset (x : Nat) : Nat := nfld x 36 15 <<< 8 + nfld x 7 0
/-- Home slice by index 16 × die + slice (R251, R297). -/
def homeSlice (die x : Nat) : Nat := 16 * die + pseudoChannel x / 8
/-- Slice line number (R252). -/
def sliceLineNo (x : Nat) : Nat := pcOffset x / 128 * 8 + pseudoChannel x % 8
/-- Set of a slice for a die line (R252). -/
def sliceSet (loc : Nat) : Nat := sliceLineNo (loc * 128) % 3072

/-! ### Reduction windows and shelves (R266, R272) -/

/-- A range given by base and size registers in 64 KiB units holds an address. -/
def rangeHolds (base size pa : Nat) : Bool := decide (base * 65536 ≤ pa) && decide (pa < (base + size) * 65536)

/-- The reduction window of instance `k` that holds an address: operation and type. -/
def Dev.redWindow (d : Dev) (k pa : Nat) : Option (Nat × Nat) :=
  (List.range 8).findSome? fun i =>
    if d.regBit .ucRwCfg [k, i] 31 && rangeHolds (d.regFld .ucRwBase [k, i] 27 0) (d.regFld .ucRwSize [k, i] 27 0) pa
    then some (d.regFld .ucRwCfg [k, i] 1 0, d.regFld .ucRwCfg [k, i] 5 4) else none

/-- The shelf an address lies in, as 32 × owner + index, with its class and its quota in lines a slice (R272). -/
def Dev.shelfOf (d : Dev) (w : Win) (pa : Nat) : Option (Nat × LineClass × Nat) :=
  let o := w.owner.getD 8
  (List.range 32).findSome? fun k =>
    if d.regBit .ucShCfg [o, k] 31 && rangeHolds (d.regFld .ucShBase [o, k] 27 0) (d.regFld .ucShSize [o, k] 27 0) pa
    then
      let c := match d.regFld .ucShCfg [o, k] 9 8 with
        | 0 => LineClass.keep
        | 1 => .normal
        | _ => .stream
      some (32 * o + k, c, d.regFld .ucShCfg [o, k] 6 0 * 512)
    else none

/-! ### HBM (R302, R305, R307) -/

/-- Byte address in the HBM memory of a die's line. -/
def hbmAt (die loc : Nat) : Nat := die * 2 ^ 37 + loc * 128
def poisonKey (die loc : Nat) : Nat := die * 2 ^ 30 + loc

def Dev.hbmLine (d : Dev) (die loc : Nat) : Line := d.hbm.readLine (hbmAt die loc)
def Dev.hbmBad (d : Dev) (die loc : Nat) : Bool := d.hbmPoison.has (poisonKey die loc)
/-- Store a line, poisoned or normal (R305). -/
def Dev.hbmStore (d : Dev) (die loc : Nat) (l : Line) (poison : Bool) : Dev :=
  { d with
    hbm := d.hbm.writeMasked (hbmAt die loc) l (BitVec.allOnes 128)
    hbmPoison := if poison then d.hbmPoison.set (poisonKey die loc) () else d.hbmPoison.erase (poisonKey die loc) }

/-- The controller's channel of a die line has failed (R307, R309). -/
def Dev.channelFailed (d : Dev) (die loc : Nat) : Bool :=
  let q := pseudoChannel (loc * 128)
  d.regBit .hbmCtStatus [16 * die + q / 8] (8 + q % 8 / 2)

/-! ### Book-match windows (R409, R410, R431) -/

def BlockSet.has (s : BlockSet) (b : Nat) : Bool := s.all != s.flips.has b
def BlockSet.put (s : BlockSet) (b : Nat) (v : Bool) : BlockSet :=
  { s with flips := if s.all == v then s.flips.erase b else s.flips.set b () }

def Dev.mir (d : Dev) (w : Nat) : MirWin := d.mirrors.getD w {}
def Dev.setMir (d : Dev) (w : Nat) (x : MirWin) : Dev := { d with mirrors := d.mirrors.set w x }
def Dev.modMir (d : Dev) (w : Nat) (f : MirWin → MirWin) : Dev := d.setMir w (f (d.mir w))

/-- Register indices of a window: owner and number. -/
def mirIx (w : Nat) : List Nat := [w / 64, w % 64]
/-- The state of a window: 0 CLOSED to 7 LOST (R420). -/
def Dev.mirState (d : Dev) (w : Nat) : Nat := d.regFld .mirWState (mirIx w) 2 0
def Dev.setMirState (d : Dev) (w st : Nat) : Dev := d.setRegFld .mirWState (mirIx w) 2 0 st
/-- A 64-bit register pair. -/
def Dev.reg64 (d : Dev) (lo hi : RegName) (ix : List Nat) : Nat := (d.reg lo ix).toNat + (d.reg hi ix).toNat * 2 ^ 32
def Dev.setReg64 (d : Dev) (lo hi : RegName) (ix : List Nat) (v : Nat) : Dev :=
  (d.setReg lo ix (BitVec.ofNat 32 v)).setReg hi ix (BitVec.ofNat 32 (v / 2 ^ 32))
def Dev.mirBase (d : Dev) (w : Nat) : Nat := d.reg64 .mirWBaseLo .mirWBaseHi (mirIx w)
def Dev.mirSize (d : Dev) (w : Nat) : Nat := d.reg64 .mirWSizeLo .mirWSizeHi (mirIx w)

/-- The open windows whose range holds an address (R414). -/
def Dev.mirOf (d : Dev) (pa : Nat) : List Nat :=
  d.mirrors.keys.filter fun w => d.mirState w != 0 && decide (d.mirBase w ≤ pa) && decide (pa < d.mirBase w + d.mirSize w)

end Sys2Proof.Machine
end

