-- ==== Sys2Proof/Machine/CacheOps.lean ====
section
/-! DEFINITION. The unified cache below the commands: bay caches (R253, R260, R262, R264), slices with their directory,
pending table and replacement (R252, R255 to R261, R268 to R273), snoops, and the operations of atomics and
reductions (R265, R267). -/

namespace Sys2Proof.Machine

/-! ### Parts -/

def Dev.bay (d : Dev) (y : Nat) : Bay := d.bays.getD y {}
def Dev.setBay (d : Dev) (y : Nat) (x : Bay) : Dev := { d with bays := d.bays.set y x }
def Dev.modBay (d : Dev) (y : Nat) (f : Bay → Bay) : Dev := d.setBay y (f (d.bay y))
def Dev.slice (d : Dev) (q : Nat) : Slice := d.slices.getD q {}
def Dev.setSlice (d : Dev) (q : Nat) (x : Slice) : Dev := { d with slices := d.slices.set q x }
def Dev.modSlice (d : Dev) (q : Nat) (f : Slice → Slice) : Dev := d.setSlice q (f (d.slice q))

/-- A cause of a slice or its HBM controller, of a bay cache: with the die agent of the unit (R277, R308). -/
def Dev.sliceCause (d : Dev) (q code bit acc addr : Nat) : Dev :=
  d.raise .ucSlErrStatus [q] bit
    { code := code, master := q / 16 * 0x1000 + 0x800 + q % 16, access := acc, addr := addr, inst := some (d.instOfDie (q / 16)), die := some (q / 16) }
def Dev.bayCause (d : Dev) (y code bit acc addr : Nat) : Dev :=
  d.raise .ucBayErrStatus [y] bit
    { code := code, master := y / 8 * 0x1000 + 0x820 + y % 8, access := acc, addr := addr, inst := some (d.instOfDie (y / 8)), die := some (y / 8) }

/-- The master ID of an agent (R11, R254). -/
def agentMaster : Agent → Nat
  | .bench b => benchMaster b
  | .bay y => y / 8 * 0x1000 + 0x820 + y % 8
  | .slice q => q / 16 * 0x1000 + 0x800 + q % 16
  | .iod k => 0xF820 + k
  | .clampRoot die => die * 0x1000 + 0x842
  | .clampIod => 0xF820

/-- Kill the context that issued a message, if it still is the one that issued it (R59). -/
def Dev.killIssuer (d : Dev) (m : Msg) (code acc addr : Nat) : Dev :=
  match m.req.getD m.src with
  | .bench b =>
    let c := (d.bench b).ctxN m.ctx
    if c.valid && c.gen == m.gen && !c.killed then d.kill b m.ctx code acc addr else d
  | _ => d

/-! ### Atomics and reductions (R265, R267) -/

/-- The new word of an element under a reduction: operation 0 ADD, 1 MIN, 2 MAX; type 0 FP32, 1 BF16, 2 INT32 (R267). -/
def reduceElem (op ty old new : Nat) : Nat :=
  let f (z : FpFmt) : Nat :=
    match op with
    | 0 => (z.enc ((z.dec old).add (z.dec new))).1
    | 1 => z.minMax false old new
    | _ => z.minMax true old new
  match ty with
  | 0 => f fp32
  | 1 => f bf16
  | _ => match op with
    | 0 => (old + new) % 2 ^ 32
    | 1 => if sxt 32 new < sxt 32 old then new else old
    | _ => if sxt 32 old < sxt 32 new then new else old

/-- Bytes of an element of a reduction type. -/
def reduceBytes (ty : Nat) : Nat := if ty = 1 then 2 else 4

/-- The byte enables cover whole elements (R267). -/
def reduceWhole (ty : Nat) (be : ByteEn) : Bool :=
  let n := reduceBytes ty
  (List.range (128 / n)).all fun e =>
    let x := nfld be.toNat (n * e + n - 1) (n * e)
    x == 0 || x == 2 ^ n - 1

/-- A line after a reduce-into (R267). -/
def reduceLine (op ty : Nat) (old new : Line) (be : ByteEn) : Line :=
  let n := reduceBytes ty
  BitVec.ofNat 1024 (packLanes (8 * n) ((List.range (128 / n)).map fun e =>
    let o := laneN old (8 * n) e
    if be.getLsbD (n * e) then reduceElem op ty o (laneN new (8 * n) e) else o))

/-- A 32-bit atomic on a line at a byte offset: the line after it and the old word (R265). -/
def atomicLine (fn off : Nat) (l : Line) (x y : Nat) : Line × Nat :=
  let o := off / 4
  let old := laneN l 32 o
  (setLaneN l 32 o (atomicOp fn old x y), old)

/-! ### Bay caches (R253) -/

/-- Set of a line: half × 2,048 + set. -/
def baySet (line : Nat) : Nat := line % 2 * 2048 + line / 2 % 2048

def Bay.find (b : Bay) (line : Nat) : Option Nat :=
  (List.range 16).findSome? fun w =>
    let k := 16 * baySet line + w
    match b.lines.find? k with
    | some x => if x.line = line then some k else none
    | none => none

def Bay.get (b : Bay) (line : Nat) : Option BayLine := (b.find line).bind fun k => b.lines.find? k

/-- Tree pseudo-LRU over 16 ways: node n has children 2n + 1 and 2n + 2; a bit points to the half to replace. -/
def plruTouch16 (t w : Nat) : Nat :=
  let go (t n b : Nat) : Nat := nput t n n (1 - b)
  let b3 := w / 8
  let b2 := w / 4 % 2
  let b1 := w / 2 % 2
  let n1 := 1 + b3
  let n2 := 2 * n1 + 1 + b2
  let n3 := 2 * n2 + 1 + b1
  go (go (go (go t 0 b3) n1 b2) n2 b1) n3 (w % 2)

def plruVictim16 (t : Nat) : Nat :=
  let b3 := nfld t 0 0
  let n1 := 1 + b3
  let b2 := nfld t n1 n1
  let n2 := 2 * n1 + 1 + b2
  let b1 := nfld t n2 n2
  let n3 := 2 * n2 + 1 + b1
  8 * b3 + 4 * b2 + 2 * b1 + nfld t n3 n3

def Bay.touch (b : Bay) (k : Nat) : Bay := { b with plru := b.plru.set (k / 16) (plruTouch16 (b.plru.getD (k / 16) 0) (k % 16)) }

/-- The way a granted line takes: its own, an empty one, or the pseudo-LRU victim, passing over lines that have a request of
their own outstanding (R253). -/
def Bay.place (b : Bay) (line : Nat) : Option Nat :=
  match b.find line with
  | some k => some k
  | none =>
    let s := baySet line
    match (List.range 16).find? fun w => !b.lines.has (16 * s + w) with
    | some w => some (16 * s + w)
    | none =>
      let v := plruVictim16 (b.plru.getD s 0)
      ((List.range 16).map fun i => 16 * s + (v + i) % 16).find? fun k => match b.lines.find? k with
        | some x => !b.misses.any (·.line == x.line)
        | none => true

/-- The answer to a bench request, tied to it by its fields. -/
def Msg.reply (m : Msg) (kind : MsgKind) (src : Agent) : Msg :=
  { kind := kind, src := src, dst := m.req.getD m.src, line := m.line, loc := m.loc, off := m.off, tag := m.tag, ctx := m.ctx,
    gen := m.gen, op := m.op, v0 := m.v0, v1 := m.v1 }

/-- The kind of answer a request gets. -/
def Msg.replyKind (m : Msg) : MsgKind :=
  match m.kind with
  | .benchRead | .rds | .rdu | .rdx | .rdxn => .lineRsp
  | .benchAtomic | .ata => .atomRsp
  | _ => .writeAck

/-- A request that met a fenced home is answered at once with poison, the cause recorded with the requester's master ID, or
the IOD's for one of its agents (R245, R249). -/
def Dev.homeLost (d : Dev) (die : Nat) (m : Msg) : Dev :=
  let who := m.req.getD m.src
  let master := match who with
    | .bench b => benchMaster b
    | _ => 0xF850 + die
  let d1 := d.raise .datErrStatus [die] 7
    { code := 0x5108, master := master, access := m.acc, addr := m.line * 128, inst := none, die := none }
  d1.send { m.reply m.replyKind m.src with poison := true, code := 0x5108 }

/-- A message from a bay cache to a line's home slice; at a fenced home every request that waits on it is answered with poison. -/
def Dev.bayAsk (d : Dev) (y line loc die : Nat) (want : MsgKind) (waiting : List Msg) : Dev :=
  if (d.die die).st = 2 then
    ((d.modBay y fun b => { b with misses := b.misses ++ [{ line := line, want := want, waiting := waiting }] }).count .ucBayMisses [y] 31 0).send
      { kind := want, src := .bay y, dst := .slice (homeSlice die (loc * 128)), line := line, loc := loc }
  else waiting.foldl (fun d m => d.homeLost die { m with loc := loc }) d

/-- A bench's request forwarded to the home slice as WRA, ATA or RED (R263, R266). -/
def Dev.bayForward (d : Dev) (y : Nat) (m : Msg) (kind : MsgKind) (die loc ty : Nat) : Dev :=
  let f : Msg := { m with kind := kind, src := .bay y, dst := .slice (homeSlice die (loc * 128)), loc := loc, req := some m.src, ty := ty }
  if (d.die die).st = 2 then (d.count .ucBayMisses [y] 31 0).send f else d.homeLost die f

/-- A bay cache gives up a dirty line: it goes to the write-back buffer and to its home as WB; where there is no home to take
it, it is let go (R245, R253). -/
def Dev.bayWriteBack (d : Dev) (y line loc : Nat) (data : Line) (poison : Bool) : Dev :=
  match d.access .manager (line * 128) with
  | none => d
  | some l =>
    if (d.die l.die).st = 2 then
      (d.modBay y fun b => { b with wbs := b.wbs ++ [⟨line, data, poison⟩] }).send
        { kind := .wb, src := .bay y, dst := .slice (homeSlice l.die l.x), line := line, loc := loc, data := data, poison := poison }
    else d

/-- Perform one waiting bench request on a line of the bay cache, if its state allows: the line after it and the answer
(R262, R264). A masked write of the whole line clears poison; an atomic on poison answers with it. -/
def bayPerform (y : Nat) (x : BayLine) (m : Msg) : Option (BayLine × Msg) :=
  let src := Agent.bay y
  match m.kind with
  | .benchRead => some (x, { m.reply .lineRsp src with data := x.data, poison := x.poison })
  | .benchWrite =>
    if x.st = .s then none
    else some ({ x with st := .m, data := mergeLine x.data m.data m.be, poison := x.poison && m.be != BitVec.allOnes 128 }, m.reply .writeAck src)
  | _ =>
    if x.st = .s then none
    else if x.poison then some (x, { m.reply .atomRsp src with poison := true })
    else
      let (l, old) := atomicLine m.op m.off x.data m.v1 (m.data.toNat % 2 ^ 32)
      some ({ x with st := .m, data := l }, { m.reply .atomRsp src with v1 := old })

/-- Serve waiting requests in arrival order as far as the line's state allows; what is left asks for ownership. -/
def Dev.bayServe (d : Dev) (y die : Nat) (x : BayLine) (k : Nat) : List Msg → Dev
  | [] => d.modBay y fun b => { b with lines := b.lines.set k x }
  | m :: ms =>
    match bayPerform y x m with
    | some (x1, r) =>
      let d1 := d.send r
      (if m.kind = .benchAtomic ∧ !x.poison then d1.count .ucBayAtomics [y] 31 0 else d1).bayServe y die x1 k ms
    | none =>
      (d.modBay y fun b => { b with lines := b.lines.set k x }).bayAsk y x.line x.loc die
        (if m.kind = .benchWrite ∧ m.be = BitVec.allOnes 128 then .rdxn else .rdx) (m :: ms)

/-! ### Slices: lookup and replacement (R252, R271 to R273) -/

def Slice.find (s : Slice) (loc : Nat) : Option Nat :=
  (List.range 16).findSome? fun w =>
    let k := 16 * sliceSet loc + w
    match s.lines.find? k with
    | some x => if x.loc = loc then some k else none
    | none => none

/-- A way may be chosen as a victim: nothing pends on its line, no reduction either, and no eviction or fill holds it
(R257, R269). -/
def Slice.eligible (s : Slice) (k : Nat) : Bool :=
  !s.pend.any fun p => (match p.phase with
    | .evict w _ => w == k
    | .fill w => w == k
    | _ => false) || (match s.lines.find? k with
    | some x => p.req.loc == x.loc
    | none => false)

/-- Keys of the least recently used among some ways. -/
def Slice.lru (s : Slice) (ks : List Nat) : Option Nat :=
  ks.foldl (fun b k => match b with
    | none => some k
    | some j => if ((s.lines.find? k).map (·.used)).getD 0 < ((s.lines.find? j).map (·.used)).getD 0 then some k else b) none

/-- A way whose line has a class. -/
def Slice.classIs (s : Slice) (p : SLine → Bool) (k : Nat) : Bool :=
  match s.lines.find? k with
  | some x => p x
  | none => false

/-- The victim of steps 1 to 3 of R271 among the eligible ways of a set. -/
def Slice.victim (s : Slice) (ks : List Nat) : Option Nat :=
  let es := ks.filter s.eligible
  match es.find? fun k => !s.lines.has k with
  | some k => some k
  | none =>
    match s.lru (es.filter (s.classIs fun x => x.cls == .stream || x.cls == .untagged)) with
    | some k => some k
    | none => s.lru (es.filter (s.classIs fun x => x.cls == .ordinary || x.cls == .normal))

/-- Lines of all shelves in a slice (UC_SL_SHLINES). -/
def Slice.shelfLines (s : Slice) : Nat := (s.lines.cells.filter fun c => c.2.shelf.isSome).length
/-- Lines of one shelf in a slice (UC_SHQ_COUNT). -/
def Slice.linesOf (s : Slice) (k : Nat) : Nat := (s.lines.cells.filter fun c => c.2.shelf == some k).length

/-- Where a fill goes: its way, the shelf it counts against, and its class (R271, R273). -/
def Dev.choosePlace (d : Dev) (q loc : Nat) (win : Win) (pa : Nat) : Option (Nat × Option Nat × LineClass) :=
  let s := d.slice q
  let ks := (List.range 16).map (16 * sliceSet loc + ·)
  let v (shelf : Option Nat) (c : LineClass) : Option (Nat × Option Nat × LineClass) := (s.victim ks).map fun k => (k, shelf, c)
  match d.shelfOf win pa with
  | none => v none .ordinary
  | some (k, c, quota) =>
    if s.linesOf k < quota ∧ (ks.filter (s.classIs fun x => x.shelf.isSome)).length < 12 ∧ s.shelfLines < 36864 then v (some k) c
    else match s.lru (ks.filter fun w => s.eligible w && s.classIs (fun x => x.shelf == some k) w) with
      | some w => some (w, some k, c)
      | none => if c = .stream then v none .untagged else v none .ordinary

/-! ### Serving a request (R257) -/

/-- The presence bit of a client. -/
def presenceBit : Agent → Nat
  | .bay y => y
  | .iod k => 64 + k
  | _ => 95

def bitsOf (p : BitVec 96) : List Nat := (List.range 96).filter fun i => p.getLsbD i

/-- The snoops that a request needs first: their kind and the clients (R257). -/
def SLine.snoops (s : SLine) (m : Msg) : MsgKind × List Nat :=
  let c := presenceBit m.src
  match s.dir, m.kind with
  | .v, _ => (.inv, [])
  | .s, .rdx | .s, .rdxn => (.inv, (bitsOf s.presence).filter (· != c))
  | .s, .wra | .s, .ata | .s, .red => (.inv, bitsOf s.presence)
  | .x b, .rds | .x b, .rdu => if b = c then (.dwn, []) else (.dwn, [b])
  | .x b, .rdx | .x b, .rdxn => if b = c then (.rcl, []) else (.rcl, [b])
  | .x b, .wra | .x b, .ata | .x b, .red => (.rcl, [b])
  | _, _ => (.inv, [])

/-- A read or partial change needs the slice's own data. -/
def Msg.needsData (m : Msg) : Bool :=
  match m.kind with
  | .rds | .rdu | .rdx | .ata | .red => true
  | .wra => m.be != BitVec.allOnes 128
  | _ => false

/-- The line of a slice's way. -/
def Slice.at (s : Slice) (k : Nat) : SLine := s.lines.getD k { line := 0, loc := 0 }

/-- The line of way `k` is served, which makes it the most recent of its set (R271). -/
def Slice.touch (s : Slice) (k : Nat) : Slice :=
  { s with lines := s.lines.set k { s.at k with used := s.tick + 1 }, tick := s.tick + 1 }

/-- A line whose owned copy is lost with its die is poisoned at its home, with cause 0x510B (R245, R259). -/
def Dev.ownerLost (d : Dev) (q die loc : Nat) : Dev :=
  match (d.slice q).find loc with
  | none => d
  | some k =>
    let x := (d.slice q).at k
    (d.modSlice q fun s => { s with lines := s.lines.set k { x with poison := true, valid := true, dirty := true } }).raise .datErrStatus [die] 10
      { code := 0x510B, master := 0xF850 + die, access := 0x51, addr := x.line * 128, inst := none, die := none }

/-- Send a snoop; the gateway answers NP for a bay cache of a die that is not UP, and an owned copy there is lost (R245, R259). -/
def Dev.snoop (d : Dev) (q : Nat) (kind : MsgKind) (line loc bit : Nat) : Dev :=
  if bit < 64 then
    if (d.die (bit / 8)).st = 2 then
      d.send { kind := kind, src := .slice q, dst := .bay bit, line := line, loc := loc }
    else
      (if kind = .inv then d else d.ownerLost q (bit / 8) loc).send { kind := .replyNp, src := .bay bit, dst := .slice q, line := line, loc := loc }
  else d.send { kind := kind, src := .slice q, dst := .iod (bit - 64), line := line, loc := loc }

/-! ### Check lines (R302, R303) -/

/-- The die line at an offset within a pseudo-channel (R297). -/
def pcLine (pc o : Nat) : Nat := ((o / 256) <<< 15 + pc <<< 8 + o % 256) / 128

/-- The die line of a data line's check line. -/
def checkLoc (loc : Nat) : Nat :=
  let x := loc * 128
  pcLine (pseudoChannel x) (0x3E000000 + pcOffset x / 4096 * 128)

/-- The die lines of the 32 data lines of a check line. -/
def checkData (c : Nat) : List Nat :=
  let x := c * 128
  let o := (pcOffset x - 0x3E000000) / 128 * 4096
  (List.range 32).map fun i => pcLine (pseudoChannel x) (o + 128 * i)

/-- The check word of a data line: zero for zero data (R299), otherwise the word of a code that the manual does not spell out. -/
def checkWord (l : Line) : W32 := if l = 0 then 0 else Config.checkWord l

/-- A check line as the data lines of a die give it (R302). -/
def Dev.checkLine (d : Dev) (die c : Nat) : Line :=
  BitVec.ofNat 1024 (packLanes 32 ((checkData c).map fun x => (checkWord (d.hbmLine die x)).toNat))

/-- A line lies in a correcting window, one that is busy too. -/
def Dev.correcting (d : Dev) (line : Nat) : Bool :=
  match d.winAt (line * 128) with
  | some w => !w.detecting
  | none => false

/-- Dirty check lines among some of controller `q`'s are written back; a failed channel discards them (R303, R307). -/
def Dev.checksBack (d : Dev) (q : Nat) (cs : List CheckLine) : Dev :=
  (cs.filter (·.dirty)).foldl (fun d c =>
    if d.channelFailed (q / 16) c.loc then d else d.hbmStore (q / 16) c.loc (d.checkLine (q / 16) c.loc) false) d

/-- The check cache holds a check line. -/
def Slice.hasCheck (s : Slice) (c : Nat) : Bool := s.checks.any (·.loc == c)

/-- A check line is used, which makes it the most recent of the check cache, and dirty if it is written. -/
def Slice.useCheck (s : Slice) (c : Nat) (wr : Bool) : List CheckLine :=
  let was := (s.checks.find? (·.loc == c)).map (·.dirty)
  ⟨c, wr || was.getD false⟩ :: s.checks.filter (·.loc != c)

/-- An access of a line in a correcting window uses its check line; the check cache keeps the 256 most recent and writes back a dirty
one that leaves it (R303). -/
def Dev.checkUse (d : Dev) (q line loc : Nat) (wr : Bool) : Dev :=
  if d.correcting line then
    let cs := (d.slice q).useCheck (checkLoc loc) wr
    (d.modSlice q fun s => { s with checks := cs.take 256 }).checksBack q (cs.drop 256)
  else d

/-- Before self-refresh a controller writes back every dirty check line (R303). -/
def Dev.checksOut (d : Dev) (q : Nat) : Dev :=
  (d.checksBack q (d.slice q).checks).modSlice q fun s => { s with checks := s.checks.map fun c => { c with dirty := false } }

/-- A controller performs a write: the line, poisoned or not, and its check word (R303 to R305); a failed channel discards it (R307). -/
def Dev.hbmPut (d : Dev) (q line loc : Nat) (data : Line) (poison : Bool) : Dev :=
  if d.channelFailed (q / 16) loc then d else (d.checkUse q line loc true).hbmStore (q / 16) loc data poison

/-! ### What the mirror engine reads and writes at a home -/

/-- The bytes of a line at its home, when the home slice holds it with data, otherwise from HBM. -/
def Dev.rawLine (d : Dev) (l : Loc) : Line :=
  let s := d.slice (homeSlice l.die l.x)
  match s.find (l.x / 128) with
  | some k => if (s.at k).valid then (s.at k).data else d.hbmLine l.die (l.x / 128)
  | none => d.hbmLine l.die (l.x / 128)

/-- The mirror engine writes a line of a trailer at its home; nothing else writes it (R410). -/
def Dev.rawPut (d : Dev) (pa : Nat) (data : Line) : Dev :=
  match d.access .manager pa with
  | none => d
  | some l =>
    let q := homeSlice l.die l.x
    match (d.slice q).find (l.x / 128) with
    | some k => d.modSlice q fun s => { s with lines := s.lines.set k { s.at k with data := data, valid := true, dirty := true, poison := false } }
    | none => d.hbmPut q (pa / 128) (l.x / 128) data false

/-- A trailer or book header (R411): `bv` is BITMAP_VALID. -/
def headerBytes (win : Nat) (bv : Bool) (src size : Nat) (s : BookSides) : List Byte :=
  let a := leBytes 0x4D425A45 4 ++ leBytes win 1 ++ leBytes (b2n bv) 1 ++ leBytes 0 2 ++ leBytes (src % 2 ^ 20) 4 ++ leBytes 0 4 ++
    leBytes size 8 ++ leBytes s.ep0 8 ++ leBytes s.st0 1 ++ leBytes 0 7 ++ leBytes s.ep1 8 ++ leBytes s.st1 1 ++ leBytes 0 71
  a ++ leBytes (crc32 a) 4 ++ leBytes 0 4

/-- The device ID that a window's owner sends with (R409). -/
def Dev.mirSrc (d : Dev) (w : Nat) : Nat := d.ownId (if w / 64 = 8 then 0 else w / 64)

/-- Write a window's trailer header (R410, R411). -/
def Dev.mirTrailer (d : Dev) (w : Nat) : Dev :=
  let x := d.mir w
  d.rawPut (d.mirBase w + d.mirSize w) (lineOf (headerBytes (w % 64) x.bitmapValid (d.mirSrc w) (d.mirSize w) x.sides))

/-- A write at the home slice is recorded by every open book-match window that holds the line (R414): D0 and D1 of the
block and the time; the first recording since the bitmap was flushed clears BITMAP_VALID in the trailer. While the window
is COMMITTING the recording takes effect when the commit ends (R418). -/
def Dev.mirMark (d : Dev) (pa : Nat) : Dev :=
  (d.mirOf pa).foldl (fun d w =>
    let b := (pa - d.mirBase w) / 4096
    let valid := (d.mir w).bitmapValid
    let d1 := d.modMir w fun x =>
      if d.mirState w = 3 then { x with late := x.late.set b (), wrote := x.wrote.set b d.ticks, bitmapValid := false }
      else { x with d0 := x.d0.put b true, d1 := x.d1.put b true, wrote := x.wrote.set b d.ticks, sigs := x.sigs.erase b, bitmapValid := false }
    if valid then d1.mirTrailer w else d1) d

/-! ### The actions of a request (R257) -/

/-- Deliver a line to a client: a grant to a bay cache, or into an IOD agent's buffer (R254, R257). -/
def Dev.deliver (d : Dev) (q : Nat) (m : Msg) (op : Nat) (x : SLine) (shared : Bool) : Dev :=
  match m.src with
  | .iod k => { d with
      iodLines := (d.iodLines.filter fun l => !(l.agent == k && (l.line == m.line || !l.shared))) ++
        [{ agent := k, line := m.line, data := x.data, poison := x.poison, shared := shared }] }
  | a => d.send { kind := .grant, src := .slice q, dst := a, line := m.line, loc := m.loc, op := op, data := x.data, poison := x.poison && op != 2 }

/-- A slice line with a performed write: bytes merged; poison cleared by a whole line, set by a poisoned write (R270, R342). -/
def SLine.write (x : SLine) (m : Msg) : SLine :=
  let full := m.be == BitVec.allOnes 128
  { x with data := mergeLine x.data m.data m.be, dirty := true, valid := true, dir := .v, presence := 0
           poison := m.poison || (x.poison && !full) }

/-- The last action of a request on line `x`, its snoops answered: the device and the line after it (R257, R265, R270).
A reduce-into is not performed here (R268). -/
def Dev.perform (d : Dev) (q : Nat) (m : Msg) (x : SLine) : Dev × SLine :=
  let c := presenceBit m.src
  let bit : BitVec 96 := 1#96 <<< c
  match m.kind with
  | .rds =>
    let y := { x with dir := .s, presence := (match x.dir with
      | .s => x.presence ||| bit
      | _ => bit) }
    (d.deliver q m 0 x true, y)
  | .rdu => (d.deliver q m 0 x false, x)
  | .rdx => (d.deliver q m 1 x false, { x with dir := .x c, presence := bit })
  | .rdxn => (d.deliver q m 2 x false, { x with dir := .x c, presence := bit })
  | .wb =>
    let ack (d : Dev) : Dev := d.send { kind := .wbAck, src := .slice q, dst := m.src, line := m.line, loc := m.loc }
    if x.dir = .x c then
      (ack (d.mirMark (m.line * 128)), { x with data := m.data, poison := m.poison, valid := true, dirty := true, dir := .v, presence := 0 })
    else (ack d, x)
  | .wra => ((d.mirMark (m.line * 128)).send (m.reply .writeAck (.slice q)), x.write m)
  | .ata =>
    if x.poison then
      ((d.sliceCause q 0x2506 5 0x53 (m.line * 128)).send { m.reply .atomRsp (.slice q) with poison := true, code := 0x2506 },
        { x with dir := .v, presence := 0 })
    else
      let (l, old) := atomicLine m.op m.off x.data m.v1 (m.data.toNat % 2 ^ 32)
      ((d.mirMark (m.line * 128)).send { m.reply .atomRsp (.slice q) with v1 := old },
        { x with data := l, dirty := true, dir := .v, presence := 0 })
  | _ => (d, x)

/-- Set a pending entry's phase. -/
def Dev.setPhase (d : Dev) (q id : Nat) (ph : SPhase) : Dev :=
  d.modSlice q fun s => { s with pend := s.pend.map fun p => if p.id = id then { p with phase := ph } else p }

/-- Ask the controller for a line (R304). -/
def Dev.askHbm (d : Dev) (q line loc : Nat) : Dev :=
  d.send { kind := .hbmRead, src := .slice q, dst := .slice q, line := line, loc := loc }

/-- A pending request reads its line from HBM into way `k`; UC_SL_MISSES counts it (R257, R278). -/
def Dev.fillFor (d : Dev) (q : Nat) (p : SPend) (k line loc : Nat) : Dev :=
  ((d.modSlice q fun s =>
    { s with pend := s.pend.map fun o => if o.id = p.id then { o with phase := .fill k, hbm := true } else o }).count .ucSlMisses [q] 31 0).askHbm q
      line loc

/-- A request served without an HBM read is counted in UC_SL_HITS (R278). -/
def Dev.countHit (d : Dev) (q : Nat) (hbm : Bool) : Dev := if hbm then d else d.count .ucSlHits [q] 31 0

/-- Write a dirty line back to HBM when its way is given up (R257). -/
def Dev.writeBack (d : Dev) (q : Nat) (x : SLine) : Dev :=
  if x.dirty then
    d.send { kind := .hbmWrite, src := .slice q, dst := .slice q, line := x.line, loc := x.loc, data := x.data, poison := x.poison }
  else d

/-- The request's line takes a way; its data is read from HBM, except for RDXN (R257). -/
def Dev.install (d : Dev) (q : Nat) (p : SPend) (k : Nat) (shelf : Option Nat) (c : LineClass) : Dev :=
  let d1 := d.modSlice q fun s =>
    { s with lines := s.lines.set k { line := p.req.line, loc := p.req.loc, shelf := shelf, cls := c, used := s.tick + 1 }, tick := s.tick + 1 }
  if p.req.kind = .rdxn then d1.setPhase q p.id .waiting
  else d1.fillFor q p k p.req.line p.req.loc

/-- Answer a request with poison. -/
def Dev.refuse (d : Dev) (q : Nat) (m : Msg) (code : Nat) : Dev :=
  match m.kind with
  | .rds | .rdu | .rdx | .rdxn => d.deliver q m (if m.kind = .rds then 0 else 1) { line := m.line, loc := m.loc, poison := true } false
  | _ => d.send { m.reply m.replyKind (.slice q) with poison := true, code := code }

/-- Take up the earliest pending request of a line, and those behind it as far as they complete (R258). `n` bounds the
requests taken up. -/
def Dev.advance (d : Dev) (q loc : Nat) : Nat → Dev
  | 0 => d
  | n + 1 =>
    let s := d.slice q
    match s.pend.find? (·.req.loc == loc) with
    | none => d
    | some p =>
      if p.phase ≠ .waiting then d
      else if s.pend.any fun o => (match o.phase with
          | .evict w _ => (s.at w).loc == loc
          | _ => false) then d
      else
        let drop (d : Dev) : Dev := d.modSlice q fun s => { s with pend := s.pend.filter (·.id != p.id) }
        match s.find loc with
        | none =>
          if p.req.kind = .wb then
            ((drop (d.send { kind := .wbAck, src := .slice q, dst := p.req.src, line := p.req.line, loc := loc })).countHit q p.hbm).advance q loc n
          else
            match d.winFind (p.req.line * 128) with
            | none => (drop (d.refuse q p.req 0)).advance q loc n
            | some w => match d.choosePlace q loc w (p.req.line * 128) with
              | none => (d.setPhase q p.id .noWay).count .ucSlFillwait [q] 31 0
              | some (k, shelf, c) =>
                let x := s.at k
                if s.lines.has k && !(bitsOf x.presence).isEmpty then
                  let kind := match x.dir with
                    | .x _ => MsgKind.rcl
                    | _ => .inv
                  (bitsOf x.presence).foldl (fun d b => d.snoop q kind x.line x.loc b) (d.setPhase q p.id (.evict k (bitsOf x.presence)))
                else
                  let d1 := (if s.lines.has k then d.writeBack q x else d).install q p k shelf c
                  if p.req.kind = .rdxn then d1.advance q loc n else d1
        | some k =>
          let x := s.at k
          let (kind, who) := x.snoops p.req
          if !who.isEmpty then who.foldl (fun d b => d.snoop q kind x.line x.loc b) (d.setPhase q p.id (.snoop who))
          else if p.req.needsData && !x.valid then d.fillFor q p k x.line loc
          else if p.req.kind = .red then
            (d.modSlice q fun s => { s with lines := s.lines.set k { x with dir := .v, presence := 0 } }).setPhase q p.id .apply
          else
            let (d1, y) := d.perform q p.req x
            (drop ((d1.modSlice q fun s => ({ s with lines := s.lines.set k y } : Slice).touch k).countHit q p.hbm)).advance q loc n

/-- Take up the requests of a line. -/
def Dev.kick (d : Dev) (q loc : Nat) : Dev := d.advance q loc (2 * (d.slice q).pend.length + 2)

/-- A pending entry waits for the answer of presence bit `bit` to a snoop of a line. -/
def SPend.asks (s : Slice) (loc bit : Nat) (p : SPend) : Bool :=
  match p.phase with
  | .snoop l => p.req.loc == loc && l.contains bit
  | .evict k l => (s.at k).loc == loc && l.contains bit
  | _ => false

/-- A request reaches its slice: it joins the pending table, or is held at the port while all 128 entries are in use (R252,
R258). A WB of the owner that a snoop of the line is asking is taken as it arrives (R260). -/
def Dev.arrive (d : Dev) (q : Nat) (m : Msg) : Option Dev :=
  let s := d.slice q
  let asked := m.kind == .wb && s.pend.any (SPend.asks s m.loc (presenceBit m.src))
  if 128 ≤ s.pend.length then none
  else match (if asked then s.find m.loc else none) with
    | some k =>
      let (d1, y) := d.perform q m (s.at k)
      some ((d1.modSlice q fun t => ({ t with lines := t.lines.set k y } : Slice).touch k).countHit q false)
    | none =>
      let id := s.tick + 1
      some ((d.setSlice q { s with tick := id, pend := s.pend ++ [{ id := id, req := m, phase := .waiting }] }).kick q m.loc)

/-! ### Answers to snoops -/

/-- A slice line after a client's reply (R257, R259). -/
def SLine.replied (x : SLine) (m : Msg) (keep : Bool) : SLine :=
  let bit := presenceBit m.src
  let clear : BitVec 96 := x.presence &&& ~~~(1#96 <<< bit)
  let left := if m.kind ≠ .replyNp ∧ keep then x.presence else clear
  let y := { x with presence := left, dir := if left = 0 then .v else .s }
  if m.kind = .replyData then { y with data := m.data, poison := m.poison, dirty := true, valid := true } else y

/-- A reply to a snoop of a slice is taken: the request that waits for it goes on when the last has come (R257). -/
def Dev.snoopReplied (d : Dev) (q : Nat) (m : Msg) : Dev :=
  let s := d.slice q
  let bit := presenceBit m.src
  let d0 := if m.kind = .replyNp then d.count .ucSlNp [q] 31 0 else d
  match s.pend.find? (SPend.asks s m.loc bit) with
  | none => d
  | some p => match p.phase with
    | .snoop l =>
      match s.find m.loc with
      | none => d
      | some k =>
        let keep := (p.req.kind == .rds || p.req.kind == .rdu)
        let d1 := d0.modSlice q fun s => { s with lines := s.lines.set k ((s.at k).replied m keep) }
        let l1 := l.filter (· != bit)
        if l1.isEmpty then (d1.setPhase q p.id .waiting).kick q m.loc else d1.setPhase q p.id (.snoop l1)
    | .evict k l =>
      let d1 := d0.modSlice q fun s => { s with lines := s.lines.set k ((s.at k).replied m false) }
      let l1 := l.filter (· != bit)
      if !l1.isEmpty then d1.setPhase q p.id (.evict k l1)
      else
        let x := (d1.slice q).at k
        let pa := p.req.line * 128
        let place := match d1.winFind pa with
          | some w => match d1.shelfOf w pa with
            | some (sh, c, quota) =>
              let t := d1.slice q
              let ks := (List.range 16).map (16 * sliceSet p.req.loc + ·)
              if x.shelf = some sh then (some sh, c)
              else if t.linesOf sh < quota ∧ (ks.filter (t.classIs fun y => y.shelf.isSome)).length < 12 ∧ t.shelfLines < 36864 then (some sh, c)
              else (none, if c = LineClass.stream then LineClass.untagged else .ordinary)
            | none => (none, LineClass.ordinary)
          | none => (none, LineClass.ordinary)
        let d2 := (d1.writeBack q x).install q p k place.1 place.2
        let d3 := if p.req.kind = .rdxn then d2.kick q p.req.loc else d2
        d3.kick q x.loc
    | _ => d

/-! ### Client copies -/

/-- A grant to this client for this line is still in flight: a snoop that overtook it waits. -/
def Dev.grantComing (d : Dev) (a : Agent) (line : Nat) : Bool := d.net.any fun m => m.kind == .grant && m.dst == a && m.line == line

/-- A bay cache answers a snoop: NP, ACK, or DATA with the bytes of a dirty line, its own or in the write-back buffer (R256,
R259, R260). With `keep` the line stays as S. Answers the cache and the reply. -/
def Bay.snooped (b : Bay) (y line loc : Nat) (keep : Bool) (q : Nat) : Bay × Msg :=
  let r (kind : MsgKind) : Msg := { kind := kind, src := .bay y, dst := .slice q, line := line, loc := loc }
  match b.find line with
  | some k =>
    let x := b.lines.getD k { line := line, loc := loc, st := .s, data := 0 }
    let lines := if keep then b.lines.set k { x with st := .s } else b.lines.erase k
    let m := if x.st = .m then { r .replyData with data := x.data, poison := x.poison } else r .replyAck
    ({ b with lines := lines }, m)
  | none => match b.wbs.find? (·.line == line) with
    | some w => (b, { r .replyData with data := w.data, poison := w.poison })
    | none => (b, r .replyNp)

/-! ### Whole accesses by IOD agents -/

/-- Every copy of a slice line is taken back at once, when nothing about it is in flight: the line is V, or with `keep` S. A client
without a copy counts as an answer NP (R257, R259). -/
def Dev.pullCopies (d : Dev) (q k : Nat) (keep : Bool) : Option Dev :=
  let x := (d.slice q).at k
  let (owned, bits) := match x.dir with
    | .v => (false, [])
    | .s => (false, if keep then [] else bitsOf x.presence)
    | .x b => (true, [b])
  let reply (d : Dev) (m : Msg) (keep : Bool) : Dev :=
    (if m.kind = .replyNp then d.count .ucSlNp [q] 31 0 else d).modSlice q fun s =>
      { s with lines := s.lines.set k ((s.at k).replied m keep) }
  if bits.any fun b => d.grantComing (if b < 64 then .bay b else .iod (b - 64)) x.line then none
  else
    some (bits.foldl (fun d b =>
      if b < 64 then
        if (d.die (b / 8)).st ≠ 2 then
          reply (if owned then d.ownerLost q (b / 8) x.loc else d) { kind := .replyNp, src := .bay b, dst := .slice q } false
        else
          let (bay, m) := (d.bay b).snooped b x.line x.loc keep q
          reply (d.setBay b bay) m keep
      else
        let had := d.iodLines.any fun l => l.agent == b - 64 && l.line == x.line && l.shared
        reply { d with iodLines := d.iodLines.filter fun l => !(l.agent == b - 64 && l.line == x.line && l.shared) }
          { kind := if had then .replyAck else .replyNp, src := .iod (b - 64), dst := .slice q } false) d)

/-- Writes of a line that its controller has not yet performed are performed (R304). -/
def Dev.settleHbm (d : Dev) (q loc : Nat) : Dev :=
  let mine (m : Msg) : Bool := m.kind == .hbmWrite && m.dst == .slice q && m.loc == loc
  (d.net.filter mine).foldl (fun d m => d.hbmPut q m.line m.loc m.data m.poison) { d with net := d.net.filter fun m => !mine m }

/-- Way `k` takes its line's bytes from HBM, as the controller reads them without a finding (R257, R304). -/
def Dev.bring (d : Dev) (q k line loc : Nat) : Dev :=
  let die := q / 16
  let d1 := (d.settleHbm q loc).checkUse q line loc false
  let failed := d1.channelFailed die loc
  let stored := d1.hbmBad die loc
  let d2 := if !failed && stored then d1.count .hbmCtPoisonRd [q] 31 0 else d1
  (d2.count .ucSlMisses [q] 31 0).modSlice q fun s =>
    { s with lines := s.lines.set k { s.at k with data := d1.hbmLine die loc, poison := failed || stored, valid := true } }

/-- The slice holds a line, its copies taken back as `keep` says and, where it is allocated or `needData` asks for it, with current
data (R257, R271); none while a request pends on the line, a copy is in flight, or no way is eligible. -/
def Dev.hold (d : Dev) (l : Loc) (pa : Nat) (keep needData : Bool) : Option (Nat × Nat × Dev) :=
  let loc := l.x / 128
  let q := homeSlice l.die l.x
  let s := d.slice q
  if s.pend.any (·.req.loc == loc) then none
  else match s.find loc with
    | some k =>
      if s.pend.any fun p => (match p.phase with
        | .evict w _ => w == k
        | _ => false) then none
      else (d.pullCopies q k keep).map fun d1 =>
        let d2 := d1.modSlice q (·.touch k)
        (q, k, if needData && !((d2.slice q).at k).valid then d2.bring q k (pa / 128) loc else d2.countHit q false)
    | none => match d.choosePlace q loc l.win pa with
      | none => none
      | some (k, shelf, c) =>
        let out := if s.lines.has k then (d.pullCopies q k false).map fun d1 => d1.writeBack q ((d1.slice q).at k) else some d
        out.map fun d1 =>
          let d2 := d1.modSlice q fun s =>
            ({ s with lines := s.lines.set k { line := pa / 128, loc := loc, shelf := shelf, cls := c } } : Slice).touch k
          (q, k, d2.bring q k (pa / 128) loc)

/-- The line of address `a` for which no way is eligible: the fill that a whole access of IOD agent `i` asks for waits in the pending
table, as RDU asks for it, and UC_SL_FILLWAIT counts it (R269). -/
def Dev.fillWait (d : Dev) (i a : Nat) : Dev :=
  match d.access .core a with
  | none => d
  | some l =>
    let q := homeSlice l.die l.x
    let loc := l.x / 128
    let s := d.slice q
    if (d.die l.die).st != 2 || s.pend.any (·.req.loc == loc) || (s.find loc).isSome || decide (128 ≤ s.pend.length) ||
        (d.choosePlace q loc l.win a).isSome then d
    else
      let m : Msg := { kind := .rdu, src := .iod i, dst := .slice q, line := a / 128, loc := loc, acc := 0x51 }
      (d.setSlice q { s with tick := s.tick + 1, pend := s.pend ++ [{ id := s.tick + 1, req := m, phase := .noWay }] }).count .ucSlFillwait [q] 31 0

/-- Lines that `n` bytes touch, at most. -/
def lineBound (n : Nat) : Nat := n / 128 + 2

/-- A whole access of `n` bytes at `a` waits (R258, R269). -/
def Dev.fillWaits (d : Dev) (i a n : Nat) : Dev :=
  ((List.range (lineBound n)).map fun j => 128 * (a / 128 + j)).foldl (fun d x => if x < a + n then d.fillWait i x else d) d

/-- What a whole access finds. -/
inductive Coh where
  /-- something about the line is in progress: the access waits -/
  | wait
  /-- the home die is fenced -/
  | lost
  | ok (d : Dev) (data : Line) (poison : Bool)

/-- Read a line at its home as RDU does (R257, R290). -/
def Dev.cohRead (d : Dev) (l : Loc) (pa : Nat) : Coh :=
  if (d.die l.die).st ≠ 2 then .lost
  else match d.hold l pa true true with
    | none => .wait
    | some (q, k, d1) => let x := (d1.slice q).at k; .ok d1 x.data x.poison

/-- Change a line at its home as WRA does; book-match windows record it (R257, R270, R414). -/
def Dev.cohWrite (d : Dev) (l : Loc) (pa : Nat) (data : Line) (be : ByteEn) (poison : Bool) : Coh :=
  if (d.die l.die).st ≠ 2 then .lost
  else match d.hold l pa false (be != BitVec.allOnes 128) with
    | none => .wait
    | some (q, k, d1) =>
      let d2 := d1.mirMark pa
      let m : Msg := { kind := .wra, src := .iod 0, dst := .slice q, data := data, be := be, poison := poison }
      .ok (d2.modSlice q fun s => { s with lines := s.lines.set k ((s.at k).write m) }) 0 false

/-- An atomic at the home as ATA does: the old word in the low lane of the answer; poison when not performed (R265, R270). -/
def Dev.cohAtomic (d : Dev) (l : Loc) (pa fn off x y : Nat) : Coh :=
  if (d.die l.die).st ≠ 2 then .lost
  else match d.hold l pa false true with
    | none => .wait
    | some (q, k, d1) =>
      let s := (d1.slice q).at k
      if s.poison then .ok (d1.sliceCause q 0x2506 5 0x53 pa) 0 true
      else
        let (ln, old) := atomicLine fn off s.data x y
        .ok ((d1.mirMark pa).modSlice q fun t => { t with lines := t.lines.set k { s with data := ln, dirty := true } }) (BitVec.ofNat 1024 old) false

/-- A reduce-into at the home as RED does (R267, R268, R270). -/
def Dev.cohReduce (d : Dev) (l : Loc) (pa op ty : Nat) (data : Line) (be : ByteEn) : Coh :=
  if (d.die l.die).st ≠ 2 then .lost
  else match d.hold l pa false true with
    | none => .wait
    | some (q, k, d1) =>
      let s := (d1.slice q).at k
      if s.poison then .ok (d1.sliceCause q 0x2506 5 0x52 pa) 0 true
      else .ok (((d1.mirMark pa).modSlice q fun t =>
        { t with lines := t.lines.set k { s with data := reduceLine op ty s.data data be, dirty := true } }).count .ucSlReds [q] 31 0) 0 false

end Sys2Proof.Machine
end

