-- ==== Sys2Proof/Machine/FenceOps.lean ====
section
/-! DEFINITION. Fencing a compute die (R225, R244 to R246, R259): what becomes of its contexts, its homed requests, the
lines its bay caches own, its clamps, and whom the device tells. -/

namespace Sys2Proof.Machine

/-- Every context on a die is killed, and in one-instance mode every context of the device; the cause is the fence's own (R245, R246). -/
def Dev.killDie (d : Dev) (die code : Nat) : Dev :=
  (d.benches.keys.filter fun b => dieOf b == die || d.instN == 1).foldl (fun d b =>
    (List.range 4).foldl (fun d n =>
      let c := (d.bench b).ctxN n
      if c.valid && !c.killed then d.killQuiet b n code else d) d) d

/-- A message in flight when a die is fenced: requests homed there are answered with poison, snoops of its bay caches with NP,
other traffic for the die is discarded; what other dies have received whole from it goes on, and of what they have
not, a snoop counts as answered NP (R245, R259). -/
def Dev.fenceMsg (d : Dev) (die : Nat) (m : Msg) : Dev :=
  let toDie := agentDie m.dst == some die
  let fromDie := agentDie m.src == some die
  if !toDie then
    if !fromDie || m.ready || m.hub then { d with net := d.net ++ [m] }
    else if m.kind == .replyAck || m.kind == .replyData || m.kind == .replyNp then
      { d with net := d.net ++ [{ m with kind := .replyNp, gw := true }] }
    else d
  else if fromDie then d
  else match m.kind with
    | .rds | .rdx | .rdxn => match m.src with
      | .bay y => match (d.bay y).misses.find? (·.line == m.line) with
        | some x => (x.waiting.foldl (fun d w => d.homeLost die w) d).modBay y fun b => { b with misses := b.misses.filter (·.line != m.line) }
        | none => d
      | _ => d
    | .wra | .ata | .red => d.homeLost die m
    | .wb => d.send { kind := .wbAck, src := m.dst, dst := m.src, line := m.line, loc := m.loc, gw := true }
    | .inv | .dwn | .rcl => d.send { kind := .replyNp, src := m.dst, dst := m.src, line := m.line, loc := m.loc, gw := true }
    | _ => d

/-- A bay cache's data of a line is on its way to the home, received whole by the hub or by the gateway of the home's die (R245). -/
def Dev.dataComing (d : Dev) (y line : Nat) : Bool :=
  d.net.any fun m => (m.kind == .wb || m.kind == .replyData) && m.src == .bay y && m.line == line

/-- Lines homed elsewhere: copies of the die's bay caches leave the directory; an owned one is poisoned with cause 0x510B, unless its data
is on its way (R245). -/
def Dev.dropDieCopies (d : Dev) (die q : Nat) : Dev :=
  let bits := (List.range 8).map (8 * die + ·)
  (d.slice q).lines.cells.foldl (fun d c =>
    let x := c.2
    match x.dir with
    | .x b =>
      if bits.contains b && d.dataComing b x.line then d
      else if bits.contains b then
        (d.ownerLost q die x.loc).modSlice q fun s => { s with lines := s.lines.set c.1 { s.at c.1 with dir := .v, presence := 0 } }
      else d
    | .s =>
      let p := bits.foldl (fun (p : BitVec 96) b => p &&& ~~~(1#96 <<< b)) x.presence
      d.modSlice q fun s => { s with lines := s.lines.set c.1 { x with presence := p, dir := if p = 0 then .v else .s } }
    | .v => d) d

/-- Requests that wait in the slices of a fenced die are answered with poison (R245). -/
def Dev.dropDiePending (d : Dev) (die q : Nat) : Dev :=
  ((d.slice q).pend.foldl (fun d p => d.fenceMsg die { p.req with dst := .slice q }) d).modSlice q fun s => { s with pend := [] }

/-- Fence a die for a cause (R244, R245): its core clock stops and it leaves service; every instance is told (R357). -/
def Dev.fenceDie (d : Dev) (die code : Nat) : Dev :=
  if (d.die die).st = 3 then d
  else
    let d1 := (d.killDie die code).modDie die fun x => { x with st := 3, stopped := true }
    let ms := d1.net
    let d2 := ms.foldl (fun d m => d.fenceMsg die m) { d1 with net := [] }
    let here := (List.range 16).map (16 * die + ·)
    let d3 := d2.slices.keys.foldl (fun d q => if here.contains q then d.dropDiePending die q else d.dropDieCopies die q) d2
    -- clamps (R225)
    let ids := (List.range 256).filter fun i => d3.clampValid i && !d3.clampDevScope i && d3.clampRootDie i == die
    let d4 := ids.foldl (fun d i => d.clrRegBit .clpIdcfg [i] 31) d3
    let d5 := { d4 with
      clampDown := d4.clampDown.filter (·.die != die)
      benches := d4.benches.mapVals fun b x => if dieOf b = die then { x with shadow := ⟨[]⟩ } else x }
    d5.noticeAll 1 code die 0

/-- A cause of the die attach as the IOD records it, with the die's status bit (R249). -/
def Dev.datCause (d : Dev) (die code bit : Nat) : Dev :=
  d.raise .datErrStatus [die] bit { code := code, master := 0xF850 + die, access := 0, addr := 0, inst := none, die := none }

/-- A cause that a die agent records through the die's own collector (R249). -/
def Dev.datDieCause (d : Dev) (die code bit agent : Nat) : Dev :=
  d.raise .datErrStatus [die] bit { code := code, master := die * 0x1000 + agent, access := 0, addr := 0, inst := none, die := some die }

end Sys2Proof.Machine
end

