-- ==== Sys2Proof/Machine/BayCache.lean ====
section
/-! DEFINITION. The commands of the bay caches: bench reads, masked writes and atomics (R253, R262 to R264, R266), grants and
write-back acknowledgements (R253, R262), and the snoops INV, DWN and RCL (R256, R260). -/

namespace Sys2Proof.Machine

/-! ### Findings of the arrays (R276) -/

/-- The effect on the line looked up of what a bay cache's arrays show; answers none while a line must be written back and
the write-back buffer is full. -/
def Dev.bayFind (d : Dev) (y line : Nat) (e : ArrEcc) : Option Dev :=
  let b := d.bay y
  let pa := line * 128
  match e with
  | .ok => some d
  | .tagFix => some ((d.bayCause y 0x2404 3 0x50 pa).count .ucBayCeCount [y] 31 16)
  | .tagLost => some ((d.bayCause y 0x2405 4 0x50 pa).fenceDie (y / 8) 0x2405)
  | .data1 =>
    if (b.find line).isSome then some ((d.bayCause y 0x2401 0 0x50 pa).count .ucBayCeCount [y] 15 0) else some d
  | .data2 => match b.find line with
    | none => some d
    | some k =>
      let x := b.lines.getD k { line := line, loc := 0, st := .s, data := 0 }
      if x.st = .m then
        if 16 ≤ (b.wbs.filter fun w => w.line % 2 == line % 2).length then none
        else
          some (((d.bayCause y 0x2403 2 0x50 pa).setBay y { b with lines := b.lines.erase k }).bayWriteBack y line x.loc x.data true)
      else some (((d.bayCause y 0x2402 1 0x50 pa).setBay y { b with lines := b.lines.erase k }).count .ucBayCeCount [y] 15 0)

/-! ### Requests of benches -/

/-- The bench of a message. -/
def Msg.bench (m : Msg) : Nat :=
  match m.src with
  | .bench b => b
  | _ => 0

/-- The access type of a bench request (R396). -/
def Dev.benchAccess (d : Dev) (m : Msg) : Nat :=
  match m.kind with
  | .benchRead =>
    if m.tag ≠ 0 then 0x40
    else match (d.bench m.bench).fills.find? (·.line == m.line) with
      | some f => if f.jig then 0x10 else if f.plane then 0x30 else 0x12
      | none => 0x10
  | .benchWrite => if m.op = 1 then 0x41 else 0x11
  | _ => 0x34

/-- The bay cache may not ask for a line now: its own write-back of it is unacknowledged, or the half's 64 miss entries are
taken (R253). -/
def Bay.mayNotAsk (b : Bay) (line : Nat) : Bool :=
  b.wbs.any (·.line == line) || decide (64 ≤ (b.misses.filter fun x => x.line % 2 == line % 2).length)

/-- A request joins an outstanding miss of its line (R253). -/
def Bay.join (b : Bay) (m : Msg) : Bay :=
  { b with misses := modFirst (·.line == m.line) (fun x => { x with waiting := x.waiting ++ [m] }) b.misses }

/-- Handle the first bench request of a kind at a bay cache: `k` says what it does on a line the requester may use. -/
def Dev.bayRequest (d : Dev) (y : Nat) (kind : MsgKind) (e : ArrEcc) (k : Msg → Loc → Dev → Option Dev) : Dev :=
  if !d.dieRuns (y / 8) then d
  else match d.recv fun m => m.kind == kind && m.dst == .bay y with
    | none => d
    | some (m, d1) =>
      let pa := m.line * 128
      match d1.access (.inst (d1.instOfDie (y / 8))) pa with
      | none => d1.killIssuer m 0x3101 (d1.benchAccess m) pa
      | some l => match d.bayFind y m.line e with
        | none => d
        | some d2 =>
          if (d2.die (y / 8)).st ≠ 2 then d2
          else match d2.recv fun x => x.kind == kind && x.dst == .bay y with
            | none => d2
            | some (_, d3) => (k m l d3).getD d2

/-- A bench read: a hit is answered; a miss asks the home for a shared copy or joins one outstanding (R253). -/
def bayLoadRequestEffect (y : Nat) (e : ArrEcc) (d : Dev) : Dev :=
  d.bayRequest y .benchRead e fun m l d1 =>
    let b := d1.bay y
    if b.misses.any (·.line == m.line) then some (d1.setBay y (b.join m))
    else match b.find m.line with
      | some k =>
        let x := b.lines.getD k { line := m.line, loc := 0, st := .s, data := 0 }
        match bayPerform y x m with
        | some (_, r) => some (((d1.setBay y (b.touch k)).count .ucBayHits [y] 31 0).send r)
        | none => none
      | none =>
        if b.mayNotAsk m.line then none else some (d1.bayAsk y m.line (l.x / 128) l.die .rds [m])

/-- A write or atomic that the bay cache performs itself: on an owned line at once, otherwise once it is granted the line
(R262, R264). -/
def Dev.bayOwn (d : Dev) (y : Nat) (m : Msg) (l : Loc) (whole : Bool) : Option Dev :=
  let b := d.bay y
  if b.misses.any (·.line == m.line) then some (d.setBay y (b.join m))
  else match b.find m.line with
    | some k =>
      let x := b.lines.getD k { line := m.line, loc := 0, st := .s, data := 0 }
      if x.st = .s ∧ b.mayNotAsk m.line then none
      else
        let d1 := if x.st = .s then d else d.count .ucBayHits [y] 31 0
        some ((d1.modBay y (·.touch k)).bayServe y l.die x k [m])
    | none =>
      if b.mayNotAsk m.line then none
      else some (d.bayAsk y m.line (l.x / 128) l.die (if whole then .rdxn else .rdx) [m])

/-- A masked write (R262, R263, R266): merged, forwarded to the home, or waiting for ownership; a write to a read-only
window or from the merge buffer into a reduction window kills the context. -/
def bayMaskedWriteEffect (y : Nat) (e : ArrEcc) (d : Dev) : Dev :=
  d.bayRequest y .benchWrite e fun m l d1 =>
    let pa := m.line * 128
    if l.ro then some (d1.killIssuer m 0x1701 (d1.benchAccess m) pa)
    else match d1.redWindow (d1.instOfDie (y / 8)) pa with
      | some (op, ty) =>
        if m.op = 1 then some (d1.bayForward y { m with acc := 0x52 } .red l.die (l.x / 128) (4 * op + ty))
        else some (d1.killIssuer m 0x1702 0x11 pa)
      | none =>
        if !(d1.mirOf pa).isEmpty then some (d1.bayForward y { m with acc := d1.benchAccess m } .wra l.die (l.x / 128) 0)
        else d1.bayOwn y m l (m.be == BitVec.allOnes 128)

/-- A thread atomic (R263, R264): performed on an owned line, queued, or forwarded as ATA. -/
def bayAtomicEffect (y : Nat) (e : ArrEcc) (d : Dev) : Dev :=
  d.bayRequest y .benchAtomic e fun m l d1 =>
    let pa := m.line * 128
    if l.ro then some (d1.killIssuer m 0x1701 0x34 pa)
    else if (d1.redWindow (d1.instOfDie (y / 8)) pa).isSome || !(d1.mirOf pa).isEmpty then
      some (d1.bayForward y { m with acc := 0x53 } .ata l.die (l.x / 128) 0)
    else d1.bayOwn y m l false

/-! ### Grants and write-backs -/

/-- A grant: the line takes its way, a dirty victim goes to the write-back buffer, and the waiting requests are performed in
order (R253, R262, R264). -/
def bayGrantEffect (y : Nat) (d : Dev) : Dev :=
  if !d.dieRuns (y / 8) then d
  else match d.recv fun m => m.kind == .grant && m.dst == .bay y with
    | none => d
    | some (m, d1) =>
      let b := d1.bay y
      match b.misses.find? (·.line == m.line) with
      | none => d1
      | some miss =>
        match b.place m.line with
        | none => d
        | some k =>
          let old : Option BayLine := b.lines.find? k
          let out : Option BayLine := match old with
            | some o => if o.line ≠ m.line ∧ o.st = .m then some o else none
            | none => none
          if out.isSome ∧ 16 ≤ (b.wbs.filter fun w => w.line % 2 == m.line % 2).length then d
          else
            let x : BayLine := { line := m.line, loc := m.loc, st := if m.op = 0 then .s else .e, data := m.data, poison := m.poison }
            let b1 : Bay := { b with misses := b.misses.filter (·.line != m.line), lines := b.lines.set k x }
            let b2 : Bay := b1.touch k
            let home := (d1.access .manager (m.line * 128)).map (·.die)
            let d2 := match out with
              | some o => (d1.setBay y b2).bayWriteBack y o.line o.loc o.data o.poison
              | none => d1.setBay y b2
            d2.bayServe y (home.getD (y / 8)) x k miss.waiting

/-- The slice has acknowledged a write-back: its buffer entry is freed (R253). -/
def bayWbAckEffect (y : Nat) (d : Dev) : Dev :=
  if !d.dieRuns (y / 8) then d
  else match d.recv fun m => m.kind == .wbAck && m.dst == .bay y with
    | none => d
    | some (m, d1) => d1.modBay y fun b => { b with wbs := b.wbs.filter (·.line != m.line) }

/-! ### Snoops -/

/-- A bay cache takes the first snoop of a kind, once no grant that it overtook is coming. -/
def Dev.baySnoop (d : Dev) (y : Nat) (kind : MsgKind) (keep : Bool) : Dev :=
  if !d.dieRuns (y / 8) then d
  else match d.recv fun m => m.kind == kind && m.dst == .bay y && !d.grantComing (.bay y) m.line with
    | none => d
    | some (m, d1) =>
      let q := match m.src with
        | .slice q => q
        | _ => 0
      let (b, r) := (d1.bay y).snooped y m.line m.loc keep q
      (d1.setBay y b).send r

/-- INV by presence bit: a bay cache drops its shared copy; for an IOD agent the IOD's directory agent has it dropped and
replies (R254, R256). -/
def invEffect (i : Nat) (d : Dev) : Dev :=
  if i < 64 then d.baySnoop i .inv false
  else match d.recv fun m => m.kind == .inv && m.dst == .iod (i - 64) with
    | none => d
    | some (m, d1) =>
      let had := d1.iodLines.any fun l => l.agent == i - 64 && l.line == m.line && l.shared
      let d2 := { d1 with iodLines := d1.iodLines.filter fun l => !(l.agent == i - 64 && l.line == m.line && l.shared) }
      d2.send { kind := if had then .replyAck else .replyNp, src := .iod (i - 64), dst := m.src, line := m.line, loc := m.loc }

/-- DWN: the line stays as S; dirty data goes back (R256). -/
def dwnEffect (y : Nat) (d : Dev) : Dev := d.baySnoop y .dwn true
/-- RCL: the line is dropped; dirty data goes back (R256). -/
def rclEffect (y : Nat) (d : Dev) : Dev := d.baySnoop y .rcl false

/-! ### The commands -/

section
variable (y : BayIx) (e : ArrEcc) (s : State)

def execBayLoadRequest := s.runLive (bayLoadRequestEffect y e)
def execBayMaskedWrite := s.runLive (bayMaskedWriteEffect y e)
def execBayAtomic := s.runLive (bayAtomicEffect y e)
def execBayGrant := s.runLive (bayGrantEffect y)
def execBayWbAck := s.runLive (bayWbAckEffect y)
def execInv (i : Fin 89) (s : State) := s.runLive (invEffect i)
def execDwn := s.runLive (dwnEffect y)
def execRcl := s.runLive (rclEffect y)
end

end Sys2Proof.Machine
end

