-- ==== Sys2Proof/Machine/MortiseNum.lean ====
section
/-! DEFINITION. The numbers of the mortise engine: panels and their elements (R86 to R88), products (R89, R90),
rough sums (R91 to R93), dressing (R95 to R97), the drain (R98 to R101) and its random bits (R103, R104). -/

namespace Sys2Proof.Machine

/-! ### Formats and elements -/

/-- Bits of an element (R86). -/
def elemBits (code : Nat) : Nat :=
  match code with
  | 0 => 4
  | 1 | 2 => 6
  | 8 | 9 => 16
  | 10 => 32
  | _ => 8

/-- MX formats carry block scales (R63). -/
def isMx (code : Nat) : Bool := decide (code ≤ 5)
/-- Plain FP8 formats carry a per-operand scale (R64). -/
def isPlain8 (code : Nat) : Bool := code == 6 || code == 7

/-- Rate group: 0 for 4-bit, 1 for 8-bit, 2 for 16-bit, 3 for FP32 (R63). -/
def rateGroup (code : Nat) : Nat :=
  match code with
  | 0 => 0
  | 8 | 9 => 2
  | 10 => 3
  | _ => 1

/-- K elements of a slice (R62). -/
def kcOf (g : Nat) : Nat := if g = 0 then 8 else 4
/-- Steps between dressings (R94). -/
def dressEvery (g : Nat) : Nat := if g = 0 then 8 else 4

/-- The value of an element's encoding (R86). -/
def elemVal (code raw : Nat) : Fv :=
  match code with
  | 0 => mxE2m1.dec raw
  | 1 => mxE2m3.dec raw
  | 2 => mxE3m2.dec raw
  | 3 | 6 => fp8E4m3.dec raw
  | 4 | 7 => fp8E5m2.dec raw
  | 5 => Fv.ofInt (sxt 8 raw) (-6) false
  | 8 => bf16.dec raw
  | 9 => fp16.dec raw
  | _ => fp32.dec raw

/-- The raw code of element `k` of a row at byte `a`, bytes read by `rd` (R87). -/
def elemRaw (rd : Nat → Byte) (code a k : Nat) : Nat :=
  let by' (i n : Nat) : Nat := leNat ((List.range n).map fun j => rd (a + i + j))
  match elemBits code with
  | 4 => nfld (by' (k / 2) 1) (4 * (k % 2) + 3) (4 * (k % 2))
  | 6 => nfld (by' (3 * (k / 4)) 3) (6 * (k % 4) + 5) (6 * (k % 4))
  | 16 => by' (2 * k) 2
  | 32 => by' (4 * k) 4
  | _ => by' k 1

/-- A block scale multiplies exactly; 0xFF makes a NaN (R88). -/
def scaleBy (e : Nat) (v : Fv) : Fv :=
  if e = 0xFF then .nan
  else match v with
    | .fin s m x => .fin s m (x + e - 127)
    | v => v

/-- A panel: format, element base and stride, scale base and stride, rows, and elements in a row (R66, R187). -/
structure Panel where
  fmt : Nat
  base : Nat
  stride : Nat
  sbase : Nat
  sstride : Nat
  rows : Nat
  len : Nat
deriving DecidableEq, Repr

/-- The panel of an operand quad; for 16-bit and 32-bit elements the low bits of base and stride are ignored (R87). -/
def panelOf (fmt : Nat) (quad : List W32) (rows len : Nat) : Panel :=
  let q (i : Nat) : Nat := (quad.getD i 0).toNat
  let al (x : Nat) : Nat := if elemBits fmt < 16 then x else x / (elemBits fmt / 8) * (elemBits fmt / 8)
  { fmt := fmt, base := al (q 0), stride := al (q 1), sbase := q 2, sstride := q 3, rows := rows, len := len }

/-- First and last byte of the element panel. -/
def Panel.span (p : Panel) : Nat × Nat :=
  (p.base, p.base + (p.rows - 1) * p.stride + p.len * elemBits p.fmt / 8 - 1)
/-- First and last byte of the scale panel: a partial block's scale is read too (R88). -/
def Panel.scaleSpan (p : Panel) : Nat × Nat :=
  (p.sbase, p.sbase + (p.rows - 1) * p.sstride + (p.len + 31) / 32 - 1)

/-- Element (row, k), scaled; zero beyond the panel's extents (R66). -/
def Panel.elem (p : Panel) (rd : Nat → Byte) (row k : Nat) : Fv :=
  if p.rows ≤ row ∨ p.len ≤ k then .fin false 0 0
  else
    let v := elemVal p.fmt (elemRaw rd p.fmt (p.base + row * p.stride) k)
    if isMx p.fmt then scaleBy (rd (p.sbase + row * p.sstride + k / 32)).toNat v else v

/-! ### Products -/

/-- Truncation toward zero to BF16 (R90). -/
def truncBf16 : Fv → Fv
  | .fin s m e =>
    let q := bf16.ulp m e
    if q ≤ e then .fin s m e else .fin s (m >>> (q - e).toNat) q
  | v => v

/-- Part `i` of an FP32 operand split into BF16 parts (R90). -/
def splitPart (i : Nat) (x : Fv) : Fv :=
  let x0 := truncBf16 x
  let r1 := x.add x0.neg
  let x1 := truncBf16 r1
  match i with
  | 0 => x0
  | 1 => x1
  | _ => truncBf16 (r1.add x1.neg)

/-- The parts that each FP32 pass multiplies, in the order of R64. -/
def passParts : List (Nat × Nat) := [(2, 0), (1, 1), (0, 2), (1, 0), (0, 1), (0, 0)]

def Fv.finite : Fv → Bool
  | .fin _ _ _ => true
  | _ => false

/-- The exponent of the leading one. -/
def Fv.lead : Fv → Int
  | .fin _ m e => e + Nat.log2 m
  | _ => 0

/-- A product and the bound exponent P = ea + eb + 2 of a nonzero finite one (R92). -/
structure MProd where
  val : Fv
  p : Option Int
deriving DecidableEq, Repr

def prodOf (a b : Fv) : MProd :=
  let v := a.mul b
  { val := v, p := if v.finite && !v.isZero then some (a.lead + b.lead + 2) else none }

/-- The product of an element pair in a pass; an FP32 pair with an infinity or NaN counts in the last pass only (R90). -/
def pairProd (g pass : Nat) (a b : Fv) : MProd :=
  if g ≠ 3 then prodOf a b
  else if a.finite && b.finite then
    let q := passParts.getD pass (0, 0)
    prodOf (splitPart q.1 a) (splitPart q.2 b)
  else if pass = 5 then prodOf a b
  else { val := .fin false 0 0, p := none }

/-! ### Rough sums -/

/-- Update of a special tag by a special product (R93). -/
def tagStep (t : Special) (v : Fv) : Special :=
  match t, v with
  | .nan, _ => .nan
  | _, .nan => .nan
  | t, .inf s =>
    let mine : Special := if s then .negInf else .posInf
    if t = .none ∨ t = mine then mine else .nan
  | t, _ => t

/-- rne(p / 2^(E − 19)) of a finite product (R92). -/
def alignProd (e : Int) (v : Fv) : Int :=
  match v with
  | .fin s m x =>
    let q := e - 19
    let k : Nat := if q ≤ x then m <<< (x - q).toNat else rneShift m (q - x).toNat
    if s then -(k : Int) else k
  | _ => 0

/-- The right shift of a rough sum when E rises, rounding the magnitude (R92). -/
def roughShift (r : Rough) (d : Nat) : Rough :=
  let k : Int := rneShift r.val.natAbs d
  { r with val := if r.val < 0 then -k else k }

/-- One step of an alignment row: `keys` are the row's rough sums, `ps` the products of each (R92, R93). DESIGN CHOICE (log 22): each rough sum
has a special tag, so an element that has several rough sums, in KD and KS shapes, has as many tags. -/
def alignRow (m : Mortise) (row : Nat) (h : Int) (ps : List (Nat × List MProd)) : Mortise :=
  let pmax := (ps.flatMap fun x => x.2.filterMap (·.p)).foldl (fun (a : Option Int) p =>
    match a with
    | none => some p
    | some q => some (max p q)) none
  let get (m : Mortise) (k : Nat) : Rough := m.rough.getD k ⟨0, .none⟩
  let m1 : Mortise := match pmax, m.rowE.find? row with
    | none, _ => m
    | some p, none => { m with rowE := m.rowE.set row (p + h) }
    | some p, some e =>
      if e < p + h then
        { m with
          rowE := m.rowE.set row (p + h)
          rough := ps.foldl (fun r x => r.set x.1 (roughShift (get m x.1) (p + h - e).toNat)) m.rough }
      else m
  let e := m1.rowE.getD row 0
  { m1 with
    rough := ps.foldl (fun r x =>
      let old := r.getD x.1 ⟨0, .none⟩
      r.set x.1 (x.2.foldl (fun q p => { val := q.val + alignProd e p.val, tag := tagStep q.tag p.val }) old)) m1.rough }

/-! ### Dressing -/

/-- MRT_NUM_FLAGS bits (R113). -/
def nfNan : Nat := 1
def nfInf : Nat := 2
def nfOvf : Nat := 4
def nfUnf : Nat := 8
def nfSat : Nat := 16

/-- S, C and the numeric flags. -/
structure Dressed where
  s : Nat
  c : Nat
  flags : Nat
deriving DecidableEq, Repr

/-- One dressing of one element (R95, R97): `e` is the row's alignment exponent, `sigma` an FP32 value. DESIGN CHOICE (log 22): a NaN that comes to
stand in S or C is the canonical 0x7FC0_0000. -/
def dressElem (x : Dressed) (r : Rough) (e : Int) (sigma : Nat) : Dressed :=
  let sp (v f : Nat) : Dressed := { s := f32Add x.s v, c := 0, flags := x.flags ||| f }
  match r.tag with
  | .nan => sp 0x7FC00000 nfNan
  | .posInf => sp 0x7F800000 nfInf
  | .negInf => sp 0xFF800000 nfInf
  | .none =>
    let (v, ovf) := fp32.enc (Fv.ofInt r.val (e - 19) false)
    let one := sigma == 0x3F800000
    let h := if one then v else f32Mul v sigma
    let l := if one then 0 else f32Fma v sigma (f32Neg h)
    let s := f32Add x.s h
    let bp := f32Sub s x.s
    let er := f32Add (f32Sub x.s (f32Sub s bp)) (f32Sub h bp)
    let c := f32Add x.c (f32Add er l)
    let inf := s % 2 ^ 31 == 0x7F800000
    { s := s, c := if inf then 0 else c, flags := x.flags ||| (if ovf || inf then nfOvf else 0) }

/-- Element (i, j) of a glue-up set: S in the low, C in the high 32 bits (R98). -/
def gElem (g : GData) (n : Nat) : Nat × Nat := (laneN g 32 (2 * n), laneN g 32 (2 * n + 1))

/-- Dress a list of (element number, rough sums in order) into a set; answers the set and the flags. -/
def dressAll (g : GData) (xs : List (Nat × List (Rough × Int))) (sigma : Nat) : GData × Nat :=
  xs.foldl (fun (a : GData × Nat) x =>
    let (s, c) := gElem a.1 x.1
    let r := x.2.foldl (fun q re => dressElem q re.1 re.2 sigma) ⟨s, c, a.2⟩
    (setLaneN (setLaneN a.1 32 (2 * x.1) r.s) 32 (2 * x.1 + 1) r.c, r.flags)) (g, 0)

/-! ### The drain -/

/-- `mix` of R104. -/
def srMix (x : W32) : W32 :=
  let x := x ^^^ (x >>> 16)
  let x := x * 0x7FEB352D#32
  let x := x ^^^ (x >>> 15)
  let x := x * 0x846CA68B#32
  x ^^^ (x >>> 16)

/-- The 16 random bits of element `i` (R104). -/
def srBits (seed : W32) (b : Nat) (t : W32) (i : Nat) : Nat :=
  let x := srMix (seed ^^^ BitVec.ofNat 32 b)
  let x := srMix (x ^^^ t)
  let x := srMix (x ^^^ BitVec.ofNat 32 i)
  x.toNat % 65536

/-- The float format of an output code (R99). -/
def outFmt (out : Nat) : FpFmt :=
  match out % 8 with
  | 1 => fp32
  | 2 => bf16
  | 3 => fp16
  | 4 => fp8E4m3
  | _ => fp8E5m2

/-- Bytes of an output element (R99). -/
def outBytes (out : Nat) : Nat :=
  match out % 8 with
  | 0 => 8
  | 1 => 4
  | 2 | 3 => 2
  | _ => 1

/-- One conversion under R100: `v` is the exact value, `zneg` the sign of a zero result, `sr` the random bits
of stochastic rounding. Answers the encoding and the flags. -/
def convR100 (f : FpFmt) (v : Fv) (zneg : Bool) (sr : Option Nat) : Nat × Nat :=
  let fp8 := f.bits == 8
  match v with
  | .nan => (if fp8 then (if f.kind = .e4m3 then 0x7F else 0x7E) else f.nanCode, nfNan)
  | .inf s => (if f.kind = .e4m3 then 0x7F else f.withSign s f.top, nfInf)
  | .fin s m e =>
    let c := f.roundMag m e sr
    if f.top ≤ c then (if fp8 then (f.withSign s (f.top - 1), nfSat) else (f.withSign s f.top, nfOvf))
    else if c = 0 then (f.withSign zneg 0, if m ≠ 0 then nfUnf else 0)
    else (f.withSign s c, 0)

/-- Whether a value is +0. -/
def Fv.posZero : Fv → Bool
  | .fin false 0 _ => true
  | _ => false

/-- One drained element: S + C rounded once (R100). -/
def drainElem (out s c : Nat) (sr : Option Nat) : Nat × Nat :=
  let vs := fp32.dec s
  let vc := fp32.dec c
  match vs with
  | .nan => convR100 (outFmt out) .nan false none
  | .inf b => convR100 (outFmt out) (.inf b) false none
  | .fin _ _ _ => convR100 (outFmt out) (vs.add vc) (if vs.posZero then vc.sign else vs.sign) sr

/-- The tile that a set drains as, and the flags: elements outside VROWS × VCOLS are +0; FULL copies S and C (R98 to R101). -/
def drainTile (g : GlueSet) (seed : W32) (b : Nat) (t : W32) : GData × Nat :=
  let nb := outBytes g.out
  let valid (i : Nat) : Bool := decide (i / 32 < g.vrows) && decide (i % 32 < g.vcols)
  let xs : List (Nat × Nat) := (List.range 1024).map fun i =>
    if !valid i then (0, 0)
    else
      let (s, c) := gElem g.data i
      if g.out % 8 = 0 then (s + c <<< 32, 0)
      else drainElem g.out s c (if g.out / 8 % 2 = 1 then some (srBits seed b t i) else none)
  (BitVec.ofNat 65536 (packLanes (8 * nb) (xs.map (·.1))), xs.foldl (fun a x => a ||| x.2) 0)

end Sys2Proof.Machine
end

