-- ==== Sys2Proof/Machine/Flags.lean ====
section
/-! DEFINITION. The sticky flags of the plane engine (PLN_FLAGS, R115, R119, R122, R127): which flags an
operation raises, and their accumulation in the running context's flags. A set of flags is a number with
the bit places of PLN_FLAGS (R133). -/

namespace Sys2Proof.Machine

def flRange : Nat := 1
def flOverflow : Nat := 2
def flNan : Nat := 4
def flOvf : Nat := 8
def flSat : Nat := 16

/-- Raise sticky flags of bench `b`'s running context. -/
def Dev.stick (d : Dev) (b fl : Nat) : Dev :=
  if fl = 0 then d else d.orReg .plnFlags [b] (BitVec.ofNat 32 fl)

/-- NAN: a NaN result from operands that are no NaN (R119). -/
def nanFlag (result : Fv) (srcs : List Fv) : Nat :=
  if result.isNan && !srcs.any (·.isNan) then flNan else 0

/-- The encoding of an exact result rounded once, with the flags it raises: NAN and, for a finite result that
rounds to infinity, OVF (R119). -/
def encFlags (f : FpFmt) (v : Fv) (srcs : List Fv) : Nat × Nat :=
  let (c, o) := f.enc v
  (c, nanFlag v srcs ||| (if o then flOvf else 0))

/-- Clip an integer to a range; clipping raises SAT (R119, R124). -/
def clipSat (lo hi i : Int) : Int × Nat :=
  if i < lo then (lo, flSat) else if hi < i then (hi, flSat) else (i, 0)

/-- Range of an integer type of `es` bits. -/
def intLo (signed : Bool) (es : Nat) : Int := if signed then -(2 ^ (es - 1) : Nat) else 0
def intHi (signed : Bool) (es : Nat) : Int := if signed then ((2 ^ (es - 1) : Nat) : Int) - 1 else ((2 ^ es : Nat) : Int) - 1

/-- The sticky flags that the flags of R100 stand for in a plane conversion. -/
def flagsOfR100 (fl : Nat) (src : Fv) (toNan : Bool) : Nat :=
  (if toNan && !src.isNan then flNan else 0) ||| (if fl.testBit 2 then flOvf else 0) ||| (if fl.testBit 4 then flSat else 0)

end Sys2Proof.Machine
end

