-- ==== Sys2Proof/Machine/Encodings.lean ====
section
/-! DEFINITION. The instruction encodings (R177 to R196): fields, and which encodings are reserved
(R178). A 32-bit jig instruction is given as a word of 64 bits whose upper half is zero. -/

namespace Sys2Proof.Machine

/-- The major opcode (R177). -/
def majorOf (w : W64) : Nat := fld w 5 0

/-- Majors of 64-bit instructions (R177): the reserved majors 0x36, 0x37 and 0x3F have no size, and a parcel that holds one raises its
reserved-encoding cause wherever it stands (R185, R197). -/
def major64 (m : Nat) : Bool := decide (0x30 ≤ m) && !(m == 0x36 || m == 0x37 || m == 0x3F)

/-- Jig instruction fields (R180). -/
def jRd (w : W64) : Nat := fld w 10 6
def jRs1 (w : W64) : Nat := fld w 15 11
def jRs2 (w : W64) : Nat := fld w 20 16
def jImm (w : W64) : Nat := fld w 31 16
def jFn (w : W64) : Nat := fld w 31 21

/-- The ALU function codes of R183. -/
def aluFns : List Nat := [0, 1, 2, 3, 4, 5, 6, 7, 8, 9, 10, 11, 12, 13, 16, 17, 18, 20, 21, 22, 23]

/-- A reserved jig encoding, majors 0x00 to 0x2F (R178, R181 to R184). -/
def jigReserved (w : W64) : Bool :=
  match majorOf w with
  | 0x01 => !aluFns.contains (jFn w)
  | 0x02 | 0x03 | 0x04 | 0x05 | 0x06 | 0x07 | 0x09 => false
  | 0x08 => decide (2 < jFn w)
  | 0x0A | 0x0B | 0x0C | 0x0D | 0x0E | 0x0F | 0x10 | 0x11 => jRs1 w % 2 == 1
  | 0x12 => jRs1 w % 2 == 1 || jRd w != 0
  | 0x13 | 0x14 | 0x15 | 0x16 | 0x17 | 0x18 | 0x19 | 0x1A | 0x1C => false
  | 0x1B =>
    match fld w 20 16 with
    | 0 | 1 => fld w 15 6 != 0 || fld w 31 21 != 0
    | 2 => fld w 15 11 != 0 || fld w 31 21 != 0
    | 3 => fld w 15 6 != 0 || fld w 31 25 != 0 || fld w 24 23 == 0
    | _ => true
  | 0x1D => fld w 31 14 != 0
  | 0x1E => fld w 31 16 != 0
  | 0x1F =>
    match fld w 7 6 with
    | 0 => decide (8 < fld w 17 14)
    | 1 => fld w 31 11 != 0
    | 2 => fld w 31 17 != 0
    | _ => true
  | 0x20 =>
    let sub := fld w 7 6
    sub == 3 || fld w 31 23 != 0 || (fld w 8 8 == 0 && decide (64 ≤ fld w 16 9)) ||
      (sub != 2 && fld w 17 17 != 0) || (sub == 0 && fld w 22 18 != 0)
  | 0x21 => fld w 31 16 != 0
  | _ => true

/-- A reserved mortise encoding, majors 0x30 to 0x37 (R186). -/
def mortiseReserved (w : W64) : Bool :=
  match majorOf w with
  | 0x30 => fld w 63 49 != 0
  | 0x31 => fld w 63 39 != 0 || fld w 22 7 == 0
  | 0x32 => fld w 63 23 != 0
  | 0x33 => fld w 63 24 != 0
  | 0x34 => fld w 63 6 != 0
  | 0x35 =>
    fld w 63 18 != 0 ||
      match fld w 9 6 with
      | 0 => false
      | 1 => fld w 12 10 != 0
      | 2 => fld w 12 12 != 0 || fld w 11 10 == 3 || fld w 17 13 != 0
      | _ => true
  | _ => true

/-! ### Plane formats -/

/-- Format P fields (R188). -/
def pVd (w : W64) : Nat := fld w 13 6
def pVa (w : W64) : Nat := fld w 21 14
def pVb (w : W64) : Nat := fld w 29 22
def pVc (w : W64) : Nat := fld w 37 30
def pMk (w : W64) : Nat := fld w 40 38
def pZm (w : W64) : Bool := w.getLsbD 41
def pBcA (w : W64) : Bool := w.getLsbD 42
def pBcB (w : W64) : Bool := w.getLsbD 43
def pBcC (w : W64) : Bool := w.getLsbD 44
def pEs (w : W64) : Nat := fld w 46 45
def pTy (w : W64) : Nat := fld w 49 47
def pFn (w : W64) : Nat := fld w 57 50

/-- Element size in bits of an ES code (R188). -/
def esBits (c : Nat) : Nat := 8 * 2 ^ c

/-- The legal TY and ES pairs (R188). -/
def tyEs (ty es : Nat) : Bool :=
  match ty with
  | 0 | 1 => decide (es < 3)
  | 2 => es == 2
  | 3 | 4 => es == 1
  | 5 | 6 => es == 0
  | _ => false

def tyInt (ty : Nat) : Bool := decide (ty < 2)
/-- The float types of arithmetic: FP32, BF16, FP16 (R119). -/
def tyFp (ty : Nat) : Bool := 2 ≤ ty && ty ≤ 4

/-- Which of the sources a, b, c a format-P function reads as vector registers, whether it accepts the
type, and whether VC and VD hold what the function allows (R188 to R190); none for a reserved function. -/
structure PUse where
  a : Bool
  b : Bool
  c : Bool
  ty : Bool
  rest : Bool

def vopUse (w : W64) : Option PUse :=
  let fn := pFn w
  let ty := pTy w
  if fn ≤ 4 then some ⟨true, true, false, tyInt ty || tyFp ty, pVc w == 0⟩
  else if fn = 5 ∨ fn = 6 then some ⟨true, false, false, tyFp ty, pVc w == 0⟩
  else if 8 ≤ fn ∧ fn ≤ 0xA then some ⟨true, true, true, tyFp ty, true⟩
  else if 0x10 ≤ fn ∧ fn ≤ 0x14 then some ⟨true, false, false, ty == 2, pVc w == 0⟩
  else if 0x18 ≤ fn ∧ fn ≤ 0x1D then some ⟨true, true, false, tyInt ty, pVc w == 0⟩
  else if fn = 0x20 then
    some ⟨true, false, false, true, tyEs (nfld (pVc w) 2 0) (nfld (pVc w) 4 3) && nfld (pVc w) 7 5 == 0⟩
  else if 0x28 ≤ fn ∧ fn ≤ 0x2D then some ⟨true, true, false, true, pVc w == 0 && nfld (pVd w) 7 3 == 0⟩
  else if fn = 0x30 then some ⟨true, true, false, true, nfld (pVc w) 7 3 == 0⟩
  else none

def vmoveUse (w : W64) : Option PUse :=
  let fn := pFn w
  let ty := pTy w
  let es := pEs w
  let im := pVc w
  if fn = 0 ∨ (6 ≤ fn ∧ fn ≤ 9) then some ⟨true, true, false, true, im == 0⟩
  else if fn = 1 then some ⟨true, true, true, true, true⟩
  else if fn = 2 ∨ fn = 5 then some ⟨true, false, false, true, true⟩
  else if fn = 3 then some ⟨true, false, false, true, im == 0⟩
  else if fn = 4 then some ⟨true, false, false, true, im != 0⟩
  else if fn = 0x10 then
    some ⟨true, true, false,
      (if im = 0 then true else if im ≤ 2 then tyInt ty else tyFp ty), decide (1 ≤ es) && decide (im ≤ 4)⟩
  else if fn = 0x11 ∨ fn = 0x12 then
    some ⟨true, false, false, (if im ≤ 1 then true else !tyInt ty),
      decide (es ≤ 1) && decide (im ≤ 3) && !(im == 3 && es == 1)⟩
  else none

/-- A mask-logic encoding is well formed: mask numbers in the low three bits of VD, VA and VB, and ES,
TY, MK, ZM, BC, VC zero (R189). -/
def maskLogicOk (w : W64) : Bool :=
  nfld (pVd w) 7 3 == 0 && nfld (pVa w) 7 3 == 0 && nfld (pVb w) 7 3 == 0 && pVc w == 0 && fld w 49 38 == 0 &&
    (pFn w != 0x3C || pVb w == 0)

/-- Thread streams: register fields name u0 to u31, MK and ZM are zero (R194). `vdMask` marks a VD that
names a mask. -/
def threadRegsOk (w : W64) (u : PUse) : Bool :=
  pMk w == 0 && !pZm w && decide (pVd w < 32) && decide (pVa w < 32) && decide (pVb w < 32) && (!u.c || decide (pVc w < 32))

/-- A format-P encoding is reserved. -/
def formatPReserved (w : W64) (thread : Bool) : Bool :=
  let use := if majorOf w = 0x38 then vopUse w else vmoveUse w
  fld w 63 58 != 0 ||
  (if majorOf w = 0x38 ∧ 0x38 ≤ pFn w ∧ pFn w ≤ 0x3C then thread || !maskLogicOk w
   else
    match use with
    | none => true
    | some u =>
      !tyEs (pTy w) (pEs w) || !u.ty || !u.rest || (!u.a && (pVa w != 0 || pBcA w)) || (!u.b && (pVb w != 0 || pBcB w)) ||
        (!u.c && pBcC w) || (thread && !threadRegsOk w u) || (thread && majorOf w == 0x38 && pFn w == 0x30))

/-- A reserved VMEM encoding (R191). -/
def vmemReserved (w : W64) : Bool :=
  let fn := fld w 41 38
  let es := fld w 37 36
  fld w 63 42 != 0 || es == 3 || fld w 22 22 == 1 ||
    match fn with
    | 0 | 1 => fld w 21 14 != 0
    | 2 | 3 => fld w 31 27 != 0 || decide (255 < fld w 21 14 + 32 / esBits es - 1)
    | 4 => fld w 21 6 != 0 || fld w 37 27 != 0
    | _ => true

/-- A reserved VSEL encoding (R192). -/
def vselReserved (w : W64) : Bool :=
  let zm := w.getLsbD 42
  fld w 47 46 != 0 || fld w 41 39 != 0 ||
    match fld w 7 6 with
    | 0 => fld w 33 29 != 0 || fld w 38 34 != 0 || zm || decide (63 < fld w 63 48)
    | 1 => fld w 33 29 != 0 || fld w 38 34 != 0 || decide (63 < fld w 63 48)
    | 2 => fld w 15 8 != 0 || zm || fld w 34 34 == 1
    | _ => fld w 23 16 != 0 || fld w 34 34 == 1

/-- A reserved VCTL encoding (R193): fields a function does not use must be zero. -/
def vctlReserved (w : W64) : Bool :=
  let vd := fld w 19 12
  let va := fld w 27 20
  let jd := fld w 32 28
  let js := fld w 37 33
  let mk := fld w 40 38
  let dd := fld w 44 42
  let c := fld w 49 45
  fld w 63 50 != 0 || w.getLsbD 41 ||
    match fld w 11 6 with
    | 0x00 => vd != 0 || va != 0 || mk != 0 || dd != 0 || c != 0
    | 0x01 => va != 0 || jd != 0 || mk != 0 || dd != 0 || c != 0
    | 0x02 => vd != 0 || va != 0 || js != 0 || mk != 0 || dd != 0 || c != 0
    | 0x08 | 0x09 | 0x0A | 0x0B => vd != 0 || decide (7 < va) || js != 0 || dd != 0 || c != 0
    | 0x0C | 0x0D | 0x0E | 0x0F | 0x10 | 0x11 => vd != 0 || js != 0 || dd != 0 || c != 0
    | 0x18 => va != 0 || jd != 0 || js != 0 || mk != 0
    | 0x19 => vd != 0 || va != 0 || js != 0 || mk != 0 || c != 0
    | 0x1A => vd != 0 || va != 0 || jd != 0 || js != 0 || mk != 0 || dd != 0 || c != 0
    | _ => true

/-- A reserved TCTL encoding (R195). -/
def tctlReserved (w : W64) : Bool :=
  let ua := fld w 16 12
  let ub := fld w 21 17
  let ud := fld w 26 22
  let sc := fld w 28 27
  let kd := fld w 30 29
  let dev := w.getLsbD 31
  let cx := fld w 39 32
  let off := fld w 63 40
  let clpBad := !dev && decide (64 ≤ cx)
  match fld w 11 6 with
  | 0x00 | 0x01 => ub != 0 || ud != 0 || sc != 0 || kd != 0 || dev || cx != 0
  | 0x02 => ua != 0 || ub != 0 || ud != 0 || sc != 0 || kd != 0 || dev || cx != 0
  | 0x03 | 0x04 => fld w 63 12 != 0
  | 0x05 => ua != 0 || ub != 0 || ud != 0 || kd == 0 || dev || cx != 0 || off != 0
  | 0x06 => ua != 0 || ub != 0 || fld w 31 27 != 0
  | 0x08 => ua != 0 || ub != 0 || ud != 0 || sc != 0 || kd != 0 || off != 0 || clpBad
  | 0x09 | 0x0A => ua != 0 || ud != 0 || sc != 0 || kd != 0 || off != 0 || clpBad
  | 0x10 => ud != 0 || fld w 30 30 == 1 || dev || cx != 0 || off != 0
  | _ => true

/-- A reserved TMEM encoding (R196). -/
def tmemReserved (w : W64) : Bool :=
  let fn := fld w 11 6
  let es := fld w 38 37
  fld w 63 55 != 0 || (fn != 0x1C && fld w 36 32 != 0) || es == 3 ||
    !(decide (fn ≤ 2) || (decide (0x10 ≤ fn) && decide (fn ≤ 0x1C) && es == 2))

/-- The cause a plane encoding raises at issue, if any: 0x1603 for a reserved encoding and for what
R194 reserves in thread streams, 0x1403 for what R143 forbids there (R178, R194). -/
def planeBad (w : W64) (thread : Bool) : Option Nat :=
  let bad (x : Bool) : Option Nat := if x then some 0x1603 else none
  match majorOf w with
  | 0x38 | 0x39 => bad (formatPReserved w thread)
  | 0x3A => bad (thread || vmemReserved w)
  | 0x3B => if vselReserved w then some 0x1603 else if thread then some 0x1403 else none
  | 0x3C =>
    if vctlReserved w then some 0x1603
    else if thread then (if fld w 11 6 = 1 then some 0x1603 else some 0x1403) else none
  | 0x3D => bad (!thread || tctlReserved w)
  | 0x3E => bad (!thread || tmemReserved w)
  | 0x00 => some 0x1601
  | 0x36 | 0x37 => some 0x1602
  | _ => some 0x1603

/-- The cause that the decoder raises for a word of the jig stream, if any (R178, R197). -/
def jigStreamBad (w : W64) : Option Nat :=
  let m := majorOf w
  if m < 0x30 then (if jigReserved w then some 0x1601 else none)
  else if m < 0x38 then (if mortiseReserved w then some 0x1602 else none)
  else planeBad w false

/-- The vector-register fields a format-P instruction names, as destination or source (R188 to R190). -/
def formatPRegs (w : W64) : List Nat :=
  let mask := majorOf w == 0x38 && decide (0x28 ≤ pFn w) && decide (pFn w ≤ 0x2D)
  match (if majorOf w = 0x38 then vopUse w else vmoveUse w) with
  | none => []
  | some u => (if mask then [] else [pVd w]) ++ (if u.a then [pVa w] else []) ++ (if u.b then [pVb w] else []) ++
      (if u.c then [pVc w] else [])

/-- The vector registers, or thread registers, that a plane or thread instruction reads or writes (R116, R120, R188 to R196). -/
def vecNames (w : W64) : List Nat :=
  let fn := fld w 11 6
  match majorOf w with
  | 0x38 | 0x39 => formatPRegs w
  | 0x3A =>
    match fld w 41 38 with
    | 0 | 1 => [fld w 13 6]
    | 2 | 3 => fld w 13 6 :: (List.range (32 / esBits (fld w 37 36))).map (fld w 21 14 + ·)
    | _ => []
  | 0x3B =>
    match fld w 7 6 with
    | 0 | 1 => [fld w 15 8, fld w 23 16]
    | 2 => [fld w 23 16]
    | _ => [fld w 15 8]
  | 0x3C =>
    if fn = 1 ∨ fn = 0x18 then [fld w 19 12] else if 0x0C ≤ fn ∧ fn ≤ 0x11 then [fld w 27 20] else []
  | 0x3D =>
    match fn with
    | 0x00 | 0x01 => [fld w 16 12]
    | 0x06 => [fld w 26 22]
    | 0x09 | 0x0A => [fld w 21 17]
    | 0x10 => [fld w 16 12, fld w 21 17]
    | _ => []
  | 0x3E =>
    let addr := [fld w 21 17, fld w 26 22]
    match fn with
    | 0 | 1 => fld w 16 12 :: addr
    | 2 => fld w 31 27 :: addr
    | 0x1C => fld w 16 12 :: fld w 31 27 :: fld w 36 32 :: addr
    | _ => fld w 16 12 :: fld w 31 27 :: addr
  | _ => []

/-- The vector or thread register that an access of the plane engine writes when it completes: VLD, VLDX, XLOAD, LD, LDU and the
atomics (R116, R120, R127, R196). -/
def accessWrites (w : W64) : List Nat :=
  match majorOf w with
  | 0x3A => if fld w 41 38 = 0 ∨ fld w 41 38 = 2 then [fld w 13 6] else []
  | 0x3B => if fld w 7 6 = 3 then [fld w 15 8] else []
  | 0x3E => if fld w 11 6 = 2 then [] else [fld w 16 12]
  | _ => []

/-- The jig registers a plane instruction of the jig stream writes (R126, R127). -/
def planeWrites (w : W64) : List Nat :=
  match majorOf w with
  | 0x3B =>
    let jd := fld w 28 24
    if fld w 7 6 ≥ 2 then [jd, fld w 33 29] else [jd]
  | 0x3C =>
    let fn := fld w 11 6
    if fn = 1 ∨ fn = 0x18 ∨ fn = 0x1A then [] else [fld w 32 28]
  | _ => []

/-- The jig registers an instruction of the jig stream names, read or written (R126, R179). -/
def jigNames (w : W64) : List Nat :=
  let pair (r : Nat) := [r, r + 1]
  let quad (q : Nat) := [4 * q, 4 * q + 1, 4 * q + 2, 4 * q + 3]
  match majorOf w with
  | 0x01 => [jRd w, jRs1 w, jRs2 w]
  | 0x02 | 0x03 | 0x04 | 0x05 | 0x06 | 0x07 | 0x08 | 0x1A => [jRd w, jRs1 w]
  | 0x09 | 0x19 => [jRd w]
  | 0x0A | 0x0B | 0x0C | 0x0D | 0x0E => jRd w :: pair (jRs1 w)
  | 0x0F | 0x10 | 0x11 => jRd w :: pair (jRs1 w)
  | 0x12 => pair (jRs1 w)
  | 0x13 | 0x14 | 0x15 | 0x16 | 0x17 | 0x18 => [jRd w, jRs1 w]
  | 0x1B => if fld w 20 16 = 2 then [jRd w] else []
  | 0x1C => [jRs1 w]
  | 0x1D => (List.range 8).map fun i => 8 * fld w 7 6 + i
  | 0x1F => if fld w 7 6 = 0 then [fld w 26 22, fld w 31 27] else []
  | 0x20 => [fld w 22 18]
  | 0x30 => quad (fld w 45 43) ++ quad (fld w 48 46)
  | 0x31 => quad (fld w 38 36)
  | 0x32 => quad (fld w 22 20)
  | 0x35 => [fld w 17 13]
  | 0x3A => pair (fld w 26 22) ++ [fld w 31 27]
  | 0x3B => planeWrites w ++ (if fld w 7 6 ≥ 2 then pair (fld w 38 34) else [])
  | 0x3C => planeWrites w ++ (if fld w 11 6 ≤ 1 then [fld w 37 33] else [])
  | _ => []

end Sys2Proof.Machine
end

