-- ==== Sys2Proof/Machine/Jig.lean ====
section
/-! DEFINITION. The jig core: fetching and issuing an instruction (R38, R177 to R185), and the meanings
of the scalar, branch, load, store, prefetch and system instructions (R182 to R184). -/

namespace Sys2Proof.Machine

/-! ### Fetch and issue -/

/-- The jig core of bench `b` can issue: its die's clock runs, a context is running, the jig core has
not reached END and nothing holds its issue (R38, R154). -/
def Dev.jigCanIssue (d : Dev) (b : Nat) : Bool :=
  let bn := d.bench b
  d.dieRuns (dieOf b) && bn.running && !bn.ended && bn.wait == .none

/-- The result of looking at the instruction at the jig PC: nothing issues, the device after a fault or
kill, or the instruction with the device after any correction. -/
inductive Fetched where
  | hold
  | stop (d : Dev)
  | word (w : W64) (d : Dev)

/-- Instruction-store byte of an offset of the running context's range (R182). -/
def Bench.istoreAddr (bn : Bench) (off : Nat) : Nat := bn.ctx.istrBase * 1024 + off

/-- The instruction at an offset of the running context's instruction-store range; a jig instruction
is one parcel, a 64-bit instruction two (R177). -/
def Bench.instrAt (bn : Bench) (off : Nat) : W64 :=
  let lo := bn.istore.readN (bn.istoreAddr off) 4
  if major64 (nfld lo 5 0) then BitVec.ofNat 64 (bn.istore.readN (bn.istoreAddr off) 8)
  else BitVec.ofNat 64 lo

/-- An offset lies in the range and on a parcel (R185). -/
def Bench.fetchOk (bn : Bench) (off : Nat) : Bool := off % 4 == 0 && decide (off + 4 ≤ bn.ctx.istrSize * 1024)

/-- What SECDED does at an instruction fetch: a single-bit error is corrected and recorded, a
double-bit error kills the running context (R38, R60). Answers true when the fetch goes on. -/
def Dev.fetchEcc (d : Dev) (b off : Nat) (f : Ecc) : Bool × Dev :=
  match f with
  | .ok => (true, d)
  | .single => (true, (d.benchCause b (d.bench b).runCtx 0x2106 0x18 off).count .bchErrCount [b] 15 0)
  | .double => (false, d.killRun b 0x2107 0x18 off)

/-- Fetch and decode at the jig PC: range and alignment (R185), SECDED (R38), a 64-bit instruction at
4 mod 8 (R197), and reserved encodings (R178). -/
def Dev.jigFetch (d : Dev) (b : Nat) (f : Ecc) : Fetched :=
  let bn := d.bench b
  if !d.jigCanIssue b then .hold
  else if !bn.fetchOk bn.pc then .stop (d.killRun b 0x1605 0x18 bn.pc)
  else
    let r := d.fetchEcc b bn.pc f
    if !r.1 then .stop r.2
    else
      let w := bn.instrAt bn.pc
      if major64 (majorOf w) && bn.pc % 8 != 0 then .stop (r.2.killRun b 0x1604 0x18 bn.pc)
      else match jigStreamBad w with
        | some c => .stop (r.2.killRun b c 0x18 bn.pc)
        | none => .word w r.2

/-- A register that the instruction names still awaits a plane instruction's write (R126, R179). -/
def Bench.jigInterlocked (bn : Bench) (w : W64) : Bool :=
  (jigNames w).any fun r => r != 0 &&
    (bn.plane.queue.any (fun p => (planeWrites p.word).contains r) || bn.plane.pends.any fun p => (planeWrites p.iss.word).contains r)

/-- Issue the instruction at the jig PC if it is one that `is` accepts: `k` gives its effect, or none
while it stalls. A fetch that faults or decodes to a reserved encoding kills the context whichever
command names it; another instruction, or a stall, leaves the device as it is. -/
def Dev.jigIssue (d : Dev) (b : Nat) (f : Ecc) (is : W64 → Bool) (k : W64 → Dev → Option Dev) : Dev :=
  match d.jigFetch b f with
  | .hold => d
  | .stop d' => d'
  | .word w d' => if is w && !(d.bench b).jigInterlocked w then (k w d').getD d else d

/-- Go on at the next instruction. -/
def Bench.pcNext (bn : Bench) (n : Nat) : Bench := { bn with pc := bn.pc + n }

/-- Write a jig register and go on. -/
def Dev.jigWrite (d : Dev) (b rd : Nat) (v : W32) : Dev := d.modBench b fun bn => (bn.setJ rd v).pcNext 4

/-- The whole effect of an instruction that writes j[RD] with a function of its word and the bench. -/
def Dev.jigCompute (d : Dev) (b : Nat) (f : Ecc) (m : Nat) (v : W64 → Bench → W32) : Dev :=
  d.jigIssue b f (majorOf · == m) fun w d' => some (d'.jigWrite b (jRd w) (v w (d'.bench b)))

/-! ### Scalar instructions (R182, R183) -/

/-- The ALU function of R183. -/
def aluOp (fn : Nat) (x y : W32) : W32 :=
  let sh := y.toNat % 32
  match fn with
  | 0 => x + y
  | 1 => x - y
  | 2 => x &&& y
  | 3 => x ||| y
  | 4 => x ^^^ y
  | 5 => x <<< sh
  | 6 => x >>> sh
  | 7 => x.sshiftRight sh
  | 8 => if x.slt y then 1 else 0
  | 9 => if x.ult y then 1 else 0
  | 10 => if x.slt y then x else y
  | 11 => if x.slt y then y else x
  | 12 => if x.ult y then x else y
  | 13 => if x.ult y then y else x
  | 16 => x * y
  | 17 => BitVec.ofInt 32 (x.toInt * y.toInt / 4294967296)
  | 18 => BitVec.ofNat 32 (x.toNat * y.toNat / 4294967296)
  | 20 => if y = 0 then BitVec.allOnes 32 else x.sdiv y
  | 21 => if y = 0 then BitVec.allOnes 32 else x.udiv y
  | 22 => if y = 0 then x else x.srem y
  | _ => if y = 0 then x else x.umod y

/-- Sign-extended and zero-extended IMM16 (R180, R182). -/
def jSimm (w : W64) : W32 := sx32 16 (jImm w)
def jZimm (w : W64) : W32 := BitVec.ofNat 32 (jImm w)

def aluEffect (b : Nat) (f : Ecc) (d : Dev) : Dev :=
  d.jigCompute b f 0x01 fun w bn => aluOp (jFn w) (bn.j (jRs1 w)) (bn.j (jRs2 w))
def addiEffect (b : Nat) (f : Ecc) (d : Dev) : Dev := d.jigCompute b f 0x02 fun w bn => bn.j (jRs1 w) + jSimm w
def andiEffect (b : Nat) (f : Ecc) (d : Dev) : Dev := d.jigCompute b f 0x03 fun w bn => bn.j (jRs1 w) &&& jZimm w
def oriEffect (b : Nat) (f : Ecc) (d : Dev) : Dev := d.jigCompute b f 0x04 fun w bn => bn.j (jRs1 w) ||| jZimm w
def xoriEffect (b : Nat) (f : Ecc) (d : Dev) : Dev := d.jigCompute b f 0x05 fun w bn => bn.j (jRs1 w) ^^^ jZimm w
def sltiEffect (b : Nat) (f : Ecc) (d : Dev) : Dev :=
  d.jigCompute b f 0x06 fun w bn => if (bn.j (jRs1 w)).slt (jSimm w) then 1 else 0
def sltiuEffect (b : Nat) (f : Ecc) (d : Dev) : Dev :=
  d.jigCompute b f 0x07 fun w bn => if (bn.j (jRs1 w)).ult (jSimm w) then 1 else 0

/-- SLLI, SRLI, SRAI by the selector in [31:21] (R182). -/
def shiOp (sel sh : Nat) (x : W32) : W32 :=
  match sel with
  | 0 => x <<< sh
  | 1 => x >>> sh
  | _ => x.sshiftRight sh

def shiEffect (b : Nat) (f : Ecc) (d : Dev) : Dev :=
  d.jigCompute b f 0x08 fun w bn => shiOp (jFn w) (fld w 20 16) (bn.j (jRs1 w))
def luiEffect (b : Nat) (f : Ecc) (d : Dev) : Dev :=
  d.jigCompute b f 0x09 fun w _ => BitVec.ofNat 32 (fld w 31 11 <<< 11)
/-- RDCYC writes the low 32 bits of the die's cycle count (R154, R184). -/
def rdcycEffect (b : Nat) (f : Ecc) (d : Dev) : Dev :=
  d.jigIssue b f (fun w => majorOf w == 0x1B && fld w 20 16 == 2) fun w d' =>
    some (d'.jigWrite b (jRd w) (BitVec.ofNat 32 (d'.cycle (dieOf b))))

/-! ### Branches (R182, R185) -/

/-- PC + 4 × a signed field, as a 32-bit offset; a target outside the range faults when it is fetched. -/
def branchTarget (pc bits v : Nat) : Nat := wrapI 32 ((pc : Int) + 4 * sxt bits v)

/-- The comparisons of BEQ, BNE, BLT, BGE, BLTU, BGEU, by major (R182). -/
def branchTaken (m : Nat) (x y : W32) : Bool :=
  match m with
  | 0x13 => x == y
  | 0x14 => x != y
  | 0x15 => x.slt y
  | 0x16 => !x.slt y
  | 0x17 => x.ult y
  | _ => !x.ult y

def jigBranchEffect (b : Nat) (f : Ecc) (d : Dev) : Dev :=
  d.jigIssue b f (fun w => decide (0x13 ≤ majorOf w) && decide (majorOf w ≤ 0x18)) fun w d' =>
    some (d'.modBench b fun bn =>
      if branchTaken (majorOf w) (bn.j (jRs1 w)) (bn.j (jRd w)) then { bn with pc := branchTarget bn.pc 16 (jImm w) }
      else bn.pcNext 4)

def jalEffect (b : Nat) (f : Ecc) (d : Dev) : Dev :=
  d.jigIssue b f (majorOf · == 0x19) fun w d' =>
    some (d'.modBench b fun bn =>
      { bn.setJ (jRd w) (BitVec.ofNat 32 (bn.pc + 4)) with pc := branchTarget bn.pc 21 (fld w 31 11) })

def jalrEffect (b : Nat) (f : Ecc) (d : Dev) : Dev :=
  d.jigIssue b f (majorOf · == 0x1A) fun w d' =>
    some (d'.modBench b fun bn =>
      { bn.setJ (jRd w) (BitVec.ofNat 32 (bn.pc + 4)) with pc := (bn.j (jRs1 w) + jSimm w).toNat })

/-! ### Loads, stores, prefetch (R43 to R50, R181, R182) -/

/-- Access size in bytes and sign extension of LW, LH, LHU, LB, LBU, by major (R182). -/
def loadKind (m : Nat) : Nat × Bool :=
  match m with
  | 0x0A => (4, false)
  | 0x0B => (2, true)
  | 0x0C => (2, false)
  | 0x0D => (1, true)
  | _ => (1, false)

/-- A loaded value in a 32-bit register. -/
def loadValue (n : Nat) (sgn : Bool) (bs : List Byte) : W32 :=
  if sgn then sx32 (8 * n) (leNat bs) else BitVec.ofNat 32 (leNat bs)

/-- The address of a jig access, low bits below the access size taken as zero (R181). -/
def Bench.jigAddr (bn : Bench) (w : W64) (n : Nat) : Nat :=
  pairAddr (bn.j (jRs1 w)) (bn.j (jRs1 w + 1)) (sxt 16 (jImm w)) / n * n

/-- The jig access has finished: its scoreboard entry leaves and issue goes on. -/
def Bench.jigAccessDone (bn : Bench) (id : Nat) : Bench := { (bn.sbLeave [id]).pcNext 4 with jigSb := none }

/-- A jig load: from local store at once; from the L1 or infeed on a hit; otherwise the jig core waits
for the line (R43, R45, R46, R52). A poisoned line kills the context (R306). -/
def jigLoadEffect (b : Nat) (f dd : Ecc) (pe : Bool) (d : Dev) : Dev :=
  d.jigIssue b f (fun w => decide (0x0A ≤ majorOf w) && decide (majorOf w ≤ 0x0E)) fun w d' =>
    let (n, sgn) := loadKind (majorOf w)
    let bn := d'.bench b
    let a := bn.jigAddr w n
    match classify a with
    | .bad => some (d'.killRun b 0x1102 0x10 a)
    | .store off =>
      if bn.ctx.usable ≤ off then some (d'.killRun b 0x1101 0x10 a)
      else
        let (r, d1) := d'.sbTry b bn.jigSb { dev := false, first := off, last := off + n - 1, wr := false, l1 := false }
        match r with
        | none => none
        | some (id, false) => some (d1.modBench b fun x => { x with jigSb := some id })
        | some (id, true) =>
          let (go, d2) := d1.lsEcc b off 0x10 dd
          if go then
            some (d2.modBench b fun x => ((x.setJ (jRd w) (loadValue n sgn (x.lsRead off n)))).jigAccessDone id)
          else some d2
    | .device pa =>
      let (r, d1) := d'.sbTry b bn.jigSb { dev := true, first := pa, last := pa + n - 1, wr := false, l1 := true }
      match r with
      | none => none
      | some (id, false) => some (d1.modBench b fun x => { x with jigSb := some id })
      | some (id, true) =>
        let (h, d2) := d1.l1Access b (pa / 128) pe a
        match h with
        | some (_, some c) => some (d2.killPoison b c 0x10 (pa / 128 * 128))
        | some (l, none) =>
          some (d2.modBench b fun x =>
            (x.setJ (jRd w) (loadValue n sgn (Line.slice l (pa % 128) n))).jigAccessDone id)
        | none =>
          let d3 := d2.requestFill b (pa / 128) true false false
          some (d3.modBench b fun x =>
            { x.pcNext 4 with jigSb := none, wait := .load pa n sgn (jRd w) id })

/-- Access size of SW, SH, SB, by major (R182). -/
def storeSize (m : Nat) : Nat :=
  match m with
  | 0x0F => 4
  | 0x10 => 2
  | _ => 1

/-- A jig store: to local store at once, or to device memory through the L1 and merge buffer; it stalls
while the buffer is full (R43, R47, R48, R52). -/
def jigStoreEffect (b : Nat) (f dd : Ecc) (pe mp : Bool) (d : Dev) : Dev :=
  d.jigIssue b f (fun w => decide (0x0F ≤ majorOf w) && decide (majorOf w ≤ 0x11)) fun w d' =>
    let n := storeSize (majorOf w)
    let bn := d'.bench b
    let a := bn.jigAddr w n
    let bs := leBytes (bn.j (jRd w)).toNat n
    match classify a with
    | .bad => some (d'.killRun b 0x1102 0x11 a)
    | .store off =>
      if bn.ctx.usable ≤ off then some (d'.killRun b 0x1101 0x11 a)
      else
        let (r, d1) := d'.sbTry b bn.jigSb { dev := false, first := off, last := off + n - 1, wr := true, l1 := false }
        match r with
        | none => none
        | some (id, false) => some (d1.modBench b fun x => { x with jigSb := some id })
        | some (id, true) =>
          let (go, d2) := d1.lsEcc b off 0x11 dd
          if go then some (d2.modBench b fun x => (x.lsWrite off bs).jigAccessDone id) else some d2
    | .device pa =>
      let (r, d1) := d'.sbTry b bn.jigSb { dev := true, first := pa, last := pa + n - 1, wr := true, l1 := true }
      match r with
      | none => none
      | some (id, false) => some (d1.modBench b fun x => { x with jigSb := some id })
      | some (id, true) =>
        let (went, d2) := d1.storeLine b (pa / 128) (linePut (pa % 128) bs) (beRange (pa % 128) n) id pe mp a
        if went then
          some (if (d2.bench b).running then d2.modBench b fun x => { (x.sbPlaced id).pcNext 4 with jigSb := none } else d2)
        else some (d1.modBench b fun x => { x with jigSb := some id })

/-- Fetch a line into the infeed buffer (R50): nothing when the L1 or the infeed buffer has it or its prefetch is pending, dropped and
counted when all eight entries are taken; a demand fill of the line that is pending is joined (R45). Answers false when nothing was
requested. -/
def Dev.prefetch (d : Dev) (b line : Nat) : Bool × Dev :=
  let bn := d.bench b
  if (bn.l1Find line).isSome || bn.infeed.any (·.line == line) then (false, d)
  else if 8 ≤ bn.infeed.length then (false, d.count .bchPfDrop [b] 31 0)
  else
    let d1 := d.modBench b fun x =>
      { x with infeed := x.infeed ++ [{ line := line, held := false, data := 0, poison := none }] }
    (true, d1.requestFill b line false false true)

/-- Remember that a prefetch's scoreboard entry waits for a line's fill (R53). -/
def Bench.fillWaits (bn : Bench) (line id : Nat) : Bench :=
  { bn with fills := bn.fills.map fun f => if f.line == line then { f with sbs := f.sbs ++ [id] } else f }

/-- Jig PF (R50): a local-store address does nothing, a malformed one kills the context. -/
def pfEffect (b : Nat) (f : Ecc) (d : Dev) : Dev :=
  d.jigIssue b f (majorOf · == 0x12) fun w d' =>
    let bn := d'.bench b
    let a := bn.jigAddr w 1
    match classify a with
    | .bad => some (d'.killRun b 0x1102 0x12 a)
    | .store _ => some (d'.modBench b (·.pcNext 4))
    | .device pa =>
      let (r, d1) := d'.sbTry b bn.jigSb { dev := true, first := pa, last := pa, wr := false, l1 := false }
      match r with
      | none => none
      | some (id, false) => some (d1.modBench b fun x => { x with jigSb := some id })
      | some (id, true) =>
        let (sent, d2) := d1.prefetch b (pa / 128)
        some (d2.modBench b fun x =>
          { (if sent then x.fillWaits (pa / 128) id else x.sbLeave [id]).pcNext 4 with jigSb := none })

/-! ### System instructions (R184, R283) -/

def sysNopEffect (b : Nat) (f : Ecc) (d : Dev) : Dev :=
  d.jigIssue b f (fun w => majorOf w == 0x1B && fld w 20 16 == 0) fun _ d' => some (d'.modBench b (·.pcNext 4))

/-- END: the last instruction of the bench's part of the command (R184). -/
def endOpEffect (b : Nat) (f : Ecc) (d : Dev) : Dev :=
  d.jigIssue b f (fun w => majorOf w == 0x1B && fld w 20 16 == 1) fun _ d' =>
    some (d'.modBench b fun bn => { bn with ended := true })

/-- Jig FENCE: a device or system release drains the merge buffer and holds issue until earlier device
reads and writes are done, fabric writes too at system scope; an acquire invalidates the L1 and infeed
(R146, R184, R283). -/
def sysFenceEffect (b : Nat) (f : Ecc) (mp : Bool) (d : Dev) : Dev :=
  d.jigIssue b f (fun w => majorOf w == 0x1B && fld w 20 16 == 3) fun w d' =>
    let scope := fld w 22 21
    let rel := fld w 23 23 == 1
    let acq := fld w 24 24 == 1
    if scope < 2 then some (d'.modBench b (·.pcNext 4))
    else if rel then
      let d1 := (d'.modBench b (·.mergeBad mp)).drainWhere b (fun _ => true)
      some (if (d1.bench b).running then
        d1.modBench b fun bn => ({ bn.pcNext 4 with wait := .fence (scope == 3) acq bn.nextId }).fenceCheck
      else d1)
    else some (d'.modBench b fun bn => bn.invalidate.pcNext 4)

/-- CWAIT begins a wait on a completion counter (R55, R184). -/
def cwaitEffect (b : Nat) (f : Ecc) (d : Dev) : Dev :=
  d.jigIssue b f (majorOf · == 0x1C) fun w d' =>
    some (d'.modBench b fun bn =>
      { bn.pcNext 4 with
        wait := .counter (fld w 9 6) (((bn.j (jRs1 w)).toNat + jImm w) % 65536) (w.getLsbD 10)
        waitAt := d'.cycle (dieOf b) })

/-- A counter has reached its target under the half-range rule (R55). -/
def counterReached (c : BitVec 16) (t : Nat) : Bool := decide ((c.toNat + 65536 - t % 65536) % 65536 < 32768)

/-- A jig wait ends; with ALIGN the exit moves to the next cycle count that is a multiple of 8 (R157). -/
def Dev.exitWait (d : Dev) (b : Nat) (align : Bool) : Dev :=
  let d1 := d.modBench b fun bn => { bn with wait := .none }
  if align then d1.advanceTo (dieOf b) (nextMod (d.cycle (dieOf b) + 1) 8 0) else d1

def cwaitExitEffect (b : Nat) (d : Dev) : Dev :=
  let bn := d.bench b
  match bn.wait with
  | .counter c t al =>
    if d.dieRuns (dieOf b) && bn.running && counterReached (bn.ctx.counters.toList.getD c 0) t then d.exitWait b al else d
  | _ => d

/-- A register's limit in core cycles, 0 standing for its reset value (R61, R227). -/
def Dev.limitOf (d : Dev) (r : RegName) (b : Nat) : Nat :=
  let v := (d.reg r [b]).toNat
  if v = 0 then r.reset.toNat else v

/-- The count at which a bench's counter wait has lasted BCH_WAIT_WDOG (R55). -/
def Dev.counterDue (d : Dev) (b : Nat) : Nat := (d.bench b).waitAt + d.limitOf .bchWaitWdog b

/-- A counter wait has lasted BCH_WAIT_WDOG: the context is killed with 0x1103 (R55). -/
def counterWaitTimeoutEffect (b : Nat) (d : Dev) : Dev :=
  let bn := d.bench b
  match bn.wait with
  | .counter c t _ =>
    if d.dieRuns (dieOf b) && bn.running && !counterReached (bn.ctx.counters.toList.getD c 0) t &&
        decide (d.counterDue b ≤ d.cycle (dieOf b))
    then d.killRun b 0x1103 0x00 0 else d
  | _ => d

/-! ### The commands -/

section
variable (b : BenchIx) (f : Ecc) (s : State)

def execAlu := s.runLive (aluEffect b f)
def execAddi := s.runLive (addiEffect b f)
def execAndi := s.runLive (andiEffect b f)
def execOri := s.runLive (oriEffect b f)
def execXori := s.runLive (xoriEffect b f)
def execSlti := s.runLive (sltiEffect b f)
def execSltiu := s.runLive (sltiuEffect b f)
def execShi := s.runLive (shiEffect b f)
def execLui := s.runLive (luiEffect b f)
def execRdcyc := s.runLive (rdcycEffect b f)
def execJigBranch := s.runLive (jigBranchEffect b f)
def execJal := s.runLive (jalEffect b f)
def execJalr := s.runLive (jalrEffect b f)
def execJigLoad (dd : Ecc) (pe : Bool) (s : State) := s.runLive (jigLoadEffect b f dd pe)
def execJigStore (dd : Ecc) (pe mp : Bool) (s : State) := s.runLive (jigStoreEffect b f dd pe mp)
def execPf := s.runLive (pfEffect b f)
def execSysNop := s.runLive (sysNopEffect b f)
def execEndOp := s.runLive (endOpEffect b f)
def execSysFence (mp : Bool) (s : State) := s.runLive (sysFenceEffect b f mp)
def execCwait := s.runLive (cwaitEffect b f)
def execCwaitExit := s.runLive (cwaitExitEffect b)
end

end Sys2Proof.Machine
end

