-- ==== Sys2Proof/Machine/Operands.lean ====
section
/-! DEFINITION. Operand forms of the plane engine: choosing the instruction that issues, from the plane queue or
from a thread group's cohort (R116, R140, R141, R143), and reading and writing register elements under VL, mask,
ZM and BC (R118, R121). -/

namespace Sys2Proof.Machine

/-! ### Thread groups: runnable threads and cohorts (R140, R141) -/

def Bench.group (bn : Bench) (s : Nat) : Option TGroup := bn.slots.find? s
def Bench.setGroup (bn : Bench) (s : Nat) (g : TGroup) : Bench := { bn with slots := bn.slots.set s g }
def Bench.modGroup (bn : Bench) (s : Nat) (f : TGroup → TGroup) : Bench :=
  match bn.group s with
  | some g => bn.setGroup s (f g)
  | none => bn

/-- Threads that a fence, a barrier or a clamp holds, or that have exited. -/
def TGroup.held (g : TGroup) : W64 :=
  g.fences.foldl (fun m x => m ||| x.mask) (g.exited ||| g.arrived ||| g.clampWait)

/-- The thread waits for nothing but its operands. -/
def TGroup.free (g : TGroup) (t : Nat) : Bool := decide (t < 64) && !g.held.getLsbD t
def TGroup.pc (g : TGroup) (t : Nat) : Nat := g.pcs.getD t 0
def TGroup.age (g : TGroup) (t : Nat) : Nat := g.ages.getD t 0

/-- The numbers of a list, each where it is first used. -/
def firsts (xs : List Nat) : List Nat := xs.foldl (fun a x => if a.contains x then a else a ++ [x]) []

/-- The vector register that a field names: v(n), or u(n) of the group's slot (R115, R194). -/
def vecNum (slot : Option Nat) (n : Nat) : Nat :=
  match slot with
  | none => n
  | some s => 32 * s + n % 32

def Issue.vnum (i : Issue) (n : Nat) : Nat := vecNum i.slot n

/-- Vector registers that accesses and atomics under way have still to write (R116). -/
def Bench.regsPending (bn : Bench) : List Nat :=
  (bn.plane.pends.flatMap fun p => (accessWrites p.iss.word).map p.iss.vnum) ++
    bn.slots.cells.flatMap fun c => c.2.atoms.map fun a => vecNum (some c.1) a.ud

/-- Every vector register that the instruction names has been written (R116). DEDUCED (log 72): the interlock works by whole
registers, so a pending write for any lane of one holds the instruction. -/
def Bench.operandsReady (bn : Bench) (slot : Option Nat) (w : W64) : Bool :=
  let ps := bn.regsPending
  ps.isEmpty || (vecNames w).all fun n => !ps.contains (vecNum slot n)

/-- The thread instruction at a program counter. -/
def Bench.threadWord (bn : Bench) (pc : Nat) : W64 := BitVec.ofNat 64 (bn.istore.readN (bn.istoreAddr pc) 8)

/-- The program counters of a slot's free threads whose next instruction has its operands written (R141). -/
def Bench.readyPcs (bn : Bench) (s : Nat) (g : TGroup) : List Nat :=
  (firsts (((List.range 64).filter g.free).map g.pc)).filter fun pc => bn.operandsReady (some s) (bn.threadWord pc)

/-- Runnable threads (R141): `ok` lists the program counters whose next instruction has its operands. -/
def TGroup.runnable (g : TGroup) (ok : List Nat) (t : Nat) : Bool := g.free t && ok.contains (g.pc t)

/-- The mask of the runnable threads at a program counter. -/
def TGroup.cohort (g : TGroup) (ok : List Nat) (pc : Nat) : W64 :=
  BitVec.ofNat 64 (packLanes 1 ((List.range 64).map fun t => b2n (g.runnable ok t && g.pc t == pc)))

/-- The program counter whose cohort issues: among cohorts whose largest age has reached AGE the one with the
largest age, ties to the lowest program counter; otherwise the lowest program counter (R141). -/
def TGroup.choose (g : TGroup) (ok : List Nat) (age : Nat) : Option Nat :=
  let rs := (List.range 64).filter (g.runnable ok)
  let aged := rs.filter fun t => decide (age ≤ g.age t)
  let best := aged.foldl (fun (b : Option (Nat × Nat)) t =>
    match b with
    | none => some (g.age t, g.pc t)
    | some (a, p) => if a < g.age t ∨ (a = g.age t ∧ g.pc t < p) then some (g.age t, g.pc t) else some (a, p)) none
  match best with
  | some (_, p) => some p
  | none => rs.foldl (fun (b : Option Nat) t => match b with
    | none => some (g.pc t)
    | some p => some (min p (g.pc t))) none

/-- Ages after an issue: 0 for the threads that issued, one more, at most 255, for the other runnable ones (R141). -/
def TGroup.aged (g : TGroup) (ok : List Nat) (mask : W64) : TGroup :=
  { g with
    ages := (List.range 64).map fun t =>
      if g.runnable ok t then (if mask.getLsbD t then 0 else min (g.age t + 1) 255) else g.age t }

/-- Set the program counter of the threads of a mask. -/
def TGroup.jump (g : TGroup) (mask : W64) (pc : Nat) : TGroup :=
  { g with pcs := (List.range 64).map fun t => if mask.getLsbD t then pc else g.pc t }

/-- TGR_CFG.AGE; 0 counts as 0x40 (R153). -/
def Dev.ageLimit (d : Dev) (b : Nat) : Nat :=
  let a := d.regFld .tgrCfg [b] 7 0
  if a = 0 then 0x40 else a

/-- The slot whose turn it is: round-robin from the one after the slot that issued last, to the first with a runnable
cohort that no move holds (R138, R140). -/
def Bench.turn (bn : Bench) : Option Nat :=
  ((List.range 8).map fun i => (bn.plane.lastSlot + 1 + i) % 8).find? fun s =>
    !bn.moves.any (·.slot == s) && match bn.group s with
      | some g => !(bn.readyPcs s g).isEmpty
      | none => false

/-! ### The instruction that issues -/

/-- The instruction-mask and zeroing fields of a jig-issued instruction (R188 to R193). -/
def maskField (w : W64) : Nat × Bool :=
  match majorOf w with
  | 0x38 | 0x39 => (pMk w, pZm w)
  | 0x3A => (fld w 34 32, w.getLsbD 35)
  | 0x3B => (0, w.getLsbD 42)
  | 0x3C => (fld w 40 38, false)
  | _ => (0, false)

/-- A mask register: m0 reads as all ones (R115). -/
def Bench.mreg (bn : Bench) (n : Nat) : Nat := if n = 0 then 2 ^ 64 - 1 else (bn.plane.masks.getD n 0).toNat
/-- Write a mask register; writes to m0 are discarded (R115). -/
def Bench.setMreg (bn : Bench) (n v : Nat) : Bench :=
  if n = 0 then bn
  else
    let x := BitVec.ofNat 64 v
    { bn with plane := { bn.plane with masks := if x = 0 then bn.plane.masks.erase n else bn.plane.masks.set n x } }

def isVctl (fn : Nat) (w : W64) : Bool := majorOf w == 0x3C && fld w 11 6 == fn
def isVsel (fn : Nat) (w : W64) : Bool := majorOf w == 0x3B && fld w 7 6 == fn

/-- The tile that the instruction at the head of the plane queue waits for is not held (R130). -/
def Bench.ofWaits (bn : Bench) : Bool :=
  match bn.plane.queue with
  | [] => false
  | p :: _ =>
    let w := p.word
    if isVctl 0x18 w || isVctl 0x19 w then decide (bn.outfeed.length ≤ fld w 44 42)
    else isVctl 0x1A w && bn.outfeed.isEmpty

/-- An access under way will still raise a sticky flag: a CSTORE or XLOAD that waits (R116, R127). -/
def Bench.flagsPending (bn : Bench) : Bool := bn.plane.pends.any fun p => majorOf p.iss.word == 0x3B

/-- The instruction takes a scoreboard entry: a vector access, but for a prefetch that names local store, a CSTORE or an XLOAD
(R50, R120, R127). -/
def POp.entry (p : POp) : Bool :=
  let w := p.word
  if majorOf w = 0x3A then fld w 41 38 != 4 || (match classify p.base with
    | .device _ => true
    | _ => false)
  else majorOf w == 0x3B && decide (2 ≤ fld w 7 6)

/-- The instruction at the head of the plane queue is ready, and so takes the cycle before any thread group (R116, R140): its operands,
the flags PFLAGS reads and the tile it needs are there, and an access finds a free scoreboard entry. -/
def Bench.queueReady (bn : Bench) : Bool :=
  match bn.plane.queue with
  | [] => false
  | p :: _ => bn.operandsReady none p.word && !(isVctl 2 p.word && bn.flagsPending) && !bn.ofWaits &&
      (!p.entry || bn.sbRoom 1)

/-- What looking for the next plane instruction gives. -/
inductive Issued where
  | hold
  | stop (d : Dev)
  | go (i : Issue) (d : Dev)

/-- A demand miss, or a store that finds the merge buffer full, blocks the plane engine (R45, R48). -/
def Bench.planeStall (bn : Bench) : Option PlPend := bn.plane.pends.find? (·.wait != .order)

/-- TGR_FAULT captures group, thread and program counter at a kill that a thread-group instruction causes (R152, R153). -/
def Dev.faultAt (d : Dev) (b thread : Nat) (i : Issue) : Dev :=
  let w := 2 ^ 31 + (d.bench b).runCtx <<< 29 + (i.pc / 8 % 8192) <<< 16 + thread <<< 8 + i.num
  if i.slot.isNone || d.regBit .tgrFault [b] 31 then d else (d.setReg .tgrFault [b] (BitVec.ofNat 32 w)).setRegBit .tgrFault [b] 31

/-- Kill for a thread-group instruction. -/
def Dev.threadKill (d : Dev) (b code access addr thread : Nat) (i : Issue) (isWait : Bool := false) : Dev :=
  (d.faultAt b thread i).kill b (d.bench b).runCtx code access addr isWait

/-- Kill by the issuing instruction, from either source. -/
def Dev.issueKill (d : Dev) (b code access addr : Nat) (i : Issue) (thread : Nat := 0) : Dev :=
  (d.faultAt b thread i).killRun b code access addr

/-- The kill by an instruction that uses a poisoned line (R245, R306). -/
def Dev.issuePoison (d : Dev) (b code access addr : Nat) (i : Issue) (thread : Nat := 0) : Dev :=
  (d.faultAt b thread i).killPoison b code access addr

/-- The lowest set bit of a thread mask. -/
def firstThread (m : Nat) : Nat := (lowBit m 0 64).getD 0

/-- Fetch and decode a cohort's instruction from the instruction store, when no jig instruction is ready: range (R185), SECDED (R38),
and the encodings reserved or illegal in a thread stream (R143, R178, R194). -/
def Dev.threadFetch (d : Dev) (b s : Nat) (f : Ecc) : Issued :=
  let bn := d.bench b
  if !d.dieRuns (dieOf b) || !bn.running || bn.planeStall.isSome || bn.queueReady || bn.turn != some s then .hold
  else match bn.group s with
    | none => .hold
    | some g =>
      let ok := bn.readyPcs s g
      match g.choose ok (d.ageLimit b) with
      | none => .hold
      | some pc =>
        let mask := (g.cohort ok pc).toNat
        let i0 : Issue := { slot := some s, word := 0, pop := { word := 0, base := 0, stride := 0, value := 0, fill := 0 }
                            vl := 64, mask := mask, zm := false, pc := pc, num := g.num }
        let t := firstThread mask
        if bn.ctx.istrSize * 1024 < pc + 8 then .stop (d.threadKill b 0x1605 0x18 pc t i0)
        else match f with
          | .double => .stop (d.threadKill b 0x2107 0x18 pc t i0)
          | e =>
            let d1 := if e = .ok then d else (d.fetchEcc b pc e).2
            let w : W64 := bn.threadWord pc
            match planeBad w true with
            | some c => .stop (d1.threadKill b c 0x18 pc t { i0 with word := w })
            | none => .go { i0 with word := w, pop := { i0.pop with word := w } } d1

/-- The instruction at the head of the plane queue, when it is ready (R116). -/
def Dev.queueHead (d : Dev) (b : Nat) : Issued :=
  let bn := d.bench b
  if !d.dieRuns (dieOf b) || !bn.running || bn.planeStall.isSome || !bn.queueReady then .hold
  else match bn.plane.queue with
    | [] => .hold
    | p :: _ =>
      let (mf, zm) := maskField p.word
      .go { slot := none, word := p.word, pop := p, vl := bn.plane.vl, mask := bn.mreg mf, zm := zm, pc := 0, num := 0 } d

/-- An instruction issues: it leaves the queue, or its cohort moves on and the group's ages and the round-robin
place change; PLN_ISSUED counts it (R133, R140, R141). -/
def Dev.issued (d : Dev) (b : Nat) (i : Issue) : Dev :=
  let d1 := d.modBench b fun bn => match i.slot with
    | none => { bn with plane := { bn.plane with queue := bn.plane.queue.drop 1, headAt := d.cycle (dieOf b) } }
    | some s =>
      let m := BitVec.ofNat 64 i.mask
      let bn1 := bn.modGroup s fun g => (g.aged (bn.readyPcs s g) m).jump m (i.pc + 8)
      { bn1 with plane := { bn1.plane with lastSlot := s } }
  d1.count .plnIssued [b] 31 0

/-- Issue the next instruction of a source if `is` accepts it: `k` gives its effect on the device in which it has issued, or none while
it waits and does not issue. Another instruction, or a wait, leaves the device as it is; a fault in fetching or decoding kills. -/
def Dev.planeIssue (d : Dev) (b : Nat) (src : PlaneSrc) (f : Ecc) (is : W64 → Bool) (k : Issue → Dev → Option Dev) : Dev :=
  let r := match src with
    | .jig => d.queueHead b
    | .group s => d.threadFetch b s f
  match r with
  | .hold => d
  | .stop d' => d'
  | .go i d' => if is i.word then (k i (d'.issued b i)).getD d else d

/-- Parity of the registers read comes first: a vector-register error kills (R115). -/
def Dev.regParity (d : Dev) (b : Nat) (i : Issue) (vp : Option Nat) (k : Dev → Option Dev) : Option Dev :=
  match vp with
  | some x => some (d.issueKill b 0x2301 0x36 x i (firstThread i.mask))
  | none => k d

/-- The effect of an instruction that completes at once: a vector-register parity error kills (R115); otherwise `k` applies. -/
def Dev.planeSimple (d : Dev) (b : Nat) (src : PlaneSrc) (f : Ecc) (vp : Option Nat) (is : W64 → Bool)
    (k : Issue → Dev → Dev) : Dev :=
  d.planeIssue b src f is fun i d' => d'.regParity b i vp fun d' => some (k i d')

/-! ### Register operands -/

def Issue.src (i : Issue) (bn : Bench) (n : Nat) : VReg := bn.vreg (i.vnum n)

/-- Element `e` of a source, or element 0 of lane 0 with its BC bit (R118, R121). -/
def srcElem (v : VReg) (es : Nat) (bc : Bool) (e : Nat) : Nat := laneN v es (if bc then 0 else e)

/-- Active element count VE (R118). -/
def Issue.ve (i : Issue) (es : Nat) : Nat := i.vl * (32 / es)

/-- Lane `l` is written, zeroed or kept (R118, R143). -/
def Issue.writes (i : Issue) (l : Nat) : Bool := decide (l < i.vl) && i.mask.testBit l
def Issue.zeroes (i : Issue) (l : Nat) : Bool := decide (l < i.vl) && !i.mask.testBit l && i.zm

/-- The new value of a destination register: each element of a written lane from `f`, with its flags (R118). -/
def Issue.build (i : Issue) (old : VReg) (es : Nat) (f : Nat → Nat × Nat) : VReg × Nat :=
  let per := 32 / es
  let lanes : List (Nat × Nat) := (List.range 64).map fun l =>
    if i.writes l then
      let xs := (List.range per).map fun k => f (per * l + k)
      (packLanes es (xs.map (·.1)), xs.foldl (fun a x => a ||| x.2) 0)
    else if i.zeroes l then (0, 0)
    else (laneN old 32 l, 0)
  (BitVec.ofNat 2048 (packLanes 32 (lanes.map (·.1))), lanes.foldl (fun a x => a ||| x.2) 0)

/-- Write VD with elements of size `es` computed by `f` from the bench as it stands, raising the flags. -/
def Dev.vecWrite (d : Dev) (b : Nat) (i : Issue) (es : Nat) (f : Bench → Nat → Nat × Nat) : Dev :=
  let bn := d.bench b
  let n := i.vnum (pVd i.word)
  let (v, fl) := i.build (bn.vreg n) es (f bn)
  (d.setBench b (bn.setVreg n v)).stick b fl

/-- The new value of a mask destination: bit L from `f` where the instruction writes, kept or cleared as lanes are, and
clear from VL up (R118). -/
def Issue.buildMask (i : Issue) (old : Nat) (f : Nat → Bool) : Nat :=
  packLanes 1 ((List.range 64).map fun l =>
    if i.writes l then b2n (f l)
    else if decide (l < i.vl) && !i.zm then b2n (old.testBit l)
    else 0)

end Sys2Proof.Machine
end

