-- ==== Sys2Proof/Machine/Plane.lean ====
section
/-! DEFINITION. The plane engine's register instructions: handing over to the plane queue (R116), element-wise
operations (R119, R189), permutes and shuffles (R122, R123), pack and unpack (R124), compress and expand (R127),
summaries (R125), control (R117, R121, R193) and the outfeed reads (R128 to R130). -/

namespace Sys2Proof.Machine

/-- The jig core hands a vector instruction to the eight-entry plane queue with the jig values it reads (R116, R179). -/
def planeQueueIssueEffect (b : Nat) (f : Ecc) (d : Dev) : Dev :=
  d.jigIssue b f (fun w => decide (0x38 ≤ majorOf w)) fun w d' =>
    let bn := d'.bench b
    if 8 ≤ bn.plane.queue.length then none
    else
      let pair (r : Nat) : Nat := pairAddr (bn.j r) (bn.j (r + 1)) 0
      let p : POp := match majorOf w with
        | 0x3A => { word := w, base := pair (fld w 26 22), stride := bn.j (fld w 31 27), value := 0, fill := 0 }
        | 0x3B => { word := w, base := pair (fld w 38 34), stride := 0, value := 0, fill := bn.j (fld w 33 29) }
        | 0x3C => { word := w, base := 0, stride := 0, value := bn.j (fld w 37 33), fill := 0 }
        | _ => { word := w, base := 0, stride := 0, value := 0, fill := 0 }
      let at0 := if bn.plane.queue.isEmpty then d'.cycle (dieOf b) else bn.plane.headAt
      some (d'.modBench b fun x => { x.pcNext 8 with plane := { x.plane with queue := x.plane.queue ++ [p], headAt := at0 } })

/-! ### Types -/

/-- The float format of a TY code (R188). -/
def tyFmt (ty : Nat) : FpFmt :=
  match ty with
  | 2 => fp32
  | 3 => bf16
  | 4 => fp16
  | 5 => fp8E4m3
  | _ => fp8E5m2

/-- An element as an integer of its type. -/
def tyInt' (ty es x : Nat) : Int := if ty = 0 then sxt es x else ((x % 2 ^ es : Nat) : Int)

/-! ### Element-wise operations (R119) -/

/-- ADD, SUB, MUL, MIN, MAX, ABS and NEG on one element pair, by FN and type. -/
def arithElem (fn ty es x y : Nat) : Nat × Nat :=
  if ty < 2 then
    let a := tyInt' ty es x
    let c := tyInt' ty es y
    (match fn with
      | 0 => wrapI es (a + c)
      | 1 => wrapI es (a - c)
      | 2 => wrapI es (a * c)
      | 3 => wrapI es (min a c)
      | _ => wrapI es (max a c), 0)
  else
    let f := tyFmt ty
    let a := f.dec x
    let c := f.dec y
    match fn with
    | 0 => encFlags f (a.add c) [a, c]
    | 1 => encFlags f (a.add c.neg) [a, c]
    | 2 => encFlags f (a.mul c) [a, c]
    | 3 => (f.minMax false x y, 0)
    | 4 => (f.minMax true x y, 0)
    | 5 => (x % 2 ^ (es - 1), 0)
    | _ => (x ^^^ 2 ^ (es - 1), 0)

/-- a × b + c, a × b − c or −(a × b) + c, rounded once (R119, R189). -/
def fmaElem (fn ty x y z : Nat) : Nat × Nat :=
  let f := tyFmt ty
  let a := f.dec x
  let m := f.dec y
  let c := f.dec z
  let p := a.mul m
  encFlags f ((if fn = 10 then p.neg else p).add (if fn = 9 then c.neg else c)) [a, m, c]

/-- RCP, RSQ, SQRT, EXP2 and LOG2 on FP32, correctly rounded. -/
def funcElem (fn x : Nat) : Nat × Nat :=
  let v := fp32.dec x
  let r := match fn with
    | 0x10 => v.rcp
    | 0x11 => v.rsq
    | 0x12 => v.sqrt
    | 0x13 => v.exp2
    | _ => v.log2
  let fin := v.finite && !v.isZero
  let (c, o) := fp32.enc r
  (c, nanFlag r [v] ||| (if o && (fin || v.isZero) then flOvf else 0))

/-- The high half of a product. -/
def mulhElem (ty es x y : Nat) : Nat := wrapI es (tyInt' ty es x * tyInt' ty es y / ((2 ^ es : Nat) : Int))

/-- SHL and SHR; the count is the low log2(ES) bits of b (R189). -/
def shiftElem (fn ty es x y : Nat) : Nat :=
  let n := y % es
  if fn = 0x19 then (x <<< n) % 2 ^ es
  else wrapI es (tyInt' ty es x / ((2 ^ n : Nat) : Int))

def logicElem (fn x y : Nat) : Nat :=
  match fn with
  | 0x1B => x &&& y
  | 0x1C => x ||| y
  | _ => x ^^^ y

/-- Conversion of one element from a float value to a float type: FP8 rounds as R100, other types to nearest even. -/
def toFloat (f : FpFmt) (v : Fv) (src : Fv) : Nat × Nat :=
  if f.bits = 8 then
    let (c, fl) := convR100 f v v.sign none
    (c, flagsOfR100 fl src (f.dec c).isNan)
  else encFlags f v [src]

/-- A float value truncated and saturated to an integer type; a NaN gives 0 and raises NAN (R119). -/
def toInt (ty es : Nat) (v : Fv) : Nat × Nat :=
  let s := ty == 0
  match v with
  | .nan => (0, flNan)
  | .inf n => (wrapI es (if n then intLo s es else intHi s es), flSat)
  | .fin n m e =>
    let k : Nat := if 0 ≤ e then m <<< (min e 200).toNat else m >>> (-e).toNat
    let (c, fl) := clipSat (intLo s es) (intHi s es) (if n then -(k : Int) else k)
    (wrapI es c, fl)

/-- CVT of one element from type and size (sty, ses) to (ty, es) (R119). -/
def cvtElem (sty ses ty es x : Nat) : Nat × Nat :=
  if sty < 2 then
    let i := tyInt' sty ses x
    if ty < 2 then
      let (c, fl) := clipSat (intLo (ty == 0) es) (intHi (ty == 0) es) i
      (wrapI es c, fl)
    else toFloat (tyFmt ty) (Fv.ofInt i 0 false) (.fin false 0 0)
  else
    let v := (tyFmt sty).dec x
    if ty < 2 then toInt ty es v else toFloat (tyFmt ty) v v

/-- A compare; unordered compares are false, except NE (R119). -/
def cmpElem (fn ty es x y : Nat) : Bool :=
  let o : Option Ordering :=
    if ty < 2 then some (compare (tyInt' ty es x) (tyInt' ty es y)) else ((tyFmt ty).dec x).cmp ((tyFmt ty).dec y)
  match fn, o with
  | 0x28, some .eq => true
  | 0x29, some .eq => false
  | 0x29, _ => true
  | 0x2A, some .lt => true
  | 0x2B, some .lt => true
  | 0x2B, some .eq => true
  | 0x2C, some .gt => true
  | 0x2D, some .gt => true
  | 0x2D, some .eq => true
  | _, _ => false

/-- A VOP instruction with FN in a range. -/
def isVop (lo hi : Nat) (w : W64) : Bool := majorOf w == 0x38 && decide (lo ≤ pFn w) && decide (pFn w ≤ hi)
def isVmove (lo hi : Nat) (w : W64) : Bool := majorOf w == 0x39 && decide (lo ≤ pFn w) && decide (pFn w ≤ hi)

/-- The whole effect of an element-wise instruction: `op` of the elements of a, b and c. -/
def Dev.elemwise (d : Dev) (b : Nat) (i : Issue) (op : Nat → Nat → Nat → Nat × Nat) : Dev :=
  let w := i.word
  let es := esBits (pEs w)
  d.vecWrite b i es fun bn e =>
    op (srcElem (i.src bn (pVa w)) es (pBcA w) e) (srcElem (i.src bn (pVb w)) es (pBcB w) e)
      (srcElem (i.src bn (pVc w)) es (pBcC w) e)

section
variable (b : Nat) (src : PlaneSrc) (f : Ecc) (vp : Option Nat) (d : Dev)

def vopArithEffect : Dev :=
  d.planeSimple b src f vp (isVop 0 6) fun i d' => d'.elemwise b i fun x y _ => arithElem (pFn i.word) (pTy i.word) (esBits (pEs i.word)) x y

def fmaEffect : Dev :=
  d.planeSimple b src f vp (isVop 8 10) fun i d' => d'.elemwise b i fun x y z => fmaElem (pFn i.word) (pTy i.word) x y z

def rcpRsqSqrtExp2Log2Effect : Dev :=
  d.planeSimple b src f vp (isVop 0x10 0x14) fun i d' => d'.elemwise b i fun x _ _ => funcElem (pFn i.word) x

def mulhEffect : Dev :=
  d.planeSimple b src f vp (isVop 0x18 0x18) fun i d' =>
    d'.elemwise b i fun x y _ => (mulhElem (pTy i.word) (esBits (pEs i.word)) x y, 0)

def shlShrEffect : Dev :=
  d.planeSimple b src f vp (isVop 0x19 0x1A) fun i d' =>
    d'.elemwise b i fun x y _ => (shiftElem (pFn i.word) (pTy i.word) (esBits (pEs i.word)) x y, 0)

def andOrXorEffect : Dev :=
  d.planeSimple b src f vp (isVop 0x1B 0x1D) fun i d' => d'.elemwise b i fun x y _ => (logicElem (pFn i.word) x y, 0)

/-- CVT: destination element e takes source element e, zero from the source's active count up (R119). -/
def cvtEffect : Dev :=
  d.planeSimple b src f vp (isVop 0x20 0x20) fun i d' =>
    let w := i.word
    let sty := nfld (pVc w) 2 0
    let ses := esBits (nfld (pVc w) 4 3)
    let es := esBits (pEs w)
    d'.vecWrite b i es fun bn e =>
      if i.ve ses ≤ e then (0, 0) else cvtElem sty ses (pTy w) es (srcElem (i.src bn (pVa w)) ses (pBcA w) e)

/-- CMP: a lane's bit from element 0 of the lane (R118, R119). A thread stream's destination is the same mask file. -/
def cmpEffect : Dev :=
  d.planeSimple b src f vp (isVop 0x28 0x2D) fun i d' =>
    let w := i.word
    let es := esBits (pEs w)
    d'.modBench b fun bn =>
      let va := i.src bn (pVa w)
      let vb := i.src bn (pVb w)
      bn.setMreg (pVd w % 8) (i.buildMask (bn.mreg (pVd w % 8)) fun l =>
        cmpElem (pFn w) (pTy w) es (srcElem va es (pBcA w) (l * (32 / es))) (srcElem vb es (pBcB w) (l * (32 / es))))

/-- SEL: a lane from a where the mask VC[2:0] is set, otherwise from b (R189). -/
def selEffect : Dev :=
  d.planeSimple b src f vp (isVop 0x30 0x30) fun i d' =>
    let w := i.word
    let es := esBits (pEs w)
    d'.vecWrite b i es fun bn e =>
      (if (bn.mreg (pVc w % 8)).testBit (e / (32 / es)) then srcElem (i.src bn (pVa w)) es (pBcA w) e
       else srcElem (i.src bn (pVb w)) es (pBcB w) e, 0)

/-- MAND, MOR, MXOR, MANDN and MNOT on all 64 bits; ANDN is a AND NOT b (R118, R189). -/
def maskLogicOp (fn x y : Nat) : Nat :=
  match fn with
  | 0x38 => x &&& y
  | 0x39 => x ||| y
  | 0x3A => x ^^^ y
  | 0x3B => x &&& (2 ^ 64 - 1 - y)
  | _ => 2 ^ 64 - 1 - x

def maskLogicEffect : Dev :=
  d.planeSimple b src f vp (isVop 0x38 0x3C) fun i d' =>
    let w := i.word
    d'.modBench b fun bn =>
      bn.setMreg (pVd w % 8) (maskLogicOp (pFn w) (bn.mreg (pVa w % 8)) (bn.mreg (pVb w % 8)))

/-! ### Permutes and shuffles (R122, R123) -/

/-- Element `s` of a source with `ve` active elements: from VE up it reads zero and raises RANGE (R122). -/
def rangeElem (v : VReg) (es ve : Nat) (bc : Bool) (s : Nat) : Nat × Nat :=
  if ve ≤ s then (0, flRange) else (srcElem v es bc s, 0)

def permEffect : Dev :=
  d.planeSimple b src f vp (isVmove 0 0) fun i d' =>
    let w := i.word
    let es := esBits (pEs w)
    d'.vecWrite b i es fun bn e =>
      rangeElem (i.src bn (pVa w)) es (i.ve es) (pBcA w) (srcElem (i.src bn (pVb w)) es (pBcB w) e)

def perm2Effect : Dev :=
  d.planeSimple b src f vp (isVmove 1 1) fun i d' =>
    let w := i.word
    let es := esBits (pEs w)
    let ve := i.ve es
    d'.vecWrite b i es fun bn e =>
      let s := srcElem (i.src bn (pVc w)) es (pBcC w) e
      if s < ve then (srcElem (i.src bn (pVa w)) es (pBcA w) s, 0)
      else rangeElem (i.src bn (pVb w)) es ve (pBcB w) (s - ve)

def rotEffect : Dev :=
  d.planeSimple b src f vp (isVmove 2 2) fun i d' =>
    let w := i.word
    let es := esBits (pEs w)
    d'.vecWrite b i es fun bn e => (srcElem (i.src bn (pVa w)) es (pBcA w) ((e + pVc w) % i.ve es), 0)

def revEffect : Dev :=
  d.planeSimple b src f vp (isVmove 3 3) fun i d' =>
    let w := i.word
    let es := esBits (pEs w)
    d'.vecWrite b i es fun bn e => (srcElem (i.src bn (pVa w)) es (pBcA w) (i.ve es - 1 - e), 0)

def xswapEffect : Dev :=
  d.planeSimple b src f vp (isVmove 4 4) fun i d' =>
    let w := i.word
    let es := esBits (pEs w)
    d'.vecWrite b i es fun bn e => rangeElem (i.src bn (pVa w)) es (i.ve es) (pBcA w) (e ^^^ pVc w)

def bcastEffect : Dev :=
  d.planeSimple b src f vp (isVmove 5 5) fun i d' =>
    let w := i.word
    let es := esBits (pEs w)
    d'.vecWrite b i es fun bn _ => rangeElem (i.src bn (pVa w)) es (i.ve es) (pBcA w) (pVc w)

/-- Which source (false a, true b) and index an element of ZIPLO, ZIPHI, UNZIPE, UNZIPO reads; h = ⌈VE/2⌉ (R123). -/
def zipIndex (fn ve e : Nat) : Bool × Nat :=
  let h := (ve + 1) / 2
  match fn with
  | 6 => (e % 2 == 1, e / 2)
  | 7 => (e % 2 == 1, e / 2 + h)
  | 8 => if e < h then (false, 2 * e) else (true, 2 * (e - h))
  | _ => if e < h then (false, 2 * e + 1) else (true, 2 * (e - h) + 1)

def zipUnzipEffect : Dev :=
  d.planeSimple b src f vp (isVmove 6 9) fun i d' =>
    let w := i.word
    let es := esBits (pEs w)
    d'.vecWrite b i es fun bn e =>
      let (fromB, s) := zipIndex (pFn w) (i.ve es) e
      if fromB then rangeElem (i.src bn (pVb w)) es (i.ve es) (pBcB w) s
      else rangeElem (i.src bn (pVa w)) es (i.ve es) (pBcA w) s

/-! ### Pack and unpack (R124, R190) -/

/-- Narrow one element from size `es` to es/2 in a PACK mode. -/
def packElem (mode ty es x : Nat) : Nat × Nat :=
  let h := es / 2
  match mode with
  | 0 => (x % 2 ^ h, 0)
  | 1 | 2 =>
    let s := mode == 1
    let (c, fl) := clipSat (intLo s h) (intHi s h) (tyInt' ty es x)
    (wrapI h c, fl)
  | _ =>
    let g := if es = 32 then (if mode = 3 then bf16 else fp16) else (if mode = 3 then fp8E4m3 else fp8E5m2)
    let v := (tyFmt ty).dec x
    let (c, fl) := convR100 g v v.sign none
    (c, flagsOfR100 fl v (g.dec c).isNan)

def packEffect : Dev :=
  d.planeSimple b src f vp (isVmove 0x10 0x10) fun i d' =>
    let w := i.word
    let es := esBits (pEs w)
    let ve := i.ve es
    d'.vecWrite b i (es / 2) fun bn e =>
      packElem (pVc w) (pTy w) es
        (if e < ve then srcElem (i.src bn (pVa w)) es (pBcA w) e else srcElem (i.src bn (pVb w)) es (pBcB w) (e - ve))

/-- Widen one element of size `es` to 2 × es: sign extension, zero extension or an exact float widening, a NaN giving the
canonical NaN with its sign. -/
def unpkElem (mode ty es x : Nat) : Nat :=
  match mode with
  | 0 => wrapI (2 * es) (sxt es x)
  | 1 => x % 2 ^ es
  | _ =>
    let g := if es = 16 then fp32 else if mode = 2 then fp16 else bf16
    match (tyFmt ty).dec x with
    | .nan => g.withSign (x.testBit (es - 1)) g.nanCode
    | v => (g.enc v).1

def unpkEffect : Dev :=
  d.planeSimple b src f vp (isVmove 0x11 0x12) fun i d' =>
    let w := i.word
    let es := esBits (pEs w)
    let off := if pFn w = 0x11 then 0 else i.ve (2 * es)
    d'.vecWrite b i (2 * es) fun bn e => (unpkElem (pVc w) (pTy w) es (srcElem (i.src bn (pVa w)) es (pBcA w) (e + off)), 0)

/-! ### Compress and expand (R127) -/

/-- CAP (R192). -/
def vselCap (w : W64) : Nat := fld w 63 48 + 1
/-- The selected lanes in ascending order: below VL with their bit set in the selector mask (R127). -/
def Issue.selected (i : Issue) (bn : Bench) : List Nat :=
  (List.range 64).filter fun l => decide (l < i.vl) && (bn.mreg (fld i.word 45 43)).testBit l

/-- Write the dropped count and raise OVERFLOW when it is not zero (R127). -/
def Dev.dropped (d : Dev) (b : Nat) (i : Issue) (n : Nat) : Dev :=
  (d.modBench b (·.setJ (fld i.word 28 24) (BitVec.ofNat 32 n))).stick b (if n = 0 then 0 else flOverflow)

def compressEffect : Dev :=
  d.planeSimple b src f vp (isVsel 0) fun i d' =>
    let w := i.word
    let bn := d'.bench b
    let sel := i.selected bn
    let cap := vselCap w
    let k := min sel.length cap
    let va := bn.vreg (fld w 23 16)
    let vd := fld w 15 8
    let lanes := (List.range 64).map fun l =>
      if l < k then laneN va 32 (sel.getD l 0) else if l < cap then 0 else laneN (bn.vreg vd) 32 l
    (d'.setBench b (bn.setVreg vd (BitVec.ofNat 2048 (packLanes 32 lanes)))).dropped b i (sel.length - k)

/-- The lanes of EXPAND and XLOAD: the i-th selected lane from `f i`, unselected lanes below VL kept or zeroed by ZM. -/
def Issue.spread (i : Issue) (sel : List Nat) (old : VReg) (f : Nat → Nat) : VReg :=
  BitVec.ofNat 2048 (packLanes 32 ((List.range 64).map fun l =>
    if sel.contains l then f (sel.idxOf l)
    else if decide (l < i.vl) && i.zm then 0
    else laneN old 32 l))

def expandEffect : Dev :=
  d.planeSimple b src f vp (isVsel 1) fun i d' =>
    let w := i.word
    let bn := d'.bench b
    let sel := i.selected bn
    let n := sel.length
    let cap := vselCap w
    let va := bn.vreg (fld w 23 16)
    let vd := fld w 15 8
    let v := i.spread sel (bn.vreg vd) fun q => if q < cap then laneN va 32 q else 0
    (d'.setBench b (bn.setVreg vd v)).dropped b i (n - min n cap)

/-! ### Control and summaries (R117, R121, R125, R193) -/

def vctlJd (w : W64) : Nat := fld w 32 28

/-- SETVL (R117). -/
def setvlEffect (b : Nat) (src : PlaneSrc) (f : Ecc) (d : Dev) : Dev :=
  d.planeIssue b src f (isVctl 0) fun i d' =>
    let n := i.pop.value.toNat
    if n = 0 then some (d'.killRun b 0x1301 0x00 0)
    else
      let v := min n 64
      some ((d'.modBench b fun bn =>
        { (bn.setJ (vctlJd i.word) (BitVec.ofNat 32 v)) with plane := { bn.plane with vl := v } }))

/-- MVJP copies a jig register into lane 0 (R121). -/
def mvjpEffect : Dev :=
  d.planeSimple b src f vp (isVctl 1) fun i d' =>
    let vd := fld i.word 19 12
    d'.modBench b fun bn => bn.setVreg vd (setLaneN (bn.vreg vd) 32 0 i.pop.value.toNat)

/-- PFLAGS copies the sticky flags to a jig register and clears them (R193). -/
def pflagsEffect (b : Nat) (src : PlaneSrc) (f : Ecc) (d : Dev) : Dev :=
  d.planeSimple b src f none (isVctl 2) fun i d' =>
    (d'.modBench b (·.setJ (vctlJd i.word) (d'.reg .plnFlags [b]))).setReg .plnFlags [b] 0

/-- The lane set of a summary, in ascending order (R125). -/
def Issue.lanes (i : Issue) : List Nat := (List.range 64).filter i.writes

/-- Summaries (R125). -/
def sumOp (fn : Nat) (lanes : List Nat) (m : Nat) (v : VReg) : Nat :=
  let xs := lanes.map fun l => laneN v 32 l
  let ext (mx : Bool) (ty start : Nat) : Nat :=
    xs.foldl (fun a x => if ty = 2 then fp32.minMax mx a x else (arithElem (if mx then 4 else 3) ty 32 a x).1) start
  match fn with
  | 0x08 => b2n (lanes.any fun l => m.testBit l)
  | 0x09 => b2n (lanes.all fun l => m.testBit l)
  | 0x0A => (lanes.filter fun l => m.testBit l).length
  | 0x0B => (lanes.find? fun l => m.testBit l).getD 64
  | 0x0C => ext false 0 0x7FFFFFFF
  | 0x0D => ext false 1 0xFFFFFFFF
  | 0x0E => ext false 2 0x7F800000
  | 0x0F => ext true 0 0x80000000
  | 0x10 => ext true 1 0
  | _ => ext true 2 0xFF800000

def sumEffect : Dev :=
  d.planeSimple b src f vp (fun w => majorOf w == 0x3C && decide (8 ≤ fld w 11 6) && decide (fld w 11 6 ≤ 0x11)) fun i d' =>
    let w := i.word
    let va := fld w 27 20
    d'.modBench b fun bn =>
      bn.setJ (vctlJd w) (BitVec.ofNat 32 (sumOp (fld w 11 6) i.lanes (bn.mreg (va % 8)) (bn.vreg va)))

/-! ### The outfeed queue (R128 to R130) -/

/-- Chunks of a tile of an output format: 32 in FULL, 16 in FP32, 8 in 16-bit, 4 in FP8 formats (R128). -/
def tileChunks (out : Nat) : Nat := 4 * outBytes out

/-- OFRD: 256 bytes of the tile at a depth; a chunk at or beyond the tile's count reads zero and raises RANGE; it waits
until the tile is held (R128, R130). -/
def ofrdEffect (b : Nat) (src : PlaneSrc) (f : Ecc) (op : Option Nat) (d : Dev) : Dev :=
  d.planeIssue b src f (isVctl 0x18) fun i d' =>
    let w := i.word
    let dep := fld w 44 42
    match (d'.bench b).outfeed[dep]? with
    | none => none
    | some t => match op with
      | some x => some (d'.killRun b 0x2302 0x35 (0x2000 * dep + x))
      | none =>
        let c := fld w 49 45
        let out := fld t.tag 27 24
        let bad := decide (tileChunks out ≤ c)
        let v : VReg := if bad then 0 else BitVec.ofNat 2048 (laneN t.data 2048 c)
        some ((d'.modBench b (·.setVreg (fld w 19 12) v)).stick b (if bad then flRange else 0))

/-- OFTAG (R128, R129). -/
def oftagEffect (b : Nat) (src : PlaneSrc) (f : Ecc) (d : Dev) : Dev :=
  d.planeIssue b src f (isVctl 0x19) fun i d' =>
    match (d'.bench b).outfeed[fld i.word 44 42]? with
    | none => none
    | some t => some ((d'.modBench b (·.setJ (vctlJd i.word) t.tag)))

/-- OFPOP frees the head entry (R128). -/
def ofpopEffect (b : Nat) (src : PlaneSrc) (f : Ecc) (d : Dev) : Dev :=
  d.planeIssue b src f (isVctl 0x1A) fun _ d' =>
    if (d'.bench b).outfeed.isEmpty then none
    else some ((d'.modBench b fun bn => { bn with outfeed := bn.outfeed.drop 1 }))

/-- The count at which the outfeed wait of the queue's head has lasted BCH_WAIT_WDOG (R130). -/
def Dev.outfeedDue (d : Dev) (b : Nat) : Nat := (d.bench b).plane.headAt + d.limitOf .bchWaitWdog b

/-- An outfeed wait has lasted BCH_WAIT_WDOG: the context is killed with 0x1302 (R130). -/
def outfeedWaitTimeoutEffect (b : Nat) (d : Dev) : Dev :=
  let bn := d.bench b
  if d.dieRuns (dieOf b) && bn.running && bn.ofWaits && decide (d.outfeedDue b ≤ d.cycle (dieOf b)) then
    d.killRun b 0x1302 0x35 0
  else d

end

/-! ### The commands -/

section
variable (b : BenchIx) (src : PlaneSrc) (f : Ecc) (vp : Option Nat) (s : State)

def execPlaneQueueIssue (f : Ecc) (s : State) := s.runLive (planeQueueIssueEffect b f)
def execVopArith := s.runLive (vopArithEffect b src f vp)
def execFma := s.runLive (fmaEffect b src f vp)
def execRcpRsqSqrtExp2Log2 := s.runLive (rcpRsqSqrtExp2Log2Effect b src f vp)
def execMulh := s.runLive (mulhEffect b src f vp)
def execShlShr := s.runLive (shlShrEffect b src f vp)
def execAndOrXor := s.runLive (andOrXorEffect b src f vp)
def execCvt := s.runLive (cvtEffect b src f vp)
def execCmp := s.runLive (cmpEffect b src f vp)
def execSel := s.runLive (selEffect b src f vp)
def execMaskLogic := s.runLive (maskLogicEffect b src f vp)
def execPerm := s.runLive (permEffect b src f vp)
def execPerm2 := s.runLive (perm2Effect b src f vp)
def execRot := s.runLive (rotEffect b src f vp)
def execRev := s.runLive (revEffect b src f vp)
def execXswap := s.runLive (xswapEffect b src f vp)
def execBcast := s.runLive (bcastEffect b src f vp)
def execZipUnzip := s.runLive (zipUnzipEffect b src f vp)
def execPack := s.runLive (packEffect b src f vp)
def execUnpk := s.runLive (unpkEffect b src f vp)
def execCompress := s.runLive (compressEffect b src f vp)
def execExpand := s.runLive (expandEffect b src f vp)
def execSetvl := s.runLive (setvlEffect b src f)
def execMvjp := s.runLive (mvjpEffect b src f vp)
def execPflags := s.runLive (pflagsEffect b src f)
def execSum := s.runLive (sumEffect b src f vp)
def execOfrd := s.runLive (ofrdEffect b src f vp)
def execOftag := s.runLive (oftagEffect b src f)
def execOfpop := s.runLive (ofpopEffect b src f)
end

end Sys2Proof.Machine
end

