-- ==== Sys2Proof/Machine/PlaneMem.lean ====
section
/-! DEFINITION. The memory accesses of the plane engine: VLD, VST, VLDX, VSTX and VPF (R120, R191), CSTORE and XLOAD
(R127), and the loads and stores of thread groups (R144, R196). An access issues once: it enters the scoreboard with its
elements and values as they are then, and stays in `Plane.pends` until it is complete, while later instructions issue. -/

namespace Sys2Proof.Machine

/-- The first element whose address is malformed or outside the partition: cause and element (R43, R144). -/
def firstBad (usable : Nat) (xs : List MemElem) : Option (Nat × MemElem) :=
  xs.findSome? fun x => match classify x.addr with
    | .bad => some (0x1102, x)
    | .store o => if usable ≤ o then some (0x1101, x) else none
    | .device _ => none

/-- The element lies in device memory. -/
def MemElem.isDev (x : MemElem) : Bool :=
  match classify x.addr with
  | .device _ => true
  | _ => false

/-- Offset within its space. -/
def MemElem.off (x : MemElem) : Nat := spaceOff' x.addr
where
  spaceOff' (a : Nat) : Nat := if nfld a 47 44 = 8 then nfld a 19 0 else nfld a 43 0

/-- Lowest and highest byte of elements of `n` bytes (R51). -/
def memSpan (xs : List MemElem) (n : Nat) : Nat × Nat :=
  let os := xs.map (·.off)
  (os.foldl min (os.headD 0), os.foldl max 0 + n - 1)

/-- The scoreboard range of an access's elements in one space. -/
def memRange (xs : List MemElem) (n : Nat) (wr dev : Bool) : SbRange :=
  let (lo, hi) := memSpan (xs.filter (·.isDev == dev)) n
  { dev := dev, first := lo, last := hi, wr := wr, l1 := dev }

/-- The scoreboard ranges of an access: one for each space that it touches. R120 and R144 give an access one entry, and R51 gives an
entry one space: a thread access whose threads name both takes one for each (DEDUCED, log 16). -/
def memRanges (xs : List MemElem) (n : Nat) (wr : Bool) : List SbRange :=
  (if xs.any (!·.isDev) then [memRange xs n wr false] else []) ++ (if xs.any (·.isDev) then [memRange xs n wr true] else [])

/-! ### Entering and waiting -/

/-- Change the access under way that holds the scoreboard entries `ids`. -/
def Bench.modPend (bn : Bench) (ids : List Nat) (f : PlPend → PlPend) : Bench :=
  { bn with plane := { bn.plane with pends := bn.plane.pends.map fun p => if p.sbs == ids then f p else p } }

/-- The access is complete: it is no longer under way. -/
def Bench.dropPend (bn : Bench) (ids : List Nat) : Bench :=
  { bn with plane := { bn.plane with pends := bn.plane.pends.filter (·.sbs != ids) } }

/-- The source's slot. -/
def PlaneSrc.slot : PlaneSrc → Option Nat
  | .jig => none
  | .group s => some s.val

/-- The access of a source under way that a command goes on with: the one that stalls the engine, once it is not its line that it
waits for, otherwise the oldest that waits for no older access (R45, R48, R52). -/
def Bench.pendNext (bn : Bench) (slot : Option Nat) (is : W64 → Bool) : Option PlPend :=
  let mine (p : PlPend) : Bool := p.iss.slot == slot && is p.iss.word
  match bn.planeStall with
  | some p => if p.wait == .buffer && mine p then some p else none
  | none => bn.plane.pends.find? fun p => mine p && !p.sbs.any bn.sbWaits

/-- What an access does as it issues: it ends there, or enters the scoreboard with its elements and ranges. -/
inductive Start where
  | done (d : Dev)
  | enter (i : Issue) (xs : List MemElem) (rs : List SbRange)

/-- An access enters the scoreboard, the stores it waits for drain, and it runs at once if it need not wait (R51, R52). -/
def Dev.planeEnter (d : Dev) (b : Nat) (i : Issue) (xs : List MemElem) (rs : List SbRange) (run : PlPend → Dev → Dev) : Option Dev :=
  let bn := d.bench b
  if !bn.sbRoom rs.length then none
  else
    let (ids, bn1) := bn.sbEnterAll rs (i.slot.map fun _ => i.num)
    let p : PlPend := { iss := i, elems := xs, sbs := ids }
    let d1 := ((d.setBench b { bn1 with plane := { bn1.plane with pends := bn1.plane.pends ++ [p] } }).sbNote b).drainFor b ids
    let bn2 := d1.bench b
    some (if bn2.running && !ids.any bn2.sbWaits then run p d1 else d1)

/-- The whole effect of a command of a plane access: it goes on with an access of its kind that is under way and can go on, or
issues the next one. -/
def Dev.planeAccess (d : Dev) (b : Nat) (src : PlaneSrc) (f : Ecc) (vp : Option Nat) (is : W64 → Bool) (start : Issue → Dev → Start)
    (run : PlPend → Dev → Dev) : Dev :=
  match (d.bench b).pendNext src.slot is with
  | some p => if d.dieRuns (dieOf b) && (d.bench b).running then run p d else d
  | none => d.planeIssue b src f is fun i d' => d'.regParity b i vp fun d' => match start i d' with
    | .done d2 => some d2
    | .enter i xs rs => d'.planeEnter b i xs rs run

/-- Elements of `n` bytes with their ranges enter; a bad address kills, and an access without elements ends at once with `none'` (R43,
R120, R144). -/
def Dev.startElems (d : Dev) (b access : Nat) (i : Issue) (xs : List MemElem) (rs : List SbRange) (none' : Dev → Dev) : Start :=
  match firstBad (d.bench b).ctx.usable xs with
  | some (c, x) => .done (d.issueKill b c access x.addr i x.ix)
  | none => if xs.isEmpty then .done (none' d) else .enter i xs rs

/-- SECDED of the local words of an access (R42): a double-bit error kills, and TGR_FAULT takes the thread that reads the word (R153). -/
def Dev.elemEcc (d : Dev) (b : Nat) (i : Issue) (xs : List MemElem) (access : Nat) (x : EccAt) : Bool × Dev :=
  match xs.find? fun m => !m.isDev && m.off / 8 == x.off / 8 with
  | none => (true, d)
  | some m => (if x.e = .double then d.faultAt b m.ix i else d).lsEcc b x.off access x.e

/-! ### Loads and stores -/

/-- Collecting the lines of a load: it stops, waiting for one or killed, or has them all (R45, R120). -/
inductive Gather where
  | stop (d : Dev)
  | have (m : SMap Line) (d : Dev)

/-- The first element of an access in a line, which is a thread's in a thread access. -/
def PlPend.threadOf (p : PlPend) (line : Nat) : Nat := ((p.elems.find? fun x => x.isDev && x.off / 128 == line).map (·.ix)).getD 0

def Dev.gather (d : Dev) (b : Nat) (p : PlPend) (lp : Option Nat) (access : Nat) : List Nat → SMap Line → Gather
  | [], m => .have m d
  | l :: ls, m =>
    if m.has l then d.gather b p lp access ls m
    else match d.l1Access b l (lp == some l) (l * 128) with
      | (some (x, none), d1) => d1.gather b p lp access ls (m.set l x)
      | (some (_, some c), d1) => .stop (d1.issuePoison b c access (l * 128) p.iss (p.threadOf l))
      | (none, d1) =>
        .stop ((d1.requestFill b l false true false).modBench b (·.modPend p.sbs fun q => { q with lines := m, wait := .line }))

/-- A load that may go on: its lines, in the order given, through the L1; then its local words; `k` uses the bytes of each element and
the access retires (R42, R45, R53, R120, R144). -/
def Dev.loadRun (b n access : Nat) (e : EccAt) (lp : Option Nat) (order : List Nat → List Nat)
    (k : PlPend → (MemElem → List Byte) → Dev → Dev) (p : PlPend) (d : Dev) : Dev :=
  let lines := order (firsts ((p.elems.filter (·.isDev)).map (·.off / 128)))
  match d.gather b p lp access lines p.lines with
  | .stop d1 => d1
  | .have m d1 =>
    let (go, d2) := d1.elemEcc b p.iss p.elems access e
    if !go then d2
    else
      let bn := d2.bench b
      let bytes (x : MemElem) : List Byte :=
        if x.isDev then Line.slice (m.getD (x.off / 128) 0) (x.off % 128) n else bn.lsRead x.off n
      (k p bytes d2).modBench b fun x => (x.dropPend p.sbs).sbLeave p.sbs

/-- The bytes that an access stores into a line, its elements in order: one L1 access serves them all (R120, R144). -/
def PlPend.lineStore (p : PlPend) (line : Nat) : Line × ByteEn :=
  (p.elems.filter fun x => x.isDev && x.off / 128 == line).foldl (fun a x =>
    let be := beRange (x.off % 128) x.data.length
    (mergeLine a.1 (linePut (x.off % 128) x.data) be, a.2 ||| be)) (0, 0)

/-- Stores of a device access line by line, from the first line not yet done; the unit stalls while the merge buffer is full (R48).
Answers whether every line is done. -/
def Dev.scatter (d : Dev) (b : Nat) (p : PlPend) (lp : Option Nat) (mp : Bool) : List Nat → Nat → Bool × Dev
  | [], _ => (true, d)
  | l :: ls, k =>
    let (dat, be) := p.lineStore l
    let addr := ((p.elems.find? fun x => x.isDev && x.off / 128 == l).map (·.addr)).getD 0
    match d.storeLine b l dat be (p.sbs.getLastD 0) (lp == some l) (mp && k == p.prog) addr with
    | (false, _) => (false, d.modBench b (·.modPend p.sbs fun q => { q with prog := k, wait := .buffer }))
    | (true, d1) => if (d1.bench b).running then d1.scatter b p lp mp ls (k + 1) else (false, d1)

/-- A store that may go on: device bytes into the merge buffer, lines in the order given, then the local words; its device entry waits
for the acknowledgements (R42, R48, R53, R120, R144). -/
def Dev.storeRun (b access : Nat) (e : EccAt) (lp : Option Nat) (mp : Bool) (order : List Nat → List Nat) (p : PlPend) (d : Dev) : Dev :=
  let lines := order (firsts ((p.elems.filter (·.isDev)).map (·.off / 128)))
  let (all, d1) := d.scatter b p lp mp (lines.drop p.prog) p.prog
  if !all then d1
  else
    let (go, d2) := d1.elemEcc b p.iss p.elems access e
    if !go then d2
    else
      let loc := p.elems.filter (!·.isDev)
      d2.modBench b fun x =>
        let y := loc.foldl (fun y m => y.lsWrite m.off m.data) (x.dropPend p.sbs)
        if lines.isEmpty then y.sbLeave p.sbs else ((y.sbLeave p.sbs.dropLast)).sbPlaced (p.sbs.getLastD 0)

/-- Insert by key, keeping the order of equal keys. -/
def insertByKey {α : Type} (key : α → Nat) (x : α) : List α → List α
  | [] => [x]
  | y :: ys => if key x < key y then x :: y :: ys else y :: insertByKey key x ys

def sortByKey {α : Type} (key : α → Nat) (xs : List α) : List α := xs.foldl (fun a x => insertByKey key x a) []

/-! ### Vector loads and stores (R120, R191) -/

def isVmem (fn : Nat) (w : W64) : Bool := majorOf w == 0x3A && fld w 41 38 == fn
def vmemEs (w : W64) : Nat := esBits (fld w 37 36)

/-- The active elements of a vector access: those of lanes that the mask and VL leave in. -/
def Issue.active (i : Issue) (es : Nat) : List Nat :=
  (List.range (64 * (32 / es))).filter fun e => i.writes (e / (32 / es))

/-- Element address base + e × stride, low bits ignored (R120). -/
def Issue.strided (i : Issue) (es : Nat) : List MemElem :=
  (i.active es).map fun e => { ix := e, addr := wrapI 48 (((i.pop.base : Int)) + i.pop.stride.toInt * e) / (es / 8) * (es / 8) }

/-- Element address base + idx(e) × ES/8 (R120). -/
def Issue.indexed (i : Issue) (bn : Bench) (es : Nat) : List MemElem :=
  let vx := fld i.word 21 14
  (i.active es).map fun e =>
    { ix := e, addr := (i.pop.base + laneN (bn.vreg (vx + e / 64)) 32 (e % 64) * (es / 8)) % 2 ^ 48 / (es / 8) * (es / 8) }

/-- The fixed scoreboard range of a gather or scatter (R120). -/
def Issue.indexedRange (i : Issue) (bn : Bench) (es : Nat) (wr : Bool) : SbRange :=
  match classify i.pop.base with
  | .device p => { dev := true, first := p, last := p + (2 ^ 32 - 1) * (es / 8) + es / 8 - 1, wr := wr, l1 := true }
  | _ => { dev := false, first := 0, last := bn.ctx.partSize * 65536 - 1, wr := wr, l1 := false }

/-- Write a loaded vector: the element of index e from the bytes of its memory element (R118). -/
def Dev.vecLoaded (b es : Nat) (p : PlPend) (bytes : MemElem → List Byte) (d : Dev) : Dev :=
  let n := p.iss.vnum (fld p.iss.word 13 6)
  let vals := p.elems.map fun x => (x.ix, leNat (bytes x))
  d.modBench b fun bn =>
    bn.setVreg n (p.iss.build (bn.vreg n) es fun e => (((vals.find? (·.1 == e)).map (·.2)).getD 0, 0)).1

/-- The elements with the bytes that the stored register holds for them. -/
def Issue.stored (i : Issue) (bn : Bench) (es : Nat) (xs : List MemElem) : List MemElem :=
  let v := bn.vreg (i.vnum (fld i.word 13 6))
  xs.map fun x => { x with data := leBytes (laneN v es x.ix) (es / 8) }

/-- A vector load whose elements are all inactive leaves only what ZM zeroes. -/
def Issue.emptyLoad (i : Issue) (b : Nat) : Dev → Dev := Dev.vecLoaded b (vmemEs i.word) { iss := i, elems := [], sbs := [] } fun _ => []

def vldEffect (b : Nat) (e : EccAt) (lp vp : Option Nat) (d : Dev) : Dev :=
  d.planeAccess b .jig .ok vp (isVmem 0)
    (fun i d' =>
      let xs := i.strided (vmemEs i.word)
      d'.startElems b 0x30 i xs (memRanges xs (vmemEs i.word / 8) false) (i.emptyLoad b))
    fun p => Dev.loadRun b (vmemEs p.iss.word / 8) 0x30 e lp id (Dev.vecLoaded b (vmemEs p.iss.word)) p

def vstEffect (b : Nat) (e : EccAt) (lp vp : Option Nat) (mp : Bool) (d : Dev) : Dev :=
  d.planeAccess b .jig .ok vp (isVmem 1)
    (fun i d' =>
      let es := vmemEs i.word
      let xs := i.stored (d'.bench b) es (i.strided es)
      d'.startElems b 0x31 i xs (memRanges xs (es / 8) true) id)
    (Dev.storeRun b 0x31 e lp mp id)

def vldxEffect (b : Nat) (e : EccAt) (lp vp : Option Nat) (d : Dev) : Dev :=
  d.planeAccess b .jig .ok vp (isVmem 2)
    (fun i d' =>
      let es := vmemEs i.word
      d'.startElems b 0x32 i (i.indexed (d'.bench b) es) [i.indexedRange (d'.bench b) es false] (i.emptyLoad b))
    fun p => Dev.loadRun b (vmemEs p.iss.word / 8) 0x32 e lp id (Dev.vecLoaded b (vmemEs p.iss.word)) p

def vstxEffect (b : Nat) (e : EccAt) (lp vp : Option Nat) (mp : Bool) (d : Dev) : Dev :=
  d.planeAccess b .jig .ok vp (isVmem 3)
    (fun i d' =>
      let es := vmemEs i.word
      d'.startElems b 0x33 i (i.stored (d'.bench b) es (i.indexed (d'.bench b) es)) [i.indexedRange (d'.bench b) es true] id)
    (Dev.storeRun b 0x33 e lp mp id)

/-- A prefetch that may go on: its entry stays until the fill arrives, or leaves when nothing is fetched (R50, R53). -/
def Dev.prefetchRun (b pa : Nat) (p : PlPend) (d : Dev) : Dev :=
  let (sent, d1) := d.prefetch b (pa / 128)
  d1.modBench b fun x =>
    let y := x.dropPend p.sbs
    if sent then y.fillWaits (pa / 128) (p.sbs.headD 0) else y.sbLeave p.sbs

/-- VPF prefetches the line at the base; a local-store address does nothing (R50, R191). -/
def vpfEffect (b : Nat) (d : Dev) : Dev :=
  d.planeAccess b .jig .ok none (isVmem 4)
    (fun i d' => match classify i.pop.base with
      | .bad => .done (d'.killRun b 0x1102 0x30 i.pop.base)
      | .store _ => .done d'
      | .device pa => .enter i [] [{ dev := true, first := pa, last := pa, wr := false, l1 := false }])
    fun p => Dev.prefetchRun b (nfld p.iss.pop.base 43 0) p

/-! ### CSTORE and XLOAD (R127) -/

/-- The base of a capacity window, or the cause it raises: device memory 0x1303, malformed 0x1102 (R127). DESIGN CHOICE (log 73): the
spec states no alignment for the base, and a base that is not a multiple of 4 is taken at the multiple of 4 below it. -/
def windowBase (a : Nat) : Nat × Option Nat :=
  match classify a with
  | .store o => (o / 4 * 4, none)
  | .device _ => (0, some 0x1303)
  | .bad => (0, some 0x1102)

/-- Kept count k for fill F (R127). -/
def keptCount (sel cap fill : Nat) : Nat := min sel (cap - fill)

/-- jf becomes F + k; the dropped count is written (R127). DESIGN CHOICE (log 73): where JD and JF name one register, F + k is what it
holds, since the spec gives no order. -/
def Dev.fillDone (d : Dev) (b : Nat) (i : Issue) (k dropped : Nat) : Dev :=
  (d.dropped b i dropped).modBench b (·.setJ (fld i.word 33 29) (i.pop.fill + BitVec.ofNat 32 k))

/-- The words of the window from fill index F on, as memory elements. -/
def windowElems (o fill k : Nat) : List MemElem :=
  (List.range k).map fun q => { ix := q, addr := 0x8000_0000_0000 + (o + 4 * (fill + q)) }

/-- The instruction with its selected lanes captured as its mask. -/
def Issue.capture (i : Issue) (bn : Bench) : Issue :=
  { i with mask := packLanes 1 ((List.range 64).map fun l => b2n ((i.selected bn).contains l)) }

/-- A CSTORE or XLOAD as it issues: the window's base is checked, the kept words' addresses too, and the whole window is entered. -/
def Dev.startWindow (d : Dev) (b access : Nat) (i : Issue) (wr : Bool) (data : Nat → List Byte) : Start :=
  let (o, bad) := windowBase i.pop.base
  let cap := vselCap i.word
  let k := keptCount (i.selected (d.bench b)).length cap i.pop.fill.toNat
  let xs := (windowElems o i.pop.fill.toNat k).map fun x => { x with data := data x.ix }
  match bad, firstBad (d.bench b).ctx.usable xs with
  | some c, _ => .done (d.issueKill b c access i.pop.base i)
  | none, some (c, x) => .done (d.issueKill b c access x.addr i)
  | none, none =>
    .enter (i.capture (d.bench b)) xs [{ dev := false, first := o, last := o + 4 * cap - 1, wr := wr, l1 := false }]

def Dev.cstoreRun (b : Nat) (e : EccAt) (p : PlPend) (d : Dev) : Dev :=
  let (go, d1) := d.elemEcc b p.iss p.elems 0x31 e
  if !go then d1
  else
    let k := p.elems.length
    (d1.modBench b fun x =>
      ((p.elems.foldl (fun y m => y.lsWrite m.off m.data) x).dropPend p.sbs).sbLeave p.sbs).fillDone b p.iss k (p.iss.lanes.length - k)

def cstoreEffect (b : Nat) (src : PlaneSrc) (f : Ecc) (vp : Option Nat) (e : EccAt) (d : Dev) : Dev :=
  d.planeAccess b src f vp (isVsel 2)
    (fun i d' =>
      let bn := d'.bench b
      let sel := i.selected bn
      let va := bn.vreg (fld i.word 23 16)
      d'.startWindow b 0x31 i true fun q => leBytes (laneN va 32 (sel.getD q 0)) 4)
    (Dev.cstoreRun b e)

def Dev.xloadRun (b : Nat) (e : EccAt) (p : PlPend) (d : Dev) : Dev :=
  let (go, d1) := d.elemEcc b p.iss p.elems 0x30 e
  if !go then d1
  else
    let k := p.elems.length
    let vd := fld p.iss.word 15 8
    (d1.modBench b fun x =>
      let word (q : Nat) : Nat := ((p.elems.find? (·.ix == q)).map fun m => leNat (x.lsRead m.off 4)).getD 0
      ((x.setVreg vd (p.iss.spread p.iss.lanes (x.vreg vd) word)).dropPend p.sbs).sbLeave p.sbs).fillDone b p.iss k
        (p.iss.lanes.length - k)

def xloadEffect (b : Nat) (src : PlaneSrc) (f : Ecc) (vp : Option Nat) (e : EccAt) (d : Dev) : Dev :=
  d.planeAccess b src f vp (isVsel 3) (fun i d' => d'.startWindow b 0x30 i false fun _ => []) (Dev.xloadRun b e)

/-! ### Thread-group loads and stores (R144, R196) -/

def isTmem (lo hi : Nat) (w : W64) : Bool := majorOf w == 0x3E && decide (lo ≤ fld w 11 6) && decide (fld w 11 6 ≤ hi)

/-- The active threads of an issue, in ascending order. -/
def Issue.threads (i : Issue) : List Nat := (List.range 64).filter fun t => i.mask.testBit t

/-- Each thread's bench address: UA, the low half of UH and IMM16, low bits below the element ignored (R181, R196). -/
def Issue.threadAddrs (i : Issue) (bn : Bench) (n : Nat) : List MemElem :=
  let w := i.word
  let ua := i.src bn (fld w 21 17)
  let uh := i.src bn (fld w 26 22)
  i.threads.map fun t =>
    { ix := t, addr := wrapI 48 (((laneN ua 32 t + laneN uh 32 t % 65536 * 2 ^ 32 : Nat) : Int) + sxt 16 (fld w 54 39)) / n * n }

/-- A cohort's loaded values go to UD, sign-extended by LD (R196). -/
def Dev.threadLoaded (b : Nat) (p : PlPend) (bytes : MemElem → List Byte) (d : Dev) : Dev :=
  let w := p.iss.word
  let es := esBits (fld w 38 37)
  let ud := p.iss.vnum (fld w 16 12)
  d.modBench b fun bn =>
    bn.setVreg ud (p.iss.build (bn.vreg ud) 32 fun t =>
      let raw := leNat (((p.elems.find? (·.ix == t)).map bytes).getD [])
      (if fld w 11 6 = 0 then wrapI 32 (sxt es raw) else raw, 0)).1

/-- LD and LDU of a cohort: distinct lines in ascending order (R144). -/
def tmemLdEffect (b : Nat) (slot : Fin 8) (f : Ecc) (e : EccAt) (lp vp : Option Nat) (d : Dev) : Dev :=
  d.planeAccess b (.group slot) f vp (isTmem 0 1)
    (fun i d' =>
      let n := esBits (fld i.word 38 37) / 8
      let xs := i.threadAddrs (d'.bench b) n
      d'.startElems b 0x30 i xs (memRanges xs n false) id)
    fun p => Dev.loadRun b (esBits (fld p.iss.word 38 37) / 8) 0x30 e lp (sortByKey id) (Dev.threadLoaded b) p

/-- ST of a cohort: distinct lines in ascending order; where two threads store to one byte the higher thread's value stays (DESIGN
CHOICE, log 18). -/
def tmemStEffect (b : Nat) (slot : Fin 8) (f : Ecc) (e : EccAt) (lp vp : Option Nat) (mp : Bool) (d : Dev) : Dev :=
  d.planeAccess b (.group slot) f vp (isTmem 2 2)
    (fun i d' =>
      let n := esBits (fld i.word 38 37) / 8
      let bn := d'.bench b
      let ub := i.src bn (fld i.word 31 27)
      let xs := (i.threadAddrs bn n).map fun x => { x with data := leBytes (laneN ub 32 x.ix) n }
      d'.startElems b 0x31 i xs (memRanges xs n true) id)
    (Dev.storeRun b 0x31 e lp mp (sortByKey id))

/-! ### The commands -/

section
variable (b : BenchIx) (src : PlaneSrc) (f : Ecc) (vp : Option Nat) (e : EccAt) (lp : Option Nat) (s : State)

def execVld (e : EccAt) (lp vp : Option Nat) (s : State) := s.runLive (vldEffect b e lp vp)
def execVst (e : EccAt) (lp vp : Option Nat) (mp : Bool) (s : State) := s.runLive (vstEffect b e lp vp mp)
def execVldx (e : EccAt) (lp vp : Option Nat) (s : State) := s.runLive (vldxEffect b e lp vp)
def execVstx (e : EccAt) (lp vp : Option Nat) (mp : Bool) (s : State) := s.runLive (vstxEffect b e lp vp mp)
def execVpf := s.runLive (vpfEffect b)
def execCstore (src : PlaneSrc) (f : Ecc) (vp : Option Nat) (e : EccAt) (s : State) := s.runLive (cstoreEffect b src f vp e)
def execXload (src : PlaneSrc) (f : Ecc) (vp : Option Nat) (e : EccAt) (s : State) := s.runLive (xloadEffect b src f vp e)
def execTmemLd (slot : Fin 8) (f : Ecc) (e : EccAt) (lp vp : Option Nat) (s : State) := s.runLive (tmemLdEffect b slot f e lp vp)
def execTmemSt (slot : Fin 8) (f : Ecc) (e : EccAt) (lp vp : Option Nat) (mp : Bool) (s : State) :=
  s.runLive (tmemStEffect b slot f e lp vp mp)
end

end Sys2Proof.Machine
end

