-- ==== Sys2Proof/Machine/Slots.lean ====
section
/-! DEFINITION. Routes through a die's mesh, and the link-cycles of slot transfers under way (R169, R209, R210). -/

namespace Sys2Proof.Machine

/-- The links of a route, x first and then y, as (router, direction): 0 east, 1 west, 2 south, 3 north; the first argument
bounds the hops. -/
def route : Nat → Nat → Nat → Nat → Nat → List (Nat × Nat)
  | 0, _, _, _, _ => []
  | f + 1, x, y, tx, ty =>
    if x < tx then (24 * y + x, 0) :: route f (x + 1) y tx ty
    else if tx < x then (24 * y + x, 1) :: route f (x - 1) y tx ty
    else if y < ty then (24 * y + x, 2) :: route f x (y + 1) tx ty
    else if ty < y then (24 * y + x, 3) :: route f x (y - 1) tx ty
    else []

/-- The links between two benches of one die, by their device indices. -/
def benchRoute (a b : Nat) : List (Nat × Nat) := route 64 (a % 24) (a % 576 / 24) (b % 24) (b % 576 / 24)

/-- A slot transfer under way: its source, the links of its route, and for each chunk the cycle of its next crossing with the links that it
still has to cross. -/
structure Train where
  src : Nat
  chunks : List (Nat × List (Nat × Nat))
deriving DecidableEq, Repr

/-- A transfer of `n` chunks that starts at cycle `s` (R209). -/
def trainAt (src dst n s : Nat) : Train := { src := src, chunks := (List.range n).map fun i => (s + i, benchRoute src dst) }

/-- One cycle for the chunks of a transfer: each due one crosses its link; one that finds it taken waits, and every later chunk shifts with
it. Answers the chunks, the links taken, and the waits. -/
def chunksCycle (t : Nat) : List (Nat × List (Nat × Nat)) → List (Nat × Nat) → List (Nat × List (Nat × Nat)) × List (Nat × Nat) × Nat
  | [], taken => ([], taken, 0)
  | (r, []) :: cs, taken => let (cs1, x) := chunksCycle t cs taken; ((r, []) :: cs1, x)
  | (r, l :: ls) :: cs, taken =>
    if r ≠ t then let (cs1, x) := chunksCycle t cs taken; ((r, l :: ls) :: cs1, x)
    else if taken.contains l then (((r, l :: ls) :: cs).map fun c => (c.1 + 1, c.2), taken, 1)
    else let (cs1, x) := chunksCycle t cs (l :: taken); ((r + 1, ls) :: cs1, x)

/-- One cycle for every transfer of a die, the lower bench first (R210). -/
def trainsCycle (t : Nat) : List Train → List (Nat × Nat) → List Train × Nat
  | [], _ => ([], 0)
  | x :: xs, taken =>
    let (cs, taken1, n) := chunksCycle t x.chunks taken
    let (xs1, m) := trainsCycle t xs taken1
    ({ x with chunks := cs } :: xs1, n + m)

/-- The first cycle in which a chunk is due. -/
def trainsNext (xs : List Train) : Option Nat :=
  ((xs.flatMap fun x => x.chunks).filterMap fun c => if c.2.isEmpty then none else some c.1).min?

/-- The waits until every chunk has crossed its route; in each cycle that has a chunk due, one crosses. -/
def trainsWaits : Nat → List Train → Nat
  | 0, _ => 0
  | f + 1, xs => match trainsNext xs with
    | none => 0
    | some t => let (ys, n) := trainsCycle t xs []; n + trainsWaits f ys

/-- Put a transfer among others that stand in the order of their sources. -/
def putTrain (x : Train) : List Train → List Train
  | [] => [x]
  | y :: ys => if y.src ≤ x.src then y :: putTrain x ys else x :: y :: ys

def trainsClash (xs : List Train) : Nat :=
  trainsWaits ((xs.flatMap fun x => x.chunks.flatMap (·.2)).length) (xs.foldl (fun ys x => putTrain x ys) [])

/-- The slot transfers under way on a die: chunks that have not landed, by source and descriptor; `loc` is the cycle of the start. -/
def Dev.slotTrains (d : Dev) (die : Nat) : List Train :=
  let keys := (d.net.filterMap fun m => match m.kind, m.src, m.dst with
    | .slotChunk, .bench a, .bench b => if dieOf a = die then some (a, b, m.tag, m.loc) else none
    | _, _, _ => none).foldl (fun (l : List (Nat × Nat × Nat × Nat)) k => if l.contains k then l else l ++ [k]) []
  keys.map fun k => trainAt k.1 k.2.1
    ((d.net.filter fun m => m.kind == .slotChunk && m.src == .bench k.1 && m.dst == .bench k.2.1 && m.tag == k.2.2.1 && m.loc == k.2.2.2).length) k.2.2.2

/-- A transfer starts: NET_RSV_COLL counts the waits that it adds to those of the transfers under way (R210). -/
def Dev.slotClash (d : Dev) (die : Nat) (x : Train) : Dev :=
  match d.slotTrains die with
  | [] => d
  | xs =>
    let n := trainsClash (xs ++ [x]) - trainsClash xs
    if n = 0 then d else d.count .netRsvColl [die] 31 0 n

end Sys2Proof.Machine
end

