-- ==== Sys2Proof/Machine/BenchEvents.lean ====
section
/-! DEFINITION. What happens on a bench after issue: lines arriving (R44 to R46, R50), the merge buffer
(R48, R49), retirement (R53), the tile mover (R54, R167) and slot transfers (R168). -/

namespace Sys2Proof.Machine

/-- A message answers an access of the running context's present generation (R59). -/
def Bench.msgLive (bn : Bench) (m : Msg) : Bool :=
  bn.running && m.ctx == bn.runCtx && m.gen == bn.ctx.gen

/-! ### Line fills -/

/-- The poison of an answer, with the cause reported for it (R245, R270). -/
def Msg.bad (m : Msg) : Option Nat := if m.poison then some m.code else none

/-- The jig core's load of this line completes, or kills the context when the line is poisoned (R46, R306). -/
def Dev.jigDeliver (d : Dev) (b line : Nat) (l : Line) (poison : Option Nat) : Dev :=
  let bn := d.bench b
  match bn.wait with
  | .load pa n sgn rd sb =>
    if pa / 128 != line then d
    else match poison with
    | some c => d.killPoison b c 0x10 (line * 128)
    | none => d.modBench b fun x =>
      { (x.setJ rd (loadValue n sgn (Line.slice l (pa % 128) n))).sbDone [sb] with wait := .none }
  | _ => d

/-- The access type of a plane access that reads (R396). -/
def planeReads (w : W64) : Nat := if majorOf w = 0x3A ∧ fld w 41 38 = 2 then 0x32 else 0x30

/-- The plane access that waits for a line receives it, or the context is killed (R45, R306). -/
def Dev.planeDeliver (d : Dev) (b line : Nat) (l : Line) (poison : Option Nat) : Dev :=
  match (d.bench b).plane.pends.find? (·.wait == .line) with
  | none => d
  | some p =>
    match poison with
    | some c => d.issuePoison b c (planeReads p.iss.word) (line * 128) p.iss (p.threadOf line)
    | none => d.modBench b (·.modPend p.sbs fun q => { q with lines := q.lines.set line l, wait := .order })

/-- A fill arrives: void after an invalidation it is refused and the waiting access misses anew (R44);
otherwise the bench's own stores replace the bytes read (R46), a demand fill enters the way chosen for it, a prefetch
is held by the infeed buffer, and whoever waits for the line receives it. -/
def Dev.fillArrive (d : Dev) (b : Nat) (f : Fill) (m : Msg) : Dev :=
  let bn := d.bench b
  if f.void then
    let drop : Bench := { bn with
      fills := bn.fills.filter (·.line != f.line)
      infeed := bn.infeed.filter fun e => e.held || e.line != f.line }
    let d1 := d.setBench b (drop.sbDone f.sbs)
    if f.jig || f.plane then d1.requestFill b f.line f.jig f.plane false else d1
  else
    let own := bn.merge.foldl (fun (a : Line × ByteEn) e =>
      if e.line == f.line then (mergeLine a.1 e.data e.be, a.2 ||| e.be) else a) (f.ovData, f.ovBe)
    let l := mergeLine m.data own.1 own.2
    let bn1 := { bn with fills := bn.fills.filter (·.line != f.line) }
    let demand := f.jig || f.plane
    let bn2 : Bench :=
      if f.infeed && !demand then
        { bn1 with
          infeed := bn1.infeed.map fun e =>
            if !e.held && e.line == f.line then { e with held := true, data := l, poison := m.bad } else e }
      else ({ bn1 with infeed := bn1.infeed.filter fun e => e.held || e.line != f.line }).l1Insert f.line l m.bad f.way
    let d1 := d.setBench b (bn2.sbDone f.sbs)
    let d2 := if f.jig then d1.jigDeliver b f.line l m.bad else d1
    let d3 := if f.plane && (d2.bench b).running then d2.planeDeliver b f.line l m.bad else d2
    d3.modBench b (·.fenceCheck)

def lineFillArrivalEffect (b : Nat) (d : Dev) : Dev :=
  if !d.dieRuns (dieOf b) then d
  else match d.recv fun m => m.kind == .lineRsp && m.dst == .bench b && m.tag == 0 with
    | none => d
    | some (m, d1) =>
      let bn := d1.bench b
      if !bn.msgLive m then d1
      else match bn.fills.find? (·.line == m.line) with
        | none => d1
        | some f => d1.fillArrive b f m

/-! ### Merge buffer -/

/-- The count at which a merge-buffer entry has been idle for BCH_MB_CFG.IDLE cycles (R48, R61). -/
def Dev.idleDue (d : Dev) (b : Nat) (e : MergeEntry) : Nat := e.last + max 1 (d.regFld .bchMbCfg [b] 7 0)

/-- The first count at which some entry that does not drain has been idle so long. -/
def Dev.idleFirst (d : Dev) (b : Nat) : Option Nat := (((d.bench b).merge.filter (!·.draining)).map (d.idleDue b)).min?

/-- Entries that have been idle for BCH_MB_CFG.IDLE cycles drain; entries drain in allocation order, so that an older one drains with one
that is idle behind it (R48). -/
def mergeBufferIdleDrainEffect (b : Nat) (mp : Bool) (d : Dev) : Dev :=
  let idle (e : MergeEntry) : Bool := !e.draining && decide (d.idleDue b e ≤ d.cycle (dieOf b))
  if !d.dieRuns (dieOf b) || !(d.bench b).merge.any idle then d else (d.modBench b (·.mergeBad mp)).drainWhere b idle

/-- The stores among `ids` with nothing left in the merge buffer or to be put into it: their entries may retire. -/
def Bench.storesDone (bn : Bench) (ids : List Nat) : List Nat :=
  ids.filter fun i => !bn.merge.any (·.sbs.contains i) && !bn.plane.pends.any (·.sbs.contains i)

/-- The bay cache acknowledges a drained entry: it is freed, its stores' scoreboard entries may retire, and
a fill that waited for the drain is requested; with twelve or more entries still taken the oldest drains (R46, R48, R53). -/
def mergeBufferDrainAckEffect (b : Nat) (d : Dev) : Dev :=
  if !d.dieRuns (dieOf b) then d
  else
    let isMine (m : Msg) : Bool := m.kind == .writeAck && m.dst == .bench b &&
      (m.op == 0)
    match d.recv isMine with
    | none => d
    | some (m, d1) =>
      let bn := d1.bench b
      if !bn.msgLive m then d1
      else if m.poison then d1.killPoison b m.code 0x11 (m.line * 128)
      else match bn.merge.find? (·.id == m.tag) with
        | none => d1
        | some e =>
          let bn1 := { bn with merge := bn.merge.filter (·.id != e.id) }
          let d2 := d1.setBench b ((bn1.sbDone (bn1.storesDone e.sbs)).fenceCheck)
          let unsent := bn1.fills.any (fun f => f.line == e.line && !f.sent) && !bn1.merge.any (·.line == e.line)
          (if unsent then d2.sendFill b e.line else d2).mergeHigh b

/-! ### Retirement -/

/-- The old value of a thread's atomic arrives (R145): it is written to the thread's register, and with the last
thread's the access has completed. A poisoned reply kills the context (R306). -/
def Dev.atomReply (d : Dev) (b : Nat) (m : Msg) : Dev :=
  let bn := d.bench b
  match bn.slots.cells.find? fun c => c.2.atoms.any (·.sb == m.tag) with
  | none => d
  | some (s, g) => match g.atoms.find? (·.sb == m.tag) with
    | none => d
    | some a =>
      if m.poison then
        d.issuePoison b m.code 0x34 (m.line * 128)
          { slot := some s, word := 0, pop := ⟨0, 0, 0, 0, 0⟩, vl := 64, mask := 0, zm := false, pc := a.pc, num := g.num } m.v0
      else
        let w := a.wait &&& ~~~(1#64 <<< m.v0)
        let n := vecNum (some s) a.ud
        let bn1 := bn.setVreg n (setLaneN (bn.vreg n) 32 m.v0 m.v1)
        let bn2 := bn1.modGroup s fun g =>
          { g with
            atoms := if w = 0 then g.atoms.filter (·.sb != m.tag) else g.atoms.map fun x => if x.sb == m.tag then { x with wait := w } else x }
        d.setBench b (if w = 0 then bn2.sbDone [m.tag] else bn2)

/-- An access completes and its entry retires: an atomic's reply is taken first, otherwise the first completed
entry leaves (R53). -/
def scoreboardRetireEffect (b : Nat) (d : Dev) : Dev :=
  if !d.dieRuns (dieOf b) then d
  else match d.recv fun m => m.kind == .atomRsp && m.dst == .bench b with
    | some (m, d1) => if (d1.bench b).msgLive m then d1.atomReply b m else d1
    | none =>
      let bn := d.bench b
      match bn.sb.find? (·.done) with
      | none => d
      | some e => d.setBench b (bn.sbLeave [e.id])

/-! ### Tile mover -/

/-- One side of a descriptor, as it was issued. -/
structure TmSide where
  fabric : Bool
  addr : Nat
  stride : Int
deriving DecidableEq, Repr

/-- The side lies in the running context's local store. -/
def TmSide.isLocal (x : TmSide) : Bool :=
  !x.fabric && match classify x.addr with
    | .store _ => true
    | _ => false

/-- First and last byte of the rows of a side, as offsets within its space (R51). -/
def TmSide.span (x : TmSide) (rowLen rows : Nat) : Int × Int :=
  let base : Int := match x.fabric, classify x.addr with
    | true, _ => x.addr
    | _, .store o => o
    | _, .device p => p
    | _, .bad => 0
  let far := base + x.stride * (((rows : Int)) - 1)
  (min base far, max base far + ((rowLen : Int)) - 1)

/-- The cause a side raises at issue: a row outside the space that its address names is malformed, a row at or
beyond the usable size lies outside the partition (R43). -/
def TmSide.bad (x : TmSide) (usable rowLen rows : Nat) : Option Nat :=
  let (lo, hi) := x.span rowLen rows
  if x.fabric then (if lo < 0 ∨ 2 ^ 64 ≤ hi then some 0x1102 else none)
  else match classify x.addr with
    | .bad => some 0x1102
    | .device _ => if lo < 0 ∨ 2 ^ 44 ≤ hi then some 0x1102 else none
    | .store _ => if lo < 0 ∨ 2 ^ 20 ≤ hi then some 0x1102 else if (usable : Int) ≤ hi then some 0x1101 else none

/-- The scoreboard range of a side. R51 names local store and device memory only; DESIGN CHOICE (log 16): a fabric side's range is a space
of its own, rounded to 128 bytes as device memory is, which conflicts with fabric ranges only. -/
def TmSide.range (x : TmSide) (rowLen rows : Nat) (wr : Bool) : SbRange :=
  let (lo, hi) := x.span rowLen rows
  { dev := !x.isLocal, fabric := x.fabric, first := lo.toNat, last := hi.toNat, wr := wr, l1 := false }

/-- The descriptor that a TM instruction names, from j(8Q) to j(8Q + 7): source, destination, row length and
row count (R184). -/
def Bench.tmRead (bn : Bench) (w : W64) : TmSide × TmSide × Nat × Nat :=
  let r (i : Nat) := bn.j (8 * fld w 7 6 + i)
  let addr (fab : Bool) (lo hi : W32) : Nat := if fab then lo.toNat + hi.toNat * 2 ^ 32 else pairAddr lo hi 0
  ({ fabric := w.getLsbD 12, addr := addr (w.getLsbD 12) (r 0) (r 1), stride := (r 6).toInt },
   { fabric := w.getLsbD 13, addr := addr (w.getLsbD 13) (r 2) (r 3), stride := (r 7).toInt },
   (r 4).toNat, (r 5).toNat % 65536)

/-- The sizes and sides that R54 allows. -/
def tmLegal (src dst : TmSide) (rowLen rows : Nat) : Bool :=
  rowLen % 4 == 0 && decide (4 ≤ rowLen) && decide (rowLen ≤ 65536) && decide (1 ≤ rows) && (src.isLocal || dst.isLocal)

/-- Jig TM: a legal descriptor takes a queue entry and two scoreboard entries, and stores in the merge buffer that it waits for drain at
once; it stalls while the queue or the scoreboard is full (R51 to R54). -/
def tmEffect (b : Nat) (f : Ecc) (d : Dev) : Dev :=
  d.jigIssue b f (majorOf · == 0x1D) fun w d' =>
    let bn := d'.bench b
    let (src, dst, rowLen, rows) := bn.tmRead w
    if !tmLegal src dst rowLen rows then some (d'.killRun b 0x1104 0x40 (src.addr % 2 ^ 48))
    else match src.bad bn.ctx.usable rowLen rows, dst.bad bn.ctx.usable rowLen rows with
      | some c, _ => some (d'.killRun b c 0x40 (src.addr % 2 ^ 48))
      | none, some c => some (d'.killRun b c 0x41 (dst.addr % 2 ^ 48))
      | none, none =>
        if 16 ≤ bn.tm.length ∨ !bn.sbRoom 2 then none
        else
          let (i, bn1) := bn.sbEnter (src.range rowLen rows false)
          let (j, bn2) := bn1.sbEnter (dst.range rowLen rows true)
          some ((d'.setBench b { (bn2.pcNext 4) with
            nextId := bn2.nextId + 1
            tm := bn2.tm ++ [{ id := bn2.nextId, ctx := bn.runCtx, gen := bn.ctx.gen, fsrc := src.fabric, fdst := dst.fabric,
                               src := src.addr, dst := dst.addr, rowLen := rowLen, rows := rows, srcStride := src.stride,
                               dstStride := dst.stride, cnt := fld w 11 8, sbSrc := i, sbDst := j, active := false,
                               reads := 0, writes := 0, slot := none, buf := none }] }).sbNote b |>.drainFor b [i, j])

/-- Offset of byte `k` of row `r` of a side within its space. -/
def tmAt (base : Nat) (stride : Int) (r k : Nat) : Nat := (((base : Int)) + stride * r + k).toNat

/-- Local-store offset or device address of a bench address. -/
def spaceOff (a : Nat) : Nat := if nfld a 47 44 = 8 then nfld a 19 0 else nfld a 43 0

def TmDesc.localSrc (t : TmDesc) : Bool := !t.fsrc && nfld t.src 47 44 == 8
def TmDesc.localDst (t : TmDesc) : Bool := !t.fdst && nfld t.dst 47 44 == 8

/-- Change descriptor `id`. -/
def Bench.modTm (bn : Bench) (id : Nat) (f : TmDesc → TmDesc) : Bench :=
  { bn with tm := bn.tm.map fun t => if t.id == id then f t else t }

/-- Increment a completion counter of a context, modulo 2^16 (R54, R55). -/
def Bench.countUp (bn : Bench) (n cnt : Nat) : Bench :=
  bn.modCtx n fun c => { c with counters := c.counters.setIfInBounds cnt (c.counters.toList.getD cnt 0 + 1) }

/-- A descriptor with nothing left to read or to have acknowledged completes (R54). -/
def Bench.tmFinish (bn : Bench) (id : Nat) : Bench :=
  match bn.tm.find? (·.id == id) with
  | none => bn
  | some t =>
    if t.active && t.reads == 0 && t.writes == 0 then
      (({ bn with tm := bn.tm.filter (·.id != id) }).sbDone [t.sbSrc, t.sbDst]).countUp t.ctx t.cnt
    else bn

/-- The pieces of `n` bytes from device address `a` that lie in one line each: offset within the run, and length. -/
def cutLines (a off n : Nat) : Nat → List (Nat × Nat)
  | 0 => []
  | fuel + 1 =>
    if n = 0 then []
    else
      let k := min n (128 - (a + off) % 128)
      (off, k) :: cutLines a (off + k) (n - k) fuel

/-- The bytes of row `r` of a local source. -/
def Bench.tmRow (bn : Bench) (t : TmDesc) (r : Nat) : List Byte := bn.lsRead (tmAt (spaceOff t.src) t.srcStride r 0) t.rowLen

/-- Row `r` of a local source as a descriptor reads it whose destination is local too: `bn0` is the bench as the descriptor starts, `bn`
with the rows before written. R54 gives no order between reads and writes of one descriptor: each 4-byte granule is a free choice of what it
held at the start and what it holds now, both of which were held there (R281; log 23). -/
def Bench.tmRowOver (bn0 bn : Bench) (fc : Nat) (t : TmDesc) (r : Nat) : List Byte :=
  let o := tmAt (spaceOff t.src) t.srcStride r 0
  List.zipWith (fun k xy => if (Config.freeByte fc (r * 2 ^ 18 + (o + k) / 4)).getLsbD 0 then xy.1 else xy.2) (List.range t.rowLen)
    (List.zip (bn0.tmRow t r) (bn.tmRow t r))

/-- Start a descriptor whose source is local store: its rows are read and written to local store at once, or
sent to device memory, the bench's own copies of those lines being dropped, or to a fabric peer (R54, R167, R279, R373). -/
def Dev.tmStartLocal (d : Dev) (b : Nat) (t : TmDesc) : Dev :=
  let bn := d.bench b
  let inst := d.instOfDie (dieOf b)
  let act (w : Nat) (x : Bench) : Bench :=
    ((x.modTm t.id fun y => { y with active := true, writes := w }).sbDone [t.sbSrc]).tmFinish t.id
  if t.localDst then
    let bn1 := (List.range t.rows).foldl (fun x r => x.lsWrite (tmAt (spaceOff t.dst) t.dstStride r 0) (bn.tmRowOver x d.free t r)) bn
    (d.setBench b (act 0 bn1)).tickFree
  else if t.fdst then
    match d.fabTarget inst t.dst true with
    | none => d.kill b t.ctx 0x6205 0x41 (t.dst)
    | some i =>
      if d.peerDown i then d.killQuiet b t.ctx 0x6201 else
      let sent := (List.range t.rows).foldl (fun (a : Nat × Dev) r =>
        let (n, e) := a.2.fabWrite inst i (tmAt t.dst t.dstStride r 0) (bn.tmRow t r) (.tm b t.id)
        (a.1 + n, e)) (0, d)
      sent.2.modBench b (act sent.1)
  else
    let pieces := (List.range t.rows).flatMap fun r =>
      let a := tmAt (spaceOff t.dst) t.dstStride r 0
      (cutLines a 0 t.rowLen (t.rowLen / 128 + 2)).map fun c => (a + c.1, ((bn.tmRow t r).drop c.1).take c.2)
    let d1 := pieces.foldl (fun d c => d.send
      { kind := .benchWrite, src := .bench b, dst := .bay (bayOf b), line := c.1 / 128, data := linePut (c.1 % 128) c.2,
        be := beRange (c.1 % 128) c.2.length, tag := t.id, ctx := t.ctx, gen := t.gen, op := 1 }) d
    d1.modBench b fun x => act pieces.length (x.dropLines (firsts (pieces.map (·.1 / 128))))

/-- Start a descriptor that reads device memory or a fabric peer into local store: a request for each line or
frame, naming the local-store offset that its bytes go to. -/
def Dev.tmStartFar (d : Dev) (b : Nat) (t : TmDesc) : Dev :=
  let inst := d.instOfDie (dieOf b)
  let act (n : Nat) (x : Bench) : Bench := x.modTm t.id fun y => { y with active := true, reads := n }
  if t.fsrc then
    match d.fabTarget inst t.src false with
    | none => d.kill b t.ctx 0x6205 0x40 (t.src)
    | some i =>
      if d.peerDown i then d.killQuiet b t.ctx 0x6201 else
      let sent := (List.range t.rows).foldl (fun (a : Nat × Dev) r =>
        let (n, e) := a.2.fabRead inst i (tmAt t.src t.srcStride r 0) t.rowLen r (.tm b t.id)
        (a.1 + n, e)) (0, d)
      sent.2.modBench b (act sent.1)
  else
    let pieces := (List.range t.rows).flatMap fun r =>
      let a := tmAt (spaceOff t.src) t.srcStride r 0
      (cutLines a 0 t.rowLen (t.rowLen / 128 + 2)).map fun c =>
        (a + c.1, c.2, tmAt (spaceOff t.dst) t.dstStride r c.1)
    let d1 := pieces.foldl (fun d c => d.send
      { kind := .benchRead, src := .bench b, dst := .bay (bayOf b), line := c.1 / 128, off := c.1 % 128, tag := t.id + 1,
        ctx := t.ctx, gen := t.gen, v0 := c.2.2, v1 := c.2.1 }) d
    d1.modBench b (act pieces.length)

/-- The descriptor that would start next: descriptors start in queue order and eight may be active (R54). -/
def Bench.tmNext (bn : Bench) : Option TmDesc :=
  if 8 ≤ (bn.tm.filter fun t => t.active && t.slot.isNone).length then none
  else bn.tm.find? fun t => t.slot.isNone && !t.active

/-- Once no older access conflicts with its ranges, the next descriptor starts (R52, R54, R167). A local
source is read through SECDED (R42). -/
def tileMoverDescriptorStartEffect (b : Nat) (e : EccAt) (d : Dev) : Dev :=
  let bn := d.bench b
  if !d.dieRuns (dieOf b) || !bn.running then d
  else match bn.tmNext with
    | none => d
    | some t =>
      let own := [t.sbSrc, t.sbDst]
      if bn.sbWaitsBut t.sbSrc own || bn.sbWaitsBut t.sbDst own then
        d.drainFor b own
      else if t.localSrc then
        let sp := (TmSide.span { fabric := false, addr := t.src, stride := t.srcStride } t.rowLen t.rows)
        let (go, d1) := d.lsEccAt b sp.1.toNat sp.2.toNat 0x40 e
        if go then d1.tmStartLocal b t else d1
      else d.tmStartFar b t

/-- A line for a tile-mover read is written to local store; a poisoned one kills the context (R167, R306). -/
def tileMoverResponseEffect (b : Nat) (d : Dev) : Dev :=
  if !d.dieRuns (dieOf b) then d
  else match d.recv fun m => m.kind == .lineRsp && m.dst == .bench b && m.tag != 0 with
    | none => d
    | some (m, d1) =>
      let bn := d1.bench b
      if !bn.msgLive m then d1
      else if m.poison then d1.killPoison b m.code 0x40 (m.line * 128)
      else
        d1.setBench b (((bn.lsWrite m.v0 (Line.slice m.data m.off m.v1)).modTm (m.tag - 1) fun t =>
          { t with reads := t.reads - 1 }).tmFinish (m.tag - 1)).fenceCheck

/-- One of a descriptor's writes has been accepted and acknowledged. -/
def Dev.tmAcked (d : Dev) (b id : Nat) : Dev :=
  d.modBench b fun bn => ((bn.modTm id fun t => { t with writes := t.writes - 1 }).tmFinish id).fenceCheck

/-- A write of a descriptor is acknowledged by the bay cache; with the last one the counter is incremented and
the descriptor leaves (R53, R54); one answered with poison kills the context (R245, R270). -/
def tileMoverWriteAckEffect (b : Nat) (d : Dev) : Dev :=
  if !d.dieRuns (dieOf b) then d
  else match d.recv fun m => m.kind == .writeAck && m.dst == .bench b && m.op == 1 with
    | none => d
    | some (m, d1) =>
      if !(d1.bench b).msgLive m then d1
      else if m.poison then d1.killPoison b m.code 0x41 (m.line * 128)
      else d1.tmAcked b m.tag

/-! ### Slot transfers -/

/-- The bench and context that hold placement `place` of program `prog`. -/
def Dev.findPlace (d : Dev) (prog place : Nat) : Option (Nat × Nat) :=
  d.benches.cells.findSome? fun c =>
    (c.2.ctxs.cells.find? fun k => k.2.valid && k.2.prog == prog && k.2.place == place).map fun k => (c.1, k.1)

/-- The context that a slot-table entry of bench `b`'s running context names, if the transfer is a legal one:
up to 4 KiB, to another bench of the same die (R168). -/
def Dev.slotTarget (d : Dev) (b : Nat) (e : SlotEntry) : Option (Nat × Nat) :=
  if 4096 < e.len then none
  else match d.findPlace (d.bench b).ctx.prog e.dstPlace with
    | some (t, n) => if dieOf t = dieOf b ∧ t ≠ b then some (t, n) else none
    | none => none

/-- Jig SLOT: a queue entry and a scoreboard entry for the source (R168, R184). -/
def slotEffect (b : Nat) (f : Ecc) (d : Dev) : Dev :=
  d.jigIssue b f (majorOf · == 0x1E) fun w d' =>
    let bn := d'.bench b
    match bn.ctx.slots[fld w 15 6]? with
    | none => some (d'.killRun b 0x1104 0x42 0)
    | some e =>
      if (d'.slotTarget b e).isNone then some (d'.killRun b 0x1104 0x42 (localAddr e.srcOff))
      else if bn.ctx.usable < e.srcOff + e.len then some (d'.killRun b 0x1101 0x42 (localAddr e.srcOff))
      else if 16 ≤ bn.tm.length ∨ !bn.sbRoom 1 then none
      else
        let (i, bn1) := bn.sbEnter
          { dev := false, first := e.srcOff, last := e.srcOff + e.len - 1, wr := false, l1 := false }
        some ((d'.setBench b { (bn1.pcNext 4) with
          nextId := bn1.nextId + 1
          tm := bn1.tm ++ [{ id := bn1.nextId, ctx := bn.runCtx, gen := bn.ctx.gen, fsrc := false, fdst := false,
                             src := localAddr e.srcOff, dst := 0, rowLen := e.len, rows := 1, srcStride := 0, dstStride := 0,
                             cnt := e.dstCnt, sbSrc := i, sbDst := i, active := false, reads := 0, writes := 0,
                             slot := some e, buf := none }] }).sbNote b)

/-- The oldest slot transfer reads its source and starts: the die's count moves to the first cycle after it whose
count modulo 1,024 is the phase, past no count at which benches are to start, its clashes with other transfers are counted, and its chunks are injected (R168, R209, R210). -/
def slotTransferStartEffect (b : Nat) (e : EccAt) (d : Dev) : Dev :=
  let bn := d.bench b
  if !d.dieRuns (dieOf b) || !bn.running then d
  else match bn.tm.find? (·.slot.isSome) with
    | none => d
    | some t =>
      match t.slot with
      | none => d
      | some s =>
        if bn.sbWaits t.sbSrc || d.startsBefore (dieOf b) (nextMod (d.cycle (dieOf b) + 1) 1024 s.phase) then d
        else
          let (go, d1) := d.lsEccAt b s.srcOff (s.srcOff + s.len - 1) 0x42 e
          if !go then d1
          else match d1.slotTarget b s with
            | none => d1
            | some (tb, tc) =>
              let bs := (d1.bench b).lsRead s.srcOff s.len
              let gen := ((d1.bench tb).ctxN tc).gen
              let at0 := nextMod (d1.cycle (dieOf b) + 1) 1024 s.phase
              let d2 := (d1.advanceTo (dieOf b) at0).slotClash (dieOf b) (trainAt b tb ((s.len + 127) / 128) at0)
              let d3 := (cutLines 0 0 s.len 33).foldl (fun d c => d.send
                { kind := .slotChunk, src := .bench b, dst := .bench tb, off := s.dstOff + c.1,
                  data := lineOf ((bs.drop c.1).take c.2), be := beRange 0 c.2, tag := t.id, ctx := tc, gen := gen,
                  v0 := s.dstCnt, v1 := c.2, loc := at0 }) d2
              d3.modBench b fun x => ({ x with tm := x.tm.filter (·.id != t.id) }).sbDone [t.sbSrc]

/-- Write one chunk into the destination context's partition; a poisoned chunk is not written. -/
def Bench.slotLand (bn : Bench) (m : Msg) : Bench :=
  { bn with tile := bn.tile.writeBytes ((bn.ctxN m.ctx).base + m.off) (Line.slice m.data 0 m.v1) }

/-- The chunks of one slot transfer land at bench `b` and the destination counter is incremented, also while the
destination context is switched out (R57, R168); chunks for an earlier generation are dropped (R59), and a
poisoned chunk kills the destination context (R217, R306). -/
def slotTransferLandingEffect (b : Nat) (d : Dev) : Dev :=
  if !d.dieRuns (dieOf b) then d
  else match d.net.find? fun m => m.kind == .slotChunk && m.dst == .bench b with
    | none => d
    | some m0 =>
      let mine (m : Msg) : Bool := m.kind == .slotChunk && m.dst == .bench b && m.src == m0.src && m.tag == m0.tag
      let chunks := d.net.filter mine
      let d1 := { d with net := d.net.filter fun m => !mine m }
      if ((d1.bench b).ctxN m0.ctx).gen != m0.gen || !((d1.bench b).ctxN m0.ctx).valid then d1
      else if chunks.any (·.poison) then
        let good := (chunks.filter (!·.poison)).foldl (fun x m => x.slotLand m) (d1.bench b)
        (d1.setBench b good).kill b m0.ctx 0x3205 0x42 (localAddr m0.off)
      else d1.setBench b ((chunks.foldl (fun x m => x.slotLand m) (d1.bench b)).countUp m0.ctx m0.v0)

/-! ### The commands -/

section
variable (b : BenchIx) (f : Ecc) (s : State)

def execLineFillArrival := s.runLive (lineFillArrivalEffect b)
def execMergeBufferDrainAck := s.runLive (mergeBufferDrainAckEffect b)
def execScoreboardRetire := s.runLive (scoreboardRetireEffect b)
def execTm := s.runLive (tmEffect b f)
def execTileMoverDescriptorStart (e : EccAt) (s : State) := s.runLive (tileMoverDescriptorStartEffect b e)
def execTileMoverResponse := s.runLive (tileMoverResponseEffect b)
def execTileMoverWriteAck := s.runLive (tileMoverWriteAckEffect b)
def execSlot := s.runLive (slotEffect b f)
def execSlotTransferStart (e : EccAt) (s : State) := s.runLive (slotTransferStartEffect b e)
def execSlotTransferLanding := s.runLive (slotTransferLandingEffect b)
end

end Sys2Proof.Machine
end

