-- ==== Sys2Proof/Machine/Mortise.lean ====
section
/-! DEFINITION. The mortise engine: issue into its queue (R65), FOLD, STREAM, SLOAD, GOPEN, GCLOSE and SET at
the head (R66 to R79, R164, R186), cube steps and air cuts (R67 to R69, R76 to R78, R165), dressing (R94, R95)
and the glue-up drain (R101). -/

namespace Sys2Proof.Machine

/-! ### The fold plan (R67 to R69) -/

/-- ⌈x / y⌉. -/
def cdiv (x y : Nat) : Nat := (x + y - 1) / y

/-- K elements that a step of shape `s` covers: KD, MW, NW, KS (R67). -/
def shapeK (kc s : Nat) : Nat := kc * [2, 1, 1, 8].getD s 1
/-- Rows and columns of a block of shape `s` (R69). -/
def shapeRows (s : Nat) : Nat := [16, 32, 16, 4].getD s 4
def shapeCols (s : Nat) : Nat := [16, 16, 32, 16].getD s 16
/-- Element bytes per step (R67). -/
def shapeBytes (s : Nat) : Nat := [256, 192, 192, 640].getD s 640

/-- Steps that a shape needs for an mt × nt tile (R68). -/
def shapeSteps (kc mt nt k s : Nat) : Nat :=
  cdiv mt (shapeRows s) * cdiv nt (shapeCols s) * cdiv k (shapeK kc s)

/-- The shape of a tile: fewest steps, then fewest element bytes, then lowest code (R68). -/
def pickShape (kc mt nt k : Nat) : Nat :=
  [1, 2, 3].foldl (fun best s =>
    let a := shapeSteps kc mt nt k best
    let b := shapeSteps kc mt nt k s
    if b < a ∨ (b = a ∧ b * shapeBytes s < a * shapeBytes best) then s else best) 0

/-- The decoded fields of a FOLD (R186). -/
structure FoldOp where
  m : Nat
  n : Nat
  k : Nat
  fa : Nat
  fb : Nat
  out : Nat
  cont : Bool
  sca : Nat
  scb : Nat
deriving DecidableEq, Repr

def foldOp (w : W64) : FoldOp :=
  { m := 4 * (fld w 11 6 + 1), n := 4 * (fld w 17 12 + 1), k := 4 * (fld w 23 18 + 1), fa := fld w 27 24,
    fb := fld w 31 28, out := fld w 35 32, cont := w.getLsbD 36, sca := fld w 39 37, scb := fld w 42 40 }

/-- Rate group of a product: the slower of the two; FP32 only when both are (R64). -/
def pairGroup (fa fb : Nat) : Nat := max (rateGroup fa) (rateGroup fb)

/-- Rows and columns of tile `t` of a FOLD (R68, R69: row-major, tile column fastest). -/
def FoldOp.tile (f : FoldOp) (t : Nat) : Nat × Nat :=
  let nc := cdiv f.n 32
  (min 32 (f.m - 32 * (t / nc)), min 32 (f.n - 32 * (t % nc)))

def FoldOp.tiles (f : FoldOp) : Nat := cdiv f.m 32 * cdiv f.n 32

/-- The decoded fields of a STREAM (R186). BHALF names the half of a block that the row covers; both halves have
the same scale, so it changes no value (R73). -/
structure StreamOp where
  s : Bool
  rows : Nat
  fa : Nat
  out : Nat
  cont : Bool
  sca : Nat
deriving DecidableEq, Repr

def streamOp (w : W64) : StreamOp :=
  { s := w.getLsbD 6, rows := fld w 22 7, fa := fld w 26 23, out := fld w 30 27, cont := w.getLsbD 31, sca := fld w 35 33 }

/-! ### Engine state -/

def Bench.mort (bn : Bench) (f : Mortise → Mortise) : Bench := { bn with mortise := f bn.mortise }
def Mortise.stat (m : Mortise) (s : Bool) : Stationary := if s then m.s1 else m.s0
def Mortise.setStat (m : Mortise) (s : Bool) (x : Stationary) : Mortise := if s then { m with s1 := x } else { m with s0 := x }
def Mortise.gset (m : Mortise) (b : Bool) : GlueSet := if b then m.setB else m.setA
def Mortise.setGset (m : Mortise) (b : Bool) (x : GlueSet) : Mortise := if b then { m with setB := x } else { m with setA := x }

/-- Set bits of MRT_NUM_FLAGS (R105). -/
def Dev.numFlags (d : Dev) (b fl : Nat) : Dev :=
  if fl = 0 then d else d.orReg .mrtNumFlags [b] (BitVec.ofNat 32 fl)

/-! ### Issue (R65, R73, R179) -/

/-- Byte ranges of a panel: its elements and, for an MX format, its scales (R65, R88). -/
def Panel.spans (p : Panel) : List (Nat × Nat) := if isMx p.fmt then [p.span, p.scaleSpan] else [p.span]

/-- Byte ranges of the panels an instruction reads, each with its own scoreboard entry (R65, R73). -/
def Bench.mortisePanels (bn : Bench) (w : W64) : List (Nat × Nat) :=
  let quad (q : Nat) : List W32 := (List.range 4).map fun i => bn.j (4 * q + i)
  let both (p : Panel) : List (Nat × Nat) :=
    if 10 < p.fmt then [] else p.spans
  match majorOf w with
  | 0x30 =>
    let f := foldOp w
    both (panelOf f.fa (quad (fld w 45 43)) f.m f.k) ++ both (panelOf f.fb (quad (fld w 48 46)) f.n f.k)
  | 0x31 =>
    let f := streamOp w
    let ks := ((if f.s then bn.mortise.ks1 else bn.mortise.ks0).getD (if f.fa = 0 then 32 else 16))
    both (panelOf f.fa (quad (fld w 38 36)) f.rows ks)
  | 0x32 => both (panelOf (fld w 10 7) (quad (fld w 22 20)) (4 * (fld w 13 11 + 1)) (4 * (fld w 16 14 + 1)))
  | _ => []

/-- The jig core issues a mortise instruction into the four-entry queue, reading its registers and entering its
panels in the scoreboard; it stalls while either is full (R65, R179). R279 leaves the panels' entry point to R65, which puts it at
issue, and R73 forms a STREAM's entry from what the jig core had issued before it (DEDUCED, log 16). -/
def jigIssueMortiseEffect (b : Nat) (f : Ecc) (d : Dev) : Dev :=
  d.jigIssue b f (fun w => decide (0x30 ≤ majorOf w) && decide (majorOf w < 0x38)) fun w d' =>
    let bn := d'.bench b
    let ps := bn.mortisePanels w
    if 4 ≤ bn.mortise.queue.length ∨ !bn.sbRoom ps.length then none
    else
      let quad (q : Nat) : List W32 := (List.range 4).map fun i => bn.j (4 * q + i)
      let (ids, bn1) := bn.sbEnterAll (ps.map fun p => { dev := false, first := p.1, last := p.2, wr := false, l1 := false })
      let qa := match majorOf w with
        | 0x30 => quad (fld w 45 43)
        | 0x31 => quad (fld w 38 36)
        | _ => []
      let qb := match majorOf w with
        | 0x30 => quad (fld w 48 46)
        | 0x32 => quad (fld w 22 20)
        | _ => []
      let ks := if majorOf w = 0x32 then some (4 * (fld w 16 14 + 1)) else none
      some ((d'.setBench b ((bn1.pcNext 8).mort fun m =>
        { m with
          queue := m.queue ++ [{ word := w, quadA := qa, quadB := qb, rs := bn.j (fld w 17 13), sbs := ids }]
          ks0 := if ks.isSome && !w.getLsbD 6 then ks else m.ks0
          ks1 := if ks.isSome && w.getLsbD 6 then ks else m.ks1 })).sbNote b)

/-! ### At the head -/

/-- The queue's front instruction, when the engine has none at the head and no region is open (R65, R79). -/
def Bench.mFront (bn : Bench) (major : Nat) : Option MOp :=
  if !bn.running || bn.mortise.head.isSome || bn.mortise.region.isSome then none
  else match bn.mortise.queue with
    | o :: _ => if majorOf o.word = major then some o else none
    | [] => none

/-- The bench address of the first operand panel (R84). -/
def quadAddr (q : List W32) : Nat := localAddr (q.getD 0 0).toNat

/-- The cause that an operand quad raises at the head (R43, R187). -/
def quadBad (usable : Nat) (p : Panel) (q : List W32) : Option (Nat × Nat) :=
  let hi (i : Nat) : Nat := (q.getD i 0).toNat / 2 ^ 20
  if hi 0 ≠ 0 then some (0x1102, localAddr (q.getD 0 0).toNat)
  else if isMx p.fmt ∧ hi 2 ≠ 0 then some (0x1102, localAddr (q.getD 2 0).toNat)
  else if usable ≤ p.span.2 then some (0x1101, localAddr p.base)
  else if isMx p.fmt ∧ usable ≤ p.scaleSpan.2 then some (0x1101, localAddr p.sbase)
  else none

/-- σ: the product of the scale slots of plain-FP8 operands, in FP32 (R96). -/
def sigmaOf (c : BenchCtx) (fa sca fb scb : Nat) : W32 :=
  let x (f s : Nat) : W32 := if isPlain8 f then c.scale.toList.getD s 0 else 0x3F800000
  if isPlain8 fa ∧ isPlain8 fb then BitVec.ofNat 32 (f32Mul (x fa sca).toNat (x fb scb).toNat)
  else if isPlain8 fa then x fa sca else x fb scb

/-- Start a FOLD or STREAM at the head: the sequence count rises and σ is captured (R74, R96). -/
def Bench.mStart (bn : Bench) (sigma : W32) : Bench :=
  let q := (bn.ctx.seq + 1) % 64
  (bn.modCtx bn.runCtx fun c => { c with seq := q }).mort fun m =>
    { m with head := some { seq := q, sigma := sigma, tile := 0, block := 0, slice := 0, pass := 0, since := 0 } }

/-- The format codes a FOLD accepts (R64, R99). -/
def foldFmtOk (f : FoldOp) : Bool :=
  decide (f.fa ≤ 10) && decide (f.fb ≤ 10) && ((f.fa == 10) == (f.fb == 10)) && decide (f.out % 8 < 6)

/-- The CONT rules of a FOLD (R70). -/
def foldContOk (c : BenchCtx) (f : FoldOp) : Bool :=
  !(c.chain && c.chainStream) && !(f.cont && (decide (32 < f.m) || decide (32 < f.n))) &&
    !(c.chain && !f.cont && (f.m != c.chainM || f.n != c.chainN))

def foldEffect (b : Nat) (d : Dev) : Dev :=
  let bn := d.bench b
  if !d.dieRuns (dieOf b) then d
  else match bn.mFront 0x30 with
    | none => d
    | some o =>
      let f := foldOp o.word
      let a := quadAddr o.quadA
      if !foldFmtOk f then d.killRun b 0x1201 0x20 a
      else if !foldContOk bn.ctx f then d.killRun b 0x1202 0x20 a
      else match quadBad bn.ctx.usable (panelOf f.fa o.quadA f.m f.k) o.quadA,
                 quadBad bn.ctx.usable (panelOf f.fb o.quadB f.n f.k) o.quadB with
        | some (c, x), _ => d.killRun b c 0x20 x
        | none, some (c, x) => d.killRun b c 0x20 x
        | none, none => d.modBench b (·.mStart (sigmaOf bn.ctx f.fa f.sca f.fb f.scb))

/-- The chain rules of a STREAM (R73). -/
def streamContOk (c : BenchCtx) (f : StreamOp) (ns : Nat) : Bool :=
  !((f.cont || c.chain) && (decide (32 < f.rows) || (c.chain && ns != c.chainN)))

def streamEffect (b : Nat) (d : Dev) : Dev :=
  let bn := d.bench b
  if !d.dieRuns (dieOf b) then d
  else match bn.mFront 0x31 with
    | none => d
    | some o =>
      let f := streamOp o.word
      let a := quadAddr o.quadA
      let st := bn.mortise.stat f.s
      if 9 < f.fa ∨ 6 ≤ f.out % 8 then d.killRun b 0x1201 0x20 a
      else if bn.ctx.chain && !bn.ctx.chainStream then d.killRun b 0x1202 0x20 a
      else if !st.valid || rateGroup f.fa != rateGroup st.fmt || !streamContOk bn.ctx f st.ns then d.killRun b 0x1203 0x20 a
      else match quadBad bn.ctx.usable (panelOf f.fa o.quadA f.rows st.ks) o.quadA with
        | some (c, x) => d.killRun b c 0x20 x
        | none => d.modBench b (·.mStart (sigmaOf bn.ctx f.fa f.sca st.fmt st.scb))

/-- Does an instruction name stationary register `s`? -/
def namesStat (w : W64) (s : Bool) : Bool := (majorOf w == 0x31 || majorOf w == 0x32) && w.getLsbD 6 == s

/-- The SLOAD that may leave the queue: the first whose register no earlier queued or running instruction names,
a load of the register still under way included (R72). -/
def firstSload (m : Mortise) : List MOp → List MOp → Option MOp
  | _, [] => none
  | before, o :: rest =>
    let s := o.word.getLsbD 6
    if majorOf o.word = 0x32 ∧ !before.any (fun x => namesStat x.word s) ∧ (m.stat s).load.isNone then some o
    else firstSload m (before ++ [o]) rest

/-- SLOAD leaves the queue: the register is named with its format and extents and its load begins (R71, R72, R186). -/
def sloadEffect (b : Nat) (d : Dev) : Dev :=
  let bn := d.bench b
  if !d.dieRuns (dieOf b) || !bn.running then d
  else match firstSload bn.mortise [] bn.mortise.queue with
    | none => d
    | some o =>
      let w := o.word
      let fb := fld w 10 7
      let ns := 4 * (fld w 13 11 + 1)
      let ks := 4 * (fld w 16 14 + 1)
      let a := quadAddr o.quadB
      if 9 < fb then d.killRun b 0x1201 0x21 a
      else if 16 < ks ∧ fb ≠ 0 then d.killRun b 0x1202 0x21 a
      else match quadBad bn.ctx.usable (panelOf fb o.quadB ns ks) o.quadB with
        | some (c, x) => d.killRun b c 0x21 x
        | none => d.modBench b fun x => x.mort fun m =>
          ({ m with queue := m.queue.erase o }).setStat (w.getLsbD 6)
            { valid := true, ready := false, fmt := fb, ks := ks, ns := ns, scb := fld w 19 17, elems := [], scales := [],
              load := some (o.quadB, o.sbs) }

/-- The running context's local store as the engine reads it. -/
def Bench.rd (bn : Bench) (o : Nat) : Byte := bn.tile.read (bn.ctx.base + o)

/-- A stationary register whose load is under way and whose panels wait for no older access becomes ready, holding
its columns' raw elements and scales (R52, R71). -/
def stationaryReadyEffect (b : Nat) (e : EccAt) (d : Dev) : Dev :=
  let bn := d.bench b
  if !d.dieRuns (dieOf b) || !bn.running then d
  else
    let ok (s : Bool) : Bool := match (bn.mortise.stat s).load with
      | some (_, ids) => !ids.any fun i => bn.sbWaits i
      | none => false
    match [false, true].find? ok with
    | none => d
    | some s =>
      let st := bn.mortise.stat s
      match st.load with
      | none => d
      | some (q, ids) =>
        let p := panelOf st.fmt q st.ns st.ks
        let (go, d1) := d.lsEccIn b p.spans 0x21 e
        if !go then d1
        else
          let elems := (List.range st.ns).flatMap fun c =>
            (List.range st.ks).map fun k => elemRaw bn.rd st.fmt (p.base + c * p.stride) k
          let scales := if isMx st.fmt then (List.range st.ns).map fun c => (bn.rd (p.sbase + c * p.sstride)).toNat else []
          d1.modBench b fun x => (x.mort fun m =>
            m.setStat s { st with ready := true, elems := elems, scales := scales, load := none }).sbDone ids

/-- The next glue-up set, if it is idle: it is cleared and filling, and the other set is next (R74, R102). -/
def Bench.takeSet (bn : Bench) (out seq vrows vcols : Nat) (last : Bool) : Option (Bool × Bench) :=
  let s := bn.ctx.nextSet
  if (bn.mortise.gset s).phase = .idle then
    some (s, (bn.modCtx bn.runCtx fun c => { c with nextSet := !s }).mort fun m =>
      m.setGset s { phase := .filling, data := 0, out := out, seq := seq, last := last, vrows := vrows, vcols := vcols })
  else none

/-- GOPEN reaches the head: the next set is cleared and taken and the region opens (R79, R82, R164); a dressing still waiting for a set
takes the next one before it (R74). DESIGN CHOICE (log 74): an A format that R80 allows with a B format of another rate group or FP32 raises
0x1201, and A = FP32 with another B format, which breaks R64 and R82, raises 0x1204. -/
def gopenEffect (b : Nat) (d : Dev) : Dev :=
  let bn := d.bench b
  if !d.dieRuns (dieOf b) then d
  else if bn.mortise.due.isSome then d
  else match bn.mFront 0x33 with
    | none => d
    | some o =>
      let w := o.word
      let fa := fld w 15 12
      let fb := fld w 19 16
      let out := fld w 23 20
      if 10 < fa ∨ 10 < fb ∨ 6 ≤ out % 8 then d.killRun b 0x1201 0x20 0
      else if bn.ctx.chain then d.killRun b 0x1202 0x20 0
      else if fa < 6 ∨ fa = 10 then d.killRun b 0x1204 0x20 0
      else if rateGroup fb ≠ rateGroup fa then d.killRun b 0x1201 0x20 0
      else
        let q := (bn.ctx.seq + 1) % 64
        match bn.takeSet out q 32 32 true with
        | none => d
        | some (s, bn1) => d.setBench b ((bn1.modCtx bn.runCtx fun c => { c with seq := q }).mort fun m =>
          { m with queue := m.queue.drop 1, region := some (fld w 11 6), regionFmt := fa + 16 * fb + 256 * out,
                   regionSeq := q, regionSet := some s })

/-- A group-wide product that the plane engine has issued is not complete. -/
def Bench.gmmaPends (bn : Bench) : List PlPend := bn.plane.pends.filter fun p => majorOf p.iss.word == 0x3D

/-- GCLOSE reaches the head: the region closes, once the products issued in it are complete; a tile that no GMMA with FIN drained is
dropped with its set (R79, R164). -/
def gcloseEffect (b : Nat) (d : Dev) : Dev :=
  let bn := d.bench b
  if !d.dieRuns (dieOf b) || !bn.running || bn.mortise.head.isSome || !bn.gmmaPends.isEmpty then d
  else match bn.mortise.queue with
    | [] => d
    | o :: _ =>
      if majorOf o.word ≠ 0x34 then d
      else d.modBench b fun x => x.mort fun m =>
        let m1 := match m.regionSet with
          | some s => m.setGset s {}
          | none => m
        { m1 with queue := m.queue.drop 1, region := none, regionSet := none }

/-- A SET instruction of the given kind at the head (R186). -/
def Bench.setFront (bn : Bench) (sub : Nat) : Option MOp :=
  match bn.mFront 0x35 with
  | some o => if fld o.word 9 6 = sub then some o else none
  | none => none

def Bench.mPop (bn : Bench) : Bench := bn.mort fun m => { m with queue := m.queue.drop 1 }

def scsetEffect (b : Nat) (d : Dev) : Dev :=
  if !d.dieRuns (dieOf b) then d
  else match (d.bench b).setFront 0 with
    | none => d
    | some o => d.modBench b fun x =>
      (x.modCtx x.runCtx fun c => { c with scale := c.scale.setIfInBounds (fld o.word 12 10) o.rs }).mPop

/-- SRSEED replaces the seed and resets the tile counter (R104, R164). -/
def srseedEffect (b : Nat) (d : Dev) : Dev :=
  if !d.dieRuns (dieOf b) then d
  else match (d.bench b).setFront 1 with
    | none => d
    | some o => d.modBench b fun x => (x.modCtx x.runCtx fun c => { c with srSeed := o.rs, srTile := 0 }).mPop

/-- AIR sets the air-cut mode; FORBID stops a fill or taper at once, and the gap counts on under HOLD (R77). -/
def airEffect (b : Nat) (d : Dev) : Dev :=
  if !d.dieRuns (dieOf b) then d
  else match (d.bench b).setFront 2 with
    | none => d
    | some o => d.modBench b fun x => (x.mort fun m =>
      { m with air := fld o.word 11 10, gap := if fld o.word 11 10 = 1 then none else m.gap }).mPop

/-! ### Steps -/

/-- The rough-sum key of alignment row `row` (4 × layer + cube row) and element (i, j) of the block. -/
def roughKey (row i j : Nat) : Nat := row * 1024 + i * 32 + j

/-- What one alignment row does in a step: its number, the block rows and columns of its elements, and the
K range of their products, relative to the step's first K element (R67, R71). -/
structure RowWork where
  row : Nat
  i0 : Nat
  j0 : Nat
  cols : Nat
  k0 : Nat
  kn : Nat
deriving DecidableEq, Repr

/-- The alignment rows of a step of each shape (R67). -/
def shapeWork (kc s : Nat) : List RowWork :=
  (List.range 2).flatMap fun l => match s with
    | 0 => (List.range 4).map fun r => ⟨4 * l + r, 4 * r, 0, 16, l * kc, kc⟩
    | 1 => (List.range 4).map fun r => ⟨4 * l + r, 16 * l + 4 * r, 0, 16, 0, kc⟩
    | 2 => (List.range 4).map fun r => ⟨4 * l + r, 4 * r, 16 * l, 16, 0, kc⟩
    | _ => [⟨4 * l + 3, 0, 0, 16, l * (4 * kc), 4 * kc⟩]

/-- The alignment rows of a stream step: layer l takes columns 16l to 16l + 15, all K elements meet in one chain (R71). -/
def streamWork (ks : Nat) : List RowWork := (List.range 2).map fun l => ⟨4 * l + 3, 0, 16 * l, 16, 0, ks⟩

/-- The alignment rows of a step of a group-wide product: KD shape, with one rough sum per element that both layers' products enter (R80,
R91; log 22). -/
def gmmaWork : List RowWork := (List.range 4).map fun r => ⟨r, 4 * r, 0, 16, 0, 8⟩

/-- Run the alignment rows of one step: `a i k` and `c j k` are the operands by block row and column. -/
def runWork (m : Mortise) (h : Int) (g pass : Nat) (ws : List RowWork) (a c : Nat → Nat → Fv) : Mortise :=
  ws.foldl (fun m w =>
    let ps := (List.range 4).flatMap fun di => (List.range w.cols).map fun dj =>
      let i := w.i0 + di
      let j := w.j0 + dj
      (roughKey w.row i j, (List.range w.kn).map fun dk => pairProd g pass (a i (w.k0 + dk)) (c j (w.k0 + dk)))
    alignRow m w.row h ps) m

/-- Headroom H (R91). -/
def foldHeadroom (g s : Nat) : Int :=
  if g = 3 then (if s = 3 then 5 else 3)
  else if s = 3 then (if g = 0 then 9 else 7)
  else if g = 0 then 7 else 5

/-- The elements of a block that lie in the tile's first `nr` rows and `nc` columns, and the rough sums each is dressed with, layer 0 first
(R94); the padding beyond them stays zero and raises no flag (R74, R101). -/
def blockElems (m : Mortise) (ws : List RowWork) (ti tj nr nc : Nat) : List (Nat × List (Rough × Int)) :=
  let keys := ws.flatMap fun w => (List.range 4).flatMap fun di => (List.range w.cols).map fun dj =>
    (32 * (ti + w.i0 + di) + tj + w.j0 + dj, w.row, roughKey w.row (w.i0 + di) (w.j0 + dj))
  let nums := ((keys.map (·.1)).filter fun n => decide (n / 32 < nr) && decide (n % 32 < nc)).dedup
  nums.map fun n => (n, (keys.filter (·.1 == n)).map fun k => (m.rough.getD k.2.2 ⟨0, .none⟩, m.rowE.getD k.2.1 0))

/-- The present tile's shape and dimensions, and the block's first row and column within the tile. -/
def FoldOp.here (f : FoldOp) (h : MHead) : Nat × Nat × Nat × Nat × Nat :=
  let kc := kcOf (pairGroup f.fa f.fb)
  let (mt, nt) := f.tile h.tile
  let s := pickShape kc mt nt f.k
  let nb := cdiv nt (shapeCols s)
  (s, mt, nt, shapeRows s * (h.block / nb), shapeCols s * (h.block % nb))

/-- Run the products of one step of a FOLD (R67 to R69, R91, R92). -/
def foldRun (bn : Bench) (o : MOp) (h : MHead) : Mortise :=
  let f := foldOp o.word
  let g := pairGroup f.fa f.fb
  let (s, mt, nt, bi, bj) := f.here h
  let nc := cdiv f.n 32
  let r0 := 32 * (h.tile / nc) + bi
  let c0 := 32 * (h.tile % nc) + bj
  let kk := h.slice * shapeK (kcOf g) s
  let pa := panelOf f.fa o.quadA f.m f.k
  let pb := panelOf f.fb o.quadB f.n f.k
  let zero : Fv := .fin false 0 0
  runWork bn.mortise (foldHeadroom g s) g h.pass (shapeWork (kcOf g) s)
    (fun i k => if mt ≤ bi + i then zero else pa.elem bn.rd (r0 + i) (kk + k))
    (fun j k => if nt ≤ bj + j then zero else pb.elem bn.rd (c0 + j) (kk + k))

/-- Element k of column j of a stationary register, scaled. -/
def Stationary.elem (st : Stationary) (j k : Nat) : Fv :=
  if st.ns ≤ j ∨ st.ks ≤ k then .fin false 0 0
  else
    let v := elemVal st.fmt (st.elems.getD (j * st.ks + k) 0)
    if isMx st.fmt then scaleBy (st.scales.getD j 0) v else v

/-- Run the products of one step of a STREAM: four rows (R73). -/
def streamRun (bn : Bench) (o : MOp) (h : MHead) : Mortise :=
  let f := streamOp o.word
  let st := bn.mortise.stat f.s
  let g := rateGroup f.fa
  let pa := panelOf f.fa o.quadA f.rows st.ks
  runWork bn.mortise (if g = 0 then 6 else 5) g 0 (streamWork (4 * kcOf g))
    (fun i k => pa.elem bn.rd (32 * h.tile + 4 * h.slice + i) k) (fun j k => st.elem j k)

/-- Where the head stands after a step: whether a dressing is due and whether the tile ends with it, and the next step; none after the
instruction's last (R69, R73, R94). -/
structure HeadNext where
  due : Bool
  tileDone : Bool
  head : Option MHead
deriving DecidableEq, Repr

def streamNext (f : StreamOp) (h : MHead) : HeadNext :=
  let nr := min 32 (f.rows - 32 * h.tile)
  if h.slice + 1 < cdiv nr 4 then ⟨true, false, some { h with slice := h.slice + 1 }⟩
  else if h.tile + 1 < cdiv f.rows 32 then ⟨true, true, some { h with tile := h.tile + 1, slice := 0 }⟩
  else ⟨true, true, none⟩

def foldNext (f : FoldOp) (h : MHead) : HeadNext :=
  let g := pairGroup f.fa f.fb
  let (s, mt, nt, _, _) := f.here h
  let steps := cdiv f.k (shapeK (kcOf g) s)
  if g = 3 ∧ h.pass + 1 < 6 then ⟨true, false, some { h with pass := h.pass + 1, since := 0 }⟩
  else if h.slice + 1 < steps then
    let due := g == 3 || h.since + 1 == dressEvery g
    ⟨due, false, some { h with pass := 0, slice := h.slice + 1, since := if due then 0 else h.since + 1 }⟩
  else
    let h1 : MHead := { h with pass := 0, slice := 0, since := 0 }
    if h.block + 1 < cdiv mt (shapeRows s) * cdiv nt (shapeCols s) then ⟨true, false, some { h1 with block := h.block + 1 }⟩
    else if h.tile + 1 < f.tiles then ⟨true, true, some { h1 with block := 0, tile := h.tile + 1 }⟩
    else ⟨true, true, none⟩

def headNext (o : MOp) (h : MHead) : HeadNext :=
  if majorOf o.word = 0x31 then streamNext (streamOp o.word) h else foldNext (foldOp o.word) h

def Bench.tileInfo (bn : Bench) (o : MOp) (h : MHead) : TileInfo :=
  if majorOf o.word = 0x31 then
    let f := streamOp o.word
    let st := bn.mortise.stat f.s
    let nr := min 32 (f.rows - 32 * h.tile)
    ⟨bn.ctx.chain, f.out, if bn.ctx.chain then max bn.ctx.chainM nr else nr, st.ns, h.tile + 1 == cdiv f.rows 32, f.cont⟩
  else
    let f := foldOp o.word
    let (mt, nt) := f.tile h.tile
    ⟨bn.ctx.chain, f.out, mt, nt, h.tile + 1 == f.tiles, f.cont⟩

/-- The elements that a dressing of the step at `h` covers, with the rough sums as they stand. -/
def Mortise.dressList (m : Mortise) (o : MOp) (h : MHead) : List (Nat × List (Rough × Int)) :=
  if majorOf o.word = 0x31 then
    let f := streamOp o.word
    blockElems m (streamWork (4 * kcOf (rateGroup f.fa))) (4 * h.slice) 0 (min 32 (f.rows - 32 * h.tile)) (m.stat f.s).ns
  else
    let f := foldOp o.word
    let (s, mt, nt, bi, bj) := f.here h
    blockElems m (shapeWork (kcOf (pairGroup f.fa f.fb)) s) bi bj mt nt

/-- The chain that an instruction leaves open or ends (R70, R73). -/
def BenchCtx.chained (c : BenchCtx) (t : TileInfo) (stream : Bool) : BenchCtx :=
  if t.cont then
    { c with
      chain := true, chainStream := stream
      chainM := if c.chain && !stream then c.chainM else t.vrows
      chainN := if c.chain then c.chainN else t.vcols }
  else { c with chain := false, chainStream := false, chainM := 0, chainN := 0 }

/-- The step of the head: its products, the dressing that becomes due with it, and the next step. With its last step the instruction
leaves the queue, its panels have been staged and its chain is open or ended (R65, R67 to R70, R73, R94). -/
def Bench.mStep (bn : Bench) (o : MOp) (h : MHead) : Bench :=
  let m := if majorOf o.word = 0x31 then streamRun bn o h else foldRun bn o h
  let n := headNext o h
  let t := bn.tileInfo o h
  let due : MDress := { elems := m.dressList o h, sigma := h.sigma, tile := t, seq := h.seq, tileDone := n.tileDone }
  let bn1 := bn.mort fun _ =>
    { m with
      head := n.head, gap := some 0
      due := if n.due then some due else none
      rough := if n.due then ⟨[]⟩ else m.rough
      rowE := if n.due then ⟨[]⟩ else m.rowE
      queue := if n.head.isNone then m.queue.drop 1 else m.queue }
  if n.head.isNone then (bn1.sbDone o.sbs).modCtx bn.runCtx fun c => c.chained t (majorOf o.word == 0x31) else bn1

/-- An air cut in an empty cycle, if the mode gives one there (R76, R77); the taper takes the first cycles of each four. Every empty cycle
counts for the gap; a fill or taper that is over, or that FORBID has stopped, does not begin again before the next real step. -/
def Dev.airCut (d : Dev) (b : Nat) : Dev :=
  let bn := d.bench b
  let fill := d.regFld .mrtAirCfg [b] 5 0
  let taper := d.regBit .mrtAirCfg [b] 8
  let n := bn.mortise.gap.getD (fill + 48)
  let yes := decide (n < fill) || (taper && decide (n < fill + 48) && decide ((n - fill) % 4 < 3 - (n - fill) / 16))
  let d1 := d.modBench b fun x => x.mort fun m => { m with gap := m.gap.map (· + 1) }
  match bn.mortise.air with
  | 2 => d1.count .mrtAircuts [b] 31 0
  | 1 => d1
  | _ => if yes then d1.count .mrtAircuts [b] 31 0 else d1

/-- Whether the feed-rate limiter lets the cubes work in the die's present cycle (R78, R165). -/
def Dev.cycleAllowed (d : Dev) (b : Nat) : Bool :=
  let die := dieOf b
  let c := d.cycle die % 4
  let level := match d.pwr.limOld.find? die with
    | some (from4, old) => if d.cycle die < from4 then old else d.regFld .pwrDieLim [die] 1 0
    | none => d.regFld .pwrDieLim [die] 1 0
  match level with
  | 0 => true
  | 1 => decide (c < 3)
  | 2 => c % 2 == 0
  | _ => c == 0

/-- The head can step: no dressing is due, its panels wait for no older access, and its stationary register is ready. -/
def Bench.stepReady (bn : Bench) : Option (MOp × MHead) :=
  match bn.mortise.head, bn.mortise.queue with
  | some h, o :: _ =>
    if bn.mortise.due.isSome || (o.sbs.any fun i => bn.sbWaits i) then none
    else if majorOf o.word = 0x31 ∧ !(bn.mortise.stat (streamOp o.word).s).ready then none
    else some (o, h)
  | _, _ => none

/-- One cube cycle: the step of the head if it can run, otherwise an air cut under the mode in force (R65, R76).
A parity or double-bit error in what the step reads kills the context (R42, R84). -/
def mortiseStepEffect (b : Nat) (e : EccAt) (stg stn : Option Nat) (d : Dev) : Dev :=
  let bn := d.bench b
  if !d.dieRuns (dieOf b) || !d.cycleAllowed b then d
  else if !bn.running then d.airCut b
  else match bn.stepReady with
    | none => d.airCut b
    | some (o, h) =>
      let isStream := majorOf o.word == 0x31
      match stg, (if isStream then stn else none) with
      | some x, _ => d.killRun b 0x2202 0x20 x
      | none, some x => d.killRun b 0x2201 0x20 x
      | none, none =>
        let sp := if isStream then (panelOf (streamOp o.word).fa o.quadA (streamOp o.word).rows
              (bn.mortise.stat (streamOp o.word).s).ks).spans
          else
            let f := foldOp o.word
            (panelOf f.fa o.quadA f.m f.k).spans ++ (panelOf f.fb o.quadB f.n f.k).spans
        let (go, d1) := d.lsEccIn b sp 0x20 e
        if !go then d1
        else (d1.modBench b fun x => x.mStep o h).count .mrtSteps [b] 31 0

/-! ### Dressing -/

/-- The set that the waiting dressing writes: the one its tile has taken, the chain's, or the next, if that is idle (R74). -/
def Bench.dressSet (bn : Bench) (x : MDress) : Option (Bool × Bench) :=
  match bn.mortise.tileSet with
  | some s => some (s, bn)
  | none =>
    if x.tile.chained then
      (if bn.mortise.setA.phase = .chained then some (false, bn)
       else if bn.mortise.setB.phase = .chained then some (true, bn) else none)
    else bn.takeSet x.tile.out x.seq x.tile.vrows x.tile.vcols x.tile.last

/-- A glue-up parity error: MRT_GLU_ERR, cause 0x2203 and the kill, which clears the set (R112). -/
def Dev.gluePe (d : Dev) (b : Nat) (s : Bool) (off : Nat) : Dev :=
  (d.setRegBit .mrtGluErr [b] (b2n s)).killRun b 0x2203 0x22 (0x2000 * b2n s + off % 0x2000)

/-- The waiting dressing is written into set `s`; at the end of its tile the set stays live as the chain's, with CONT, or waits to drain
(R70, R74, R95). -/
def Bench.dressed (bn : Bench) (x : MDress) (s : Bool) (g : GData) : Bench :=
  let t := x.tile
  bn.mort fun m =>
    let y : GlueSet := { m.gset s with data := g }
    { m.setGset s (if x.tileDone then
        { y with
          phase := if t.cont then .chained else .drain, out := t.out, seq := x.seq, last := t.last, vrows := t.vrows,
          vcols := t.vcols } else y) with
      due := none, tileSet := if x.tileDone then none else some s }

/-- The due dressing is written once its set may take it (R74, R94, R95); a parity error in the set kills (R112). -/
def dressingEffect (b : Nat) (pe : Option Nat) (d : Dev) : Dev :=
  let bn := d.bench b
  if !d.dieRuns (dieOf b) || !bn.running then d
  else match bn.mortise.due with
    | none => d
    | some x => match bn.dressSet x with
      | none => d
      | some (s, bn1) => match pe with
        | some off => d.gluePe b s off
        | none =>
          let (g, fl) := dressAll (bn1.mortise.gset s).data x.elems x.sigma.toNat
          (d.setBench b (bn1.dressed x s g)).numFlags b fl

/-! ### The drain -/

/-- The set that drains next: of two that wait, the older, which is the one the next tile would take. -/
def Bench.drainSet (bn : Bench) : Option Bool :=
  let w (s : Bool) : Bool := (bn.mortise.gset s).phase == .drain
  let n := bn.ctx.nextSet
  if w n then some n else if w !n then some !n else none

/-- The tag of a tile (R129). -/
def tileTag (g : GlueSet) : W32 :=
  BitVec.ofNat 32 (g.vrows + g.vcols <<< 8 + g.seq <<< 16 + g.out <<< 24 + b2n g.last <<< 31)

/-- A waiting set drains once an outfeed entry is free: the tile, converted, reaches the tail with its tag, the
context's tile counter rises, and the set is free (R74, R100, R101, R104). -/
def glueUpDrainEffect (b : Nat) (pe : Option Nat) (d : Dev) : Dev :=
  let bn := d.bench b
  if !d.dieRuns (dieOf b) || !bn.running || decide (8 ≤ bn.outfeed.length) then d
  else match bn.drainSet with
    | none => d
    | some s => match pe with
      | some off => d.gluePe b s off
      | none =>
        let g := bn.mortise.gset s
        let (t, fl) := drainTile g bn.ctx.srSeed b bn.ctx.srTile
        let bn1 : Bench := { bn with outfeed := bn.outfeed ++ [{ data := t, tag := tileTag g }] }
        (d.setBench b ((bn1.mort fun m => m.setGset s {}).modCtx bn.runCtx fun c =>
          { c with srTile := c.srTile + 1 })).numFlags b fl

/-! ### Group-wide products (R79 to R82) -/

/-- The set of the region's present tile: the one it holds, or after FIN the next, if that is idle (R79, R80). -/
def Bench.regionTake (bn : Bench) : Option (Bool × Bench) :=
  match bn.mortise.regionSet with
  | some s => some (s, bn)
  | none => bn.takeSet (bn.mortise.regionFmt / 256) bn.mortise.regionSeq 32 32 true

/-- Bytes between the columns of a GMMA's B panel, which are packed one after another, and the offset that the engine takes for its
base (R80, R87). -/
def Mortise.gmmaStride (m : Mortise) : Nat := (if isPlain8 (m.regionFmt % 16) then 16 else 8) * elemBits (m.regionFmt / 16 % 16) / 8
def Mortise.gmmaBase (m : Mortise) (o : Nat) : Nat := (panelOf (m.regionFmt / 16 % 16) [BitVec.ofNat 32 o] 16 16).base

/-- Steps of a GMMA (R80). -/
def Mortise.gmmaSteps (m : Mortise) : Nat := if isPlain8 (m.regionFmt % 16) then 2 else 1

/-- A GMMA of the region's group on set `s`: `a t` is thread t's A register, `o` the offset of the B panel of 16 columns, `q` the
quadrant. It adds the product into the region's tile, and with `fin` lets the set drain (R80, R91, R94). -/
def Bench.gmma (bn : Bench) (s : Bool) (a : Nat → W32) (o q : Nat) (fin : Bool) : Bench × Nat :=
  let fa := bn.mortise.regionFmt % 16
  let fb := bn.mortise.regionFmt / 16 % 16
  let per := if isPlain8 fa then 4 else 2
  let av (i k : Nat) : Fv :=
    let r := (a (4 * i + k / per)).toNat
    elemVal fa (nfld r ((k % per + 1) * elemBits fa - 1) (k % per * elemBits fa))
  let bv (j k : Nat) : Fv := elemVal fb (elemRaw bn.rd fb (bn.mortise.gmmaBase o + j * bn.mortise.gmmaStride) k)
  let h : Int := if isPlain8 fa then 4 else 3
  let m0 : Mortise := { bn.mortise with rough := ⟨[]⟩, rowE := ⟨[]⟩ }
  let m1 := (List.range bn.mortise.gmmaSteps).foldl (fun m st =>
    runWork m h (rateGroup fa) 0 gmmaWork (fun i k => av i (8 * st + k)) (fun j k => bv j (8 * st + k))) m0
  let (g, fl) := dressAll (m1.gset s).data (blockElems m1 gmmaWork (16 * (q / 2)) (16 * (q % 2)) 32 32) 0x3F800000
  let m2 := m1.setGset s { m1.gset s with data := g, phase := if fin then .drain else .filling }
  ({ bn with mortise := { m2 with
      rough := ⟨[]⟩
      rowE := ⟨[]⟩
      gap := some 0
      regionSet := if fin then none else some s } }, fl)

/-! ### The commands -/

section
variable (b : BenchIx) (s : State)

def execJigIssueMortise (f : Ecc) (s : State) := s.runLive (jigIssueMortiseEffect b f)
def execFold := s.runLive (foldEffect b)
def execStream := s.runLive (streamEffect b)
def execSload := s.runLive (sloadEffect b)
def execStationaryReady (e : EccAt) (s : State) := s.runLive (stationaryReadyEffect b e)
def execGopen := s.runLive (gopenEffect b)
def execGclose := s.runLive (gcloseEffect b)
def execScset := s.runLive (scsetEffect b)
def execSrseed := s.runLive (srseedEffect b)
def execAir := s.runLive (airEffect b)
def execMortiseStep (e : EccAt) (stg stn : Option Nat) (s : State) := s.runLive (mortiseStepEffect b e stg stn)
def execDressing (pe : Option Nat) (s : State) := s.runLive (dressingEffect b pe)
def execGlueUpDrain (pe : Option Nat) (s : State) := s.runLive (glueUpDrainEffect b pe)
end

end Sys2Proof.Machine
end

