-- ==== Sys2Proof/Machine/Threads.lean ====
section
/-! DEFINITION. Thread groups: launching, parking, activating and retiring them (R134 to R139), their branches, EXIT,
barrier, fences and LI (R146, R147, R195), atomics (R145) and group-wide products (R80, R81, R149). -/

namespace Sys2Proof.Machine

/-! ### Launch (R135) -/

/-- A group at its launch (R135). -/
def newGroup (num entry : Nat) : TGroup :=
  { num := num, pcs := List.replicate 64 entry, ages := List.replicate 64 0, exited := 0, arrived := 0, clampWait := 0 }

/-- The registers of a launched group: u0 thread numbers, u1 the group number, u2 the argument, the rest zero (R135). -/
def launchRegs (num : Nat) (arg : W32) : List VReg :=
  let all (f : Nat → Nat) : VReg := BitVec.ofNat 2048 (packLanes 32 ((List.range 64).map f))
  [all id, all fun _ => num, all fun _ => arg.toNat] ++ List.replicate 29 0

/-! ### Where a group is once the queued moves are done (R138) -/

/-- The group that occupies a slot after the moves already issued. -/
def Bench.slotAfter (bn : Bench) (s : Nat) : Option Nat :=
  match (bn.moves.filter (·.slot == s)).getLast? with
  | some m => if m.park then none else some m.group
  | none => (bn.group s).map (·.num)

/-- Group `g` of the running context holds no slot after the moves already issued. -/
def Bench.pendingAfter (bn : Bench) (g : Nat) : Bool :=
  (match bn.groups.find? g with
    | some x => x.ctx == bn.runCtx
    | none => false) && !(List.range 8).any fun s => bn.slotAfter s == some g

/-! ### Jig instructions (R184) -/

/-- TGLAUNCH (R135): into a free slot, or to PEND as a park record. -/
def tglaunchEffect (b : Nat) (f : Ecc) (d : Dev) : Dev :=
  d.jigIssue b f (fun w => majorOf w == 0x1F && fld w 7 6 == 0) fun w d' =>
    let bn := d'.bench b
    let g := fld w 13 8
    let dest := fld w 17 14
    let cnt := fld w 21 18
    let entry := (bn.j (fld w 26 22)).toNat
    let arg := bn.j (fld w 31 27)
    let bad := bn.groups.has g || (decide (dest < 8) && (bn.slotAfter dest).isSome) || entry % 8 != 0 ||
      decide (bn.ctx.istrSize * 1024 < entry + 8) || (dest == 8 && !bn.ctx.hasPark g)
    if bad then some (d'.killRun b 0x1401 0x00 0)
    else if dest < 8 then
      if bn.moves.any (·.slot == dest) then none
      else
        let bn1 := ((launchRegs g arg).zipIdx).foldl (fun x v => x.setVreg (32 * dest + v.2) v.1) bn
        some (d'.setBench b { (bn1.pcNext 4) with
          slots := bn1.slots.set dest (newGroup g entry)
          groups := bn1.groups.set g { ctx := bn.runCtx, cnt := cnt, slot := some dest } })
    else
      let a := bn.ctx.parkAt g
      let (r, d1) := d'.sbTry b bn.jigSb { dev := false, first := a, last := a + 0x23FF, wr := true, l1 := false }
      match r with
      | none => none
      | some (id, false) => some (d1.modBench b fun x => { x with jigSb := some id })
      | some (id, true) =>
        some (d1.modBench b fun x =>
          { ((x.lsWrite a (parkBytes (launchRegs g arg) (newGroup g entry))).jigAccessDone id) with
            groups := x.groups.set g { ctx := x.runCtx, cnt := cnt, slot := none } })

/-- Queue a move, its park record entered in the scoreboard (R51, R138). -/
def Dev.queueMove (d : Dev) (b slot g : Nat) (park : Bool) : Option Dev :=
  let bn := d.bench b
  if !bn.sbRoom 1 then none
  else
    let a := bn.ctx.parkAt g
    let (id, bn1) := bn.sbEnter { dev := false, first := a, last := a + 0x23FF, wr := park, l1 := false }
    some ((d.setBench b { (bn1.pcNext 4) with
      moves := bn1.moves ++ [{ slot := slot, group := g, park := park, sb := id }] }).sbNote b)

/-- TGPARK (R138). -/
def tgparkEffect (b : Nat) (f : Ecc) (d : Dev) : Dev :=
  d.jigIssue b f (fun w => majorOf w == 0x1F && fld w 7 6 == 1) fun w d' =>
    let bn := d'.bench b
    let s := fld w 10 8
    match bn.slotAfter s with
    | none => some (d'.killRun b 0x1402 0x00 0)
    | some g => if bn.ctx.hasPark g then d'.queueMove b s g true else some (d'.killRun b 0x1402 0x00 0)

/-- TGACT (R138). -/
def tgactEffect (b : Nat) (f : Ecc) (d : Dev) : Dev :=
  d.jigIssue b f (fun w => majorOf w == 0x1F && fld w 7 6 == 2) fun w d' =>
    let bn := d'.bench b
    let g := fld w 13 8
    let s := fld w 16 14
    if bn.pendingAfter g && (bn.slotAfter s).isNone then d'.queueMove b s g false
    else some (d'.killRun b 0x1402 0x00 0)

/-! ### Moves and retirement -/

/-- A group with nothing in flight: no access under way, no atomic and no fence outstanding (R138, R150). -/
def Bench.quietSlot (bn : Bench) (s : Nat) : Bool :=
  !bn.plane.pends.any (fun p => p.iss.slot == some s) &&
  match bn.group s with
  | some g => g.fences.isEmpty && g.atoms.isEmpty
  | none => true

/-- The first move of a slot is carried out: a park writes the record and frees the slot, an activation reads it (R137, R138).
A double-bit error in the record kills the context (R42, R152), and so does a parity error in a register that a park reads (R115); a
register that an access has still to write is waited for (R116). -/
def tgMoveDoneEffect (b slot : Nat) (e : EccAt) (vp : Option Nat) (d : Dev) : Dev :=
  let bn := d.bench b
  if !d.dieRuns (dieOf b) || !bn.running then d
  else match bn.moves.find? (·.slot == slot) with
    | none => d
    | some m =>
      if bn.sbWaits m.sb || (m.park && !bn.quietSlot slot) || bn.regsPending.any (fun r => r / 32 == slot) then d
      else
        let a := bn.ctx.parkAt m.group
        let rest (x : Bench) : Bench := { (x.sbLeave [m.sb]) with moves := x.moves.erase m }
        if m.park then
          match bn.group slot, vp with
          | none, _ => d
          | some _, some r => d.killRun b 0x2301 0x36 r
          | some g, none =>
            let regs := (List.range 32).map fun r => bn.vreg (32 * slot + r)
            let g1 := g.flip (d.cycle (dieOf b))
            d.modBench b fun x => rest { (x.lsWrite a (parkBytes regs g1)) with
              slots := x.slots.erase slot
              groups := x.groups.modify m.group ⟨x.runCtx, 0, none, ⟨[]⟩⟩ fun q => { q with slot := none, clampAt := g1.clampAt } }
        else
          let (go, d1) := d.lsEccAt b a (a + 0x23FF) 0x30 e
          if !go then d1
          else d1.modBench b fun x =>
            let x1 := (List.range 32).foldl (fun y r =>
              y.setVreg (32 * slot + r) (BitVec.ofNat 2048 (leNat (y.lsRead (a + 256 * r) 256)))) x
            let g := parkedGroup (fun o => x1.tile.read (x1.ctx.base + o)) a m.group
            let info := x1.groups.getD m.group ⟨x1.runCtx, 0, none, ⟨[]⟩⟩
            rest { x1 with
              slots := x1.slots.set slot (({ g with clampAt := info.clampAt } : TGroup).flip (d1.cycle (dieOf b)))
              groups := x1.groups.set m.group { info with slot := some slot, clampAt := ⟨[]⟩ } }

/-- All 64 threads have exited and every access of the group has retired: its slot and number are free and its counter is
incremented (R136). -/
def groupRetireEffect (b slot : Nat) (d : Dev) : Dev :=
  let bn := d.bench b
  if !d.dieRuns (dieOf b) || !bn.running then d
  else match bn.group slot with
    | none => d
    | some g =>
      if g.exited = BitVec.allOnes 64 ∧ bn.quietSlot slot ∧ !bn.sb.any (fun e => e.group == some g.num) ∧
          !bn.moves.any (·.slot == slot) then
        let i := bn.groups.getD g.num ⟨bn.runCtx, 0, none, ⟨[]⟩⟩
        d.setBench b (({ bn with slots := bn.slots.erase slot, groups := bn.groups.erase g.num }).countUp i.ctx i.cnt)
      else d

/-! ### Thread control (R195) -/

def isTctl (fn : Nat) (w : W64) : Bool := majorOf w == 0x3D && fld w 11 6 == fn

/-- Branch target PC + 8 × OFF24 (R195). -/
def threadTarget (i : Issue) : Nat := wrapI 32 (((i.pc : Int)) + 8 * sxt 24 (fld i.word 63 40))

/-- Threads of the issue whose tested register satisfies `p`. -/
def Issue.taken (i : Issue) (bn : Bench) (p : Nat → Bool) : W64 :=
  let v := i.src bn (fld i.word 16 12)
  BitVec.ofNat 64 (packLanes 1 ((List.range 64).map fun t => b2n (i.mask.testBit t && p (laneN v 32 t))))

/-- A thread branch: the threads taken go to the target, the others to the next instruction (R195). -/
def Dev.threadBranch (d : Dev) (b slot : Nat) (i : Issue) (p : Nat → Bool) : Dev :=
  let m := i.taken (d.bench b) p
  d.modBench b fun bn => bn.modGroup slot fun g => g.jump m (threadTarget i)

def bnzEffect (b : Nat) (slot : Fin 8) (f : Ecc) (vp : Option Nat) (d : Dev) : Dev :=
  d.planeSimple b (.group slot) f vp (isTctl 0) fun i d' => d'.threadBranch b slot i fun x => x != 0

def bzEffect (b : Nat) (slot : Fin 8) (f : Ecc) (vp : Option Nat) (d : Dev) : Dev :=
  d.planeSimple b (.group slot) f vp (isTctl 1) fun i d' => d'.threadBranch b slot i fun x => x == 0

def jmpEffect (b : Nat) (slot : Fin 8) (f : Ecc) (d : Dev) : Dev :=
  d.planeSimple b (.group slot) f none (isTctl 2) fun i d' => d'.threadBranch b slot i fun _ => true

/-- The barrier releases when every thread is arrived or exited; a fully exited group has none (R147). -/
def TGroup.barrier (g : TGroup) : TGroup :=
  if g.exited ≠ BitVec.allOnes 64 ∧ g.arrived ||| g.exited = BitVec.allOnes 64 then { g with arrived := 0, wdog := 0 } else g

def exitThreadsEffect (b : Nat) (slot : Fin 8) (f : Ecc) (d : Dev) : Dev :=
  d.planeSimple b (.group slot) f none (isTctl 3) fun i d' => d'.modBench b fun bn => bn.modGroup slot fun g =>
    ({ g with exited := g.exited ||| BitVec.ofNat 64 i.mask }).barrier

def barEffect (b : Nat) (slot : Fin 8) (f : Ecc) (d : Dev) : Dev :=
  d.planeSimple b (.group slot) f none (isTctl 4) fun i d' => d'.modBench b fun bn => bn.modGroup slot fun g =>
    ({ g with
      arrived := g.arrived ||| BitVec.ofNat 64 i.mask
      wdog := if g.arrived = 0 then d'.cycle (dieOf b) else g.wdog } : TGroup).barrier

/-- Thread FENCE: blocks its cohort only (R146, R283). -/
def tctlFenceEffect (b : Nat) (slot : Fin 8) (f : Ecc) (mp : Bool) (d : Dev) : Dev :=
  d.planeSimple b (.group slot) f none (isTctl 5) fun i d' =>
    let scope := fld i.word 28 27
    let rel := fld i.word 29 29 == 1
    let acq := fld i.word 30 30 == 1
    if scope < 2 then d'
    else if rel then
      let d1 := (d'.modBench b (·.mergeBad mp)).drainWhere b (fun _ => true)
      if (d1.bench b).running then
        d1.modBench b fun bn => (bn.modGroup slot fun g =>
          { g with
            fences := g.fences ++ [{ mask := BitVec.ofNat 64 i.mask, sys := scope == 3, acq := acq, upto := bn.nextId }] }).fenceCheck
      else d1
    else d'.modBench b (·.invalidate)

/-- LI places bits [63:32] of the instruction into UD (R195). -/
def liEffect (b : Nat) (slot : Fin 8) (f : Ecc) (d : Dev) : Dev :=
  d.planeSimple b (.group slot) f none (isTctl 6) fun i d' =>
    let ud := i.vnum (fld i.word 26 22)
    d'.modBench b fun bn => bn.setVreg ud (i.build (bn.vreg ud) 32 fun _ => (fld i.word 63 32, 0)).1

/-! ### Atomics (R145, R196) -/

/-- One thread's atomic on local store: the bench after it and the old word. -/
def Bench.lsAtomic (bn : Bench) (fn off x y : Nat) : Bench × Nat :=
  let old := leNat (bn.lsRead off 4)
  (bn.lsWrite off (leBytes (atomicOp fn old x y) 4), old)

/-- The operand and the new value that a thread's atomic captured. -/
def MemElem.atomX (m : MemElem) : Nat := leNat (m.data.take 4)
def MemElem.atomY (m : MemElem) : Nat := leNat (m.data.drop 4)

/-- The local part of a cohort's atomic, in ascending thread order: each thread receives the old value it saw (R145). -/
def Bench.atomLocal (bn : Bench) (fn ud : Nat) (xs : List MemElem) : Bench :=
  xs.foldl (fun y m =>
    let (z, old) := y.lsAtomic fn m.off m.atomX m.atomY
    z.setVreg ud (setLaneN (z.vreg ud) 32 m.ix old)) bn

/-- An atomic that may go on: the words in local store at once; one request a thread for device memory, whose old values come back one by
one, the bench's own copies of those lines being dropped (R145, R264, R279). -/
def Dev.atomRun (b : Nat) (e : EccAt) (p : PlPend) (d : Dev) : Dev :=
  let (go, d1) := d.elemEcc b p.iss p.elems 0x34 e
  if !go then d1
  else
    let w := p.iss.word
    let fn := fld w 11 6
    let ud := fld w 16 12
    let dev := p.elems.filter (·.isDev)
    let d2 := d1.modBench b fun x => (x.atomLocal fn (p.iss.vnum ud) (p.elems.filter (!·.isDev))).dropPend p.sbs
    if dev.isEmpty then d2.modBench b (·.sbLeave p.sbs)
    else
      let bn := d2.bench b
      let id := p.sbs.getLastD 0
      let d3 := dev.foldl (fun d x => d.send
        { kind := .benchAtomic, src := .bench b, dst := .bay (bayOf b), line := x.off / 128, off := x.off % 128
          data := BitVec.ofNat 1024 x.atomY, tag := id, ctx := bn.runCtx, gen := bn.ctx.gen, op := fn
          v0 := x.ix, v1 := x.atomX }) d2
      let wait : W64 := BitVec.ofNat 64 (packLanes 1 ((List.range 64).map fun t => b2n (dev.any (·.ix == t))))
      d3.modBench b fun y => (((y.sbLeave p.sbs.dropLast).dropLines (firsts (dev.map (·.off / 128))))).modGroup (p.iss.slot.getD 0)
        fun g => { g with atoms := g.atoms ++ [{ wait := wait, ud := ud, sb := id, pc := p.iss.pc }] }

/-- Atomics of a cohort in ascending thread order (R145). -/
def threadAtomicEffect (b : Nat) (slot : Fin 8) (f : Ecc) (e : EccAt) (vp : Option Nat) (d : Dev) : Dev :=
  d.planeAccess b (.group slot) f vp (isTmem 0x10 0x1C)
    (fun i d' =>
      let bn := d'.bench b
      let ub := i.src bn (fld i.word 31 27)
      let uc := i.src bn (fld i.word 36 32)
      let xs := (i.threadAddrs bn 4).map fun x => { x with data := leBytes (laneN ub 32 x.ix) 4 ++ leBytes (laneN uc 32 x.ix) 4 }
      d'.startElems b 0x34 i xs ((memRanges xs 4 true).map fun r => { r with l1 := false }) id)
    (Dev.atomRun b e)

/-! ### Group-wide products (R80 to R82, R149) -/

/-- A GMMA that may go on, in the order of issue: once the limiter lets the cubes work (R78, R165) and the tile's set may take the
product, its steps run and are counted and its dressing is written; a parity error in the set kills (R85, R112). -/
def Dev.gmmaRun (b : Nat) (e : EccAt) (pe : Option Nat) (p : PlPend) (d : Dev) : Dev :=
  let bn := d.bench b
  let w := p.iss.word
  if !d.cycleAllowed b || (bn.gmmaPends.head?.map (·.sbs)) != some p.sbs then d
  else match bn.regionTake with
    | none => d
    | some (s, bn1) =>
      let o := ((p.elems.headD ⟨0, 0, []⟩).off)
      let last := bn.mortise.gmmaBase o + 16 * bn.mortise.gmmaStride - 1
      let (go, d1) := (if e.e = .double then d.faultAt b (firstThread p.iss.mask) p.iss else d).lsEccAt b o last 0x20 e
      if !go then d1
      else match pe with
        | some off => (d1.faultAt b (firstThread p.iss.mask) p.iss).gluePe b s off
        | none =>
          let av (t : Nat) : W32 := BitVec.ofNat 32 (((p.elems.find? (·.ix == t)).map fun m => leNat m.data).getD 0)
          let (bn2, fl) := ({ (d1.bench b) with ctxs := bn1.ctxs, mortise := bn1.mortise }).gmma s av o (fld w 28 27) (w.getLsbD 29)
          ((d1.setBench b ((bn2.dropPend p.sbs).sbLeave p.sbs)).numFlags b fl).count .mrtSteps [b] 31 0 bn.mortise.gmmaSteps

/-- GMMA: in the region of its group and with all 64 threads active it adds the group's product into a quadrant. The B
panel's columns are packed one after another at thread 0's local-store offset. DESIGN CHOICE (log 74): a GMMA that is outside its region, or
of another group, and has a partial mask raises 0x1204. -/
def gmmaEffect (b : Nat) (slot : Fin 8) (f : Ecc) (e : EccAt) (vp pe : Option Nat) (d : Dev) : Dev :=
  d.planeAccess b (.group slot) f vp (isTctl 0x10)
    (fun i d' =>
      let bn := d'.bench b
      let w := i.word
      let t := firstThread i.mask
      let o := laneN (i.src bn (fld w 21 17)) 32 0
      let base := bn.mortise.gmmaBase o
      let last := base + 16 * bn.mortise.gmmaStride - 1
      if bn.mortise.region ≠ some i.num then .done (d'.threadKill b 0x1204 0x20 (localAddr o) t i)
      else if i.mask ≠ 2 ^ 64 - 1 then .done (d'.threadKill b 0x1205 0x20 (localAddr o) t i)
      else if 2 ^ 20 ≤ o then .done (d'.threadKill b 0x1102 0x20 (localAddr o) t i)
      else if bn.ctx.usable ≤ last then .done (d'.threadKill b 0x1101 0x20 (localAddr o) t i)
      else
        let av := i.src bn (fld w 16 12)
        .enter i ((List.range 64).map fun t => { ix := t, addr := localAddr o, data := leBytes (laneN av 32 t) 4 })
          [{ dev := false, first := base, last := last, wr := false, l1 := false }])
    (Dev.gmmaRun b e pe)

/-! ### The commands -/

section
variable (b : BenchIx) (slot : Fin 8) (f : Ecc) (s : State)

def execTglaunch (f : Ecc) (s : State) := s.runLive (tglaunchEffect b f)
def execTgpark (f : Ecc) (s : State) := s.runLive (tgparkEffect b f)
def execTgact (f : Ecc) (s : State) := s.runLive (tgactEffect b f)
def execTgMoveDone (slot : Fin 8) (x : MoveFind) (s : State) := s.runLive (tgMoveDoneEffect b slot x.e x.vp)
def execGroupRetire (slot : Fin 8) (s : State) := s.runLive (groupRetireEffect b slot)
def execBnz (slot : Fin 8) (f : Ecc) (vp : Option Nat) (s : State) := s.runLive (bnzEffect b slot f vp)
def execBz (slot : Fin 8) (f : Ecc) (vp : Option Nat) (s : State) := s.runLive (bzEffect b slot f vp)
def execJmp := s.runLive (jmpEffect b slot f)
def execExitThreads := s.runLive (exitThreadsEffect b slot f)
def execBar := s.runLive (barEffect b slot f)
def execTctlFence (slot : Fin 8) (f : Ecc) (mp : Bool) (s : State) := s.runLive (tctlFenceEffect b slot f mp)
def execLi := s.runLive (liEffect b slot f)
def execThreadAtomic (slot : Fin 8) (f : Ecc) (e : EccAt) (vp : Option Nat) (s : State) := s.runLive (threadAtomicEffect b slot f e vp)
def execGmma (slot : Fin 8) (f : Ecc) (e : EccAt) (x : ParityFind) (s : State) := s.runLive (gmmaEffect b slot f e x.vp x.pe)
end

end Sys2Proof.Machine
end

