-- ==== Sys2Proof/Machine/BenchSwitch.lean ====
section
/-! DEFINITION. Command boundaries and context switches (R57, R58, R102, R109, R110, R117, R131, R150): sealing glue-up
sets, saving and restoring a context. -/

namespace Sys2Proof.Machine

/-! ### Save areas (R58, R109, R131) -/

/-- Write into context `n`'s save area. -/
def Bench.saveWrite (bn : Bench) (n o : Nat) (bs : List Byte) : Bench :=
  { bn with tile := bn.tile.writeBytes ((bn.ctxN n).saveBase + o) bs }

/-- A number of `k` bytes of context `n`'s save area. -/
def Bench.saveN (bn : Bench) (n o k : Nat) : Nat := bn.tile.readN ((bn.ctxN n).saveBase + o) k

/-- A set holds the live tile of a chain (R70, R109). -/
def GlueSet.live (g : GlueSet) : Bool := g.phase == .chained

/-- What SEAL writes for a set: its contents, or zeros when no tile is live in it (R109). -/
def GlueSet.sealed (g : GlueSet) : GData := if g.live then g.data else 0

/-- SEAL of the loaded context: both sets to its save area, and which were live to MRT_CTXST (R109). -/
def Bench.sealSets (bn : Bench) : Bench :=
  let n := bn.runCtx
  let a := bn.mortise.setA
  let z := bn.mortise.setB
  ((bn.saveWrite n 0x10000 (leBytes a.sealed.toNat 8192)).saveWrite n 0x12000 (leBytes z.sealed.toNat 8192)).modCtx n fun c =>
    { c with liveA := a.live, liveB := z.live }

/-- The loaded context is saved: register file, jig registers, program counter, counters, masks, flags and scale slots
(R58, R131), and the per-thread state of its active groups (R150). `vl` is VL at the switch. -/
def Dev.saveContext (d : Dev) (b vl : Nat) : Dev :=
  d.modBench b fun bn =>
    let n := bn.runCtx
    let c := bn.ctx
    let regs := (List.range 256).flatMap fun r => leBytes (bn.vreg r).toNat 256
    let js := bn.jregs.toList.flatMap fun v => leBytes v.toNat 4
    let masks := (List.range 7).flatMap fun m => leBytes (bn.mreg (m + 1)) 8
    let bn1 := ((((((bn.saveWrite n 0 regs).saveWrite n 0x14000 js).saveWrite n 0x14080 (leBytes bn.pc 8)).saveWrite n 0x14088
      (c.counters.toList.flatMap fun v => leBytes v.toNat 2)).saveWrite n 0x140A8
      (masks ++ leBytes vl 1 ++ leBytes 0 3 ++ leBytes (d.reg .plnFlags [b]).toNat 4)).saveWrite n 0x140E8
      (c.scale.toList.flatMap fun v => leBytes v.toNat 4))
    bn1.modCtx n fun c => { c with savedOut := true, savedSlots := bn.slots.mapVals fun _ g => g.flip (d.cycle (dieOf b)) }

/-- A sealed set has a parity error at `pe`, an offset over both sets: the context is killed with 0x2203 (R112). -/
def Dev.sealParity (d : Dev) (b : Nat) (pe : Option Nat) : Option Dev :=
  match pe with
  | none => none
  | some o =>
    let s := decide (0x2000 ≤ o % 0x4000)
    if ((d.bench b).mortise.gset s).live then some (d.gluePe b s o) else none

/-- Parity of what the save of the loaded context reads: the sets that SEAL writes, then the register file (R112, R115). A bad one
kills the context. -/
def Dev.saveParity (d : Dev) (b : Nat) (pe vp : Option Nat) : Option Dev :=
  match d.sealParity b pe, vp with
  | some d1, _ => some d1
  | none, some r => some (d.killRun b 0x2301 0x36 r)
  | none, none => none

/-- The loaded context leaves the bench and context `n` is to come in: SEAL if a set is live, then the save. A context
without a save area can only leave when nothing of it is live (R56, R57); one that a parity error kills leaves unsaved.
DESIGN CHOICE (log 75): with no set live the save writes zeros over both sets of the save area and clears LIVE_A and LIVE_B. -/
def Dev.switchOut (d : Dev) (b n : Nat) (pe vp : Option Nat) (vl : Nat) : Dev :=
  let bn := d.bench b
  let out (x : Bench) : Bench :=
    { x with running := false, switchTo := some n, slots := ⟨[]⟩, l1 := ⟨[]⟩, plru := ⟨[]⟩, infeed := [], fills := []
             mortise := { x.mortise with setA := {}, setB := {} } }
  let live := bn.mortise.setA.live || bn.mortise.setB.live
  if bn.ctx.save then
    match d.saveParity b pe vp with
    | some d1 => d1.modBench b fun x => { x with switchTo := some n }
    | none => ((d.modBench b (·.sealSets)).saveContext b vl).modBench b out
  else if live || !bn.slots.cells.isEmpty then d
  else d.modBench b out

/-! ### Command boundary -/

/-- Every live group of the running context is parked, or is active with nothing in flight and every thread that has
not exited waiting at a clamp (R150). -/
def Bench.groupsAtRest (bn : Bench) : Bool :=
  bn.moves.isEmpty && bn.slots.cells.all fun c =>
    bn.quietSlot c.1 && c.2.exited ||| c.2.clampWait == BitVec.allOnes 64

/-- The running context's last instruction and accesses are done, but for the merge buffer (R57). -/
def Bench.workDone (bn : Bench) : Bool :=
  bn.running && bn.ended && bn.wait == .none && bn.mortise.queue.isEmpty && bn.mortise.head.isNone &&
  bn.mortise.setA.phase != .drain && bn.mortise.setB.phase != .drain && bn.mortise.due.isNone && bn.plane.queue.isEmpty &&
  bn.plane.pends.isEmpty && bn.tm.isEmpty && bn.groupsAtRest && bn.sb.all (fun e => bn.merge.any (·.sbs.contains e.id))

/-- What a boundary leaves: no outfeed tile, L1 line, stationary register or scale of a panel length; air cuts in AUTO, SEQ 0,
VL 64, and set A next unless it holds a chain (R44, R57, R71, R77, R102, R117, R129). -/
def Bench.atBoundary (bn : Bench) : Bench :=
  let bn1 := bn.invalidate.modCtx bn.runCtx fun c => { c with seq := 0, nextSet := bn.mortise.setA.live, idle := true }
  { bn1 with
    outfeed := [], running := false, ended := false
    mortise := { bn1.mortise with s0 := {}, s1 := {}, ks0 := none, ks1 := none, air := 0 }
    plane := { bn1.plane with vl := 64 } }

/-- The command boundary of the running context. While its merge buffer holds stores it drains; a region still open kills
(R82). Then the bench switches to `next`, if given. -/
def commandBoundaryEffect (b : Nat) (next : Option (Fin 4)) (pe vp : Option Nat) (d : Dev) : Dev :=
  let bn := d.bench b
  if !d.dieRuns (dieOf b) || !bn.workDone then d
  else if !bn.merge.isEmpty then d.drainWhere b (fun _ => true)
  else if bn.mortise.region.isSome then d.killRun b 0x1204 0x20 0
  else
    let d1 := if bn.outfeed.isEmpty then d else d.setRegBit .bchStatus [b] 8
    let d2 := d1.modBench b (·.atBoundary)
    match next with
    | none => d2
    | some n => if n.val ≠ bn.runCtx ∧ (bn.ctxN n).valid then d2.switchOut b n pe vp bn.plane.vl else d2

/-! ### Context start -/

/-- A glue-up set as it comes back from context `n`'s save area: live only if MRT_CTXST marks it live (R110). -/
def Bench.restoredSet (bn : Bench) (n : Nat) (live : Bool) (o : Nat) : GlueSet :=
  let c := bn.ctxN n
  if live then { phase := .chained, data := BitVec.ofNat 65536 (bn.saveN n o 8192), vrows := c.chainM, vcols := c.chainN } else {}

/-- Both sets come back (R110). -/
def Bench.restoreSets (bn : Bench) (n : Nat) : Bench :=
  let c := bn.ctxN n
  { bn with
    mortise := { bn.mortise with setA := bn.restoredSet n c.liveA 0x10000, setB := bn.restoredSet n c.liveB 0x12000 } }

/-- The incoming context's state comes back from its save area; the completion counters stay as they are on the bench, VL
is 64, and only the sets that were live are live again (R57, R58, R110, R117, R131, R150). -/
def Dev.restoreContext (d : Dev) (b n : Nat) : Dev :=
  let bn := d.bench b
  let rd := bn.saveN n
  let c := bn.ctxN n
  let bn1 := (List.range 256).foldl (fun x r => x.setVreg r (BitVec.ofNat 2048 (rd (256 * r) 256))) bn
  let bn2 := (List.range 7).foldl (fun x m => x.setMreg (m + 1) (rd (0x140A8 + 8 * m) 8)) bn1
  let bn3 : Bench := { bn2 with
    jregs := Vector.ofFn fun (r : Fin 32) => BitVec.ofNat 32 (rd (0x14000 + 4 * r.val) 4)
    pc := rd 0x14080 8
    slots := c.savedSlots.mapVals fun _ g => g.flip (d.cycle (dieOf b)) }
  let bn4 := (bn3.restoreSets n).modCtx n fun c =>
    { c with savedOut := false, savedSlots := ⟨[]⟩, scale := Vector.ofFn fun (i : Fin 8) => BitVec.ofNat 32 (rd (0x140E8 + 4 * i.val) 4) }
  (d.setBench b bn4).setReg .plnFlags [b] (BitVec.ofNat 32 (rd 0x140E4 4))

/-- SECDED of a restore, which reads the whole save area of context `n`; a finding elsewhere is none. Answers true when the restore
goes on (R42, R60). -/
def Dev.restoreEcc (d : Dev) (b n : Nat) (e : EccAt) : Bool × Dev :=
  let a := ((d.bench b).ctxN n).saveBase
  if ((d.bench b).ctxN n).savedOut ∧ a ≤ e.off ∧ e.off < a + 98304 then d.tileEcc b e.off 0x30 e.e else (true, d)

/-- Load context `n` on the bench: restored if it was saved, otherwise with nothing of its own but its partition and the sets that
a RESUME brought back. False when a double-bit error in its save area kills it. -/
def Dev.loadContext (d : Dev) (b n : Nat) (e : EccAt) : Bool × Dev :=
  let (go, d0) := d.restoreEcc b n e
  if !go then (false, d0)
  else
    let d1 := if ((d0.bench b).ctxN n).savedOut then d0.restoreContext b n else d0.modBench b (·.restoreSets n)
    (true, d1.modBench b fun bn =>
      { bn with runCtx := n, switchTo := none, wait := .none, jigSb := none, plane := { bn.plane with vl := 64, queue := [], pends := [] } })

/-- The incoming context of a switch starts (R57). -/
def contextStartEffect (b : Nat) (e : EccAt) (d : Dev) : Dev :=
  if !d.dieRuns (dieOf b) then d
  else match (d.bench b).switchTo with
    | none => d
    | some n =>
      let (go, d1) := d.loadContext b n e
      if go then d1.modBench b fun bn => { bn with running := true, ended := true } else d1

/-! ### The commands -/

def execCommandBoundary (b : BenchIx) (next : Option (Fin 4)) (x : ParityFind) (s : State) :=
  s.runLive (commandBoundaryEffect b next x.pe x.vp)
def execContextStart (x : RestoreFind) (s : State) := s.runLive (contextStartEffect x.b x.e)

end Sys2Proof.Machine
end

