-- ==== Sys2Proof/Machine/Collect.lean ====
section
/-! DEFINITION. The fault collectors (R392 to R402): capture, escalation and counting of reports, the messages and log
entries they cause, the line pairs, and the recovery counters (R404, R405). -/

namespace Sys2Proof.Machine

/-- A block of first-error records (R398, R400). -/
inductive FcBlock where
  | dev
  | die (i : Nat)
  | view (k : Nat)
deriving DecidableEq, Repr

/-- The registers that hold a record's words (R408). -/
def FcBlock.recReg : FcBlock → Nat → RegName
  | .dev, w => ([.fcDevRec0, .fcDevRec1, .fcDevRec2, .fcDevRec3, .fcDevRec4, .fcDevRec5, .fcDevRec6, .fcDevRec7] : List RegName).getD w .fcDevRec0
  | .die _, w => ([.fcDieRec0, .fcDieRec1, .fcDieRec2, .fcDieRec3, .fcDieRec4, .fcDieRec5, .fcDieRec6, .fcDieRec7] : List RegName).getD w .fcDieRec0
  | .view _, w => ([.fcViewRec0, .fcViewRec1, .fcViewRec2, .fcViewRec3, .fcViewRec4, .fcViewRec5, .fcViewRec6, .fcViewRec7] : List RegName).getD w .fcViewRec0

/-- Register indices of the record of class `c`, 1 to 10. -/
def FcBlock.ix (b : FcBlock) (c : Nat) : List Nat :=
  match b with
  | .dev => [c - 1]
  | .die i => [i, c - 1]
  | .view k => [k, c - 1]

def Dev.fcWord (d : Dev) (b : FcBlock) (c w : Nat) : W32 := d.reg (b.recReg w) (b.ix c)
def Dev.setFcWord (d : Dev) (b : FcBlock) (c w v : Nat) : Dev := d.setReg (b.recReg w) (b.ix c) (BitVec.ofNat 32 v)
/-- The eight words of a record. -/
def Dev.fcRec (d : Dev) (b : FcBlock) (c : Nat) : List W32 := (List.range 8).map (d.fcWord b c)
def Dev.fcValid (d : Dev) (b : FcBlock) (c : Nat) : Bool := (d.fcWord b c 1).getLsbD 31

/-- All words of a record become zero. -/
def Dev.fcZero (d : Dev) (b : FcBlock) (c : Nat) : Dev :=
  (List.range 8).foldl (fun d w => d.setFcWord b c w 0) d

/-- The class of a fault code (R10). -/
def codeClass (code : Nat) : Nat := nfld code 15 12

/-- The instance charged with a report; none is the device, 0xFF (R400). -/
def Dev.charged (d : Dev) (r : Report) : Option Nat :=
  if nfld r.master 15 12 < 8 then some (d.instOfDie (nfld r.master 15 12)) else r.inst

/-- The device time a record carries (R395): after a line fault the report alone counts (R394). -/
def Dev.stamp (d : Dev) (r : Report) : Nat :=
  match r.seen with
  | some t => if d.lineFault.contains r.master then d.time else min t d.time
  | none => d.time

/-- Write a record; COUNT is left as it stands. VALID outlasts a write that clears it in the same tick (R8, R402). -/
def Dev.fcCapture (d : Dev) (b : FcBlock) (r : Report) (esc : Bool) : Dev :=
  let c := codeClass r.code
  let inst := (d.charged r).getD 0xFF
  let t := d.stamp r
  (((((d.setFcWord b c 0 (r.code + r.master * 2 ^ 16)).setFcWord b c 1
    (r.access % 256 + severity r.code * 2 ^ 8 + inst * 2 ^ 16 + b2n esc * 2 ^ 24)).setFcWord b c 2 (r.addr % 2 ^ 32)).setFcWord
      b c 3 (r.addr / 2 ^ 32 % 2 ^ 32)).setFcWord b c 4 (t % 2 ^ 32)).setFcWord b c 5 (t / 2 ^ 32 % 2 ^ 32)
    |>.setRegBit (b.recReg 1) (b.ix c) 31

/-- One report precedes another among those of one tick: higher severity, then lower master ID, then lower code (R398). -/
def Report.before (r q : Report) : Bool :=
  let a := severity r.code
  let b := severity q.code
  a > b || (a == b && (r.master < q.master || (r.master == q.master && r.code < q.code)))

/-- The report that ties leave (R398). -/
def bestReport : List Report → Option Report
  | [] => none
  | r :: rs => match bestReport rs with
    | none => some r
    | some q => some (if q.before r then q else r)

/-- The reports of one class that reach a block in one tick: capture, escalate, count (R398). Answers what was captured. -/
def Dev.fcTake (d : Dev) (b : FcBlock) (c : Nat) (rs : List Report) : Dev × Option Report :=
  match bestReport rs with
  | none => (d, none)
  | some r =>
    let valid := d.fcValid b c
    let esc := valid && decide (fld (d.fcWord b c 1) 9 8 < severity r.code)
    let d1 := if !valid || esc then d.fcCapture b r esc else d
    let d2 := d1.setFcWord b c 6 (satAdd 65535 (d.fcWord b c 6).toNat rs.length)
    (d2, if !valid || esc then some r else none)

/-- Append a record to the persistent log: at most one in 10 ms, and the 3,840 KiB of the log hold 122,880 (R34, R401). -/
def Dev.logAppend (d : Dev) (rec : List W32) : Dev :=
  let soon := match d.evlogLast with
    | some t => decide (d.ticks < t + 500000)
    | none => false
  if soon then d.count .fcLogdrop [] 31 0
  else
    let l := d.evlog ++ [rec]
    { d with
      evlog := l.drop (l.length - 122880)
      evlogLast := some d.ticks }

/-- Classes of the records (R398). -/
def fcClasses : List Nat := [1, 2, 3, 4, 5, 6, 7, 8, 9, 10]

/-- What the device collector does on a capture or escalation of a class (R401); the record of 0x8107 stays out of the log (R461). -/
def Dev.fcTell (d : Dev) (c : Nat) (r : Report) : Dev :=
  let sev := severity r.code
  let d1 := if d.regFld .fcDevCfg [] 1 0 ≤ sev then d.msixEvent 0 0 else d
  if 2 ≤ sev then
    let d2 := { d1 with pldm := d1.pldm ++ [(r.code, r.master)] }
    if r.code = 0x8107 then d2 else d2.logAppend (d2.fcRec .dev c)
  else d1

/-- What a block does on a capture or escalation (R400, R401). -/
def Dev.fcCaught (d : Dev) (b : FcBlock) (c : Nat) (r : Report) : Dev :=
  match b with
  | .dev => d.fcTell c r
  | .die _ => d
  | .view k => if d.regFld .fcViewCfg [k] 1 0 ≤ severity r.code then d.msixEvent (k + 1) 0 else d

/-- A block takes the reports of one class that reach it in one tick. -/
def Dev.fcPut (d : Dev) (b : FcBlock) (c : Nat) (rs : List Report) : Dev :=
  match d.fcTake b c rs with
  | (d1, some r) => d1.fcCaught b c r
  | (d1, none) => d1

/-- The reports, among some, that reach a block in a class: a die's own, those charged to a view's instance, all at the device collector
(R392, R400). -/
def Dev.fcMine (d : Dev) (b : FcBlock) (c : Nat) (rs : List Report) : List Report :=
  rs.filter fun r => codeClass r.code == c && match b with
    | .dev => true
    | .die i => nfld r.master 15 12 == i
    | .view k => d.charged r == some k

/-- The blocks, in the order in which they take a report. -/
def fcBlocks : List FcBlock := (List.range 8).map .die ++ [.dev] ++ (List.range 8).map .view

/-- Reports that arrive in one tick, at their die collectors and, forwarded, at the device collector and the views (R392, R398,
R400). -/
def Dev.collect (d : Dev) (rs : List Report) : Dev :=
  fcClasses.foldl (fun d c => fcBlocks.foldl (fun d b => d.fcPut b c (d.fcMine b c rs)) d) { d with caught := d.caught ++ rs }

/-- Software clears a record: all its words become zero, and the reports that reach it in the same tick are captured as a new record, told
of if they had not been (R402). -/
def Dev.fcClear (d : Dev) (b : FcBlock) (c : Nat) : Dev :=
  let told := (d.freshBits (b.recReg 1) (b.ix c)).getLsbD 31
  let rs := d.fcMine b c d.caught
  if told then ((d.fcZero b c).fcTake b c rs).1 else (d.fcZero b c).fcPut b c rs

/-- The home class of a source: the class of the lowest code it raises (R394). -/
def homeClass (m : Nat) : Option Nat :=
  let a := nfld m 11 0
  if nfld m 15 12 < 8 then
    if a < 576 then some 1
    else if (0x800 ≤ a ∧ a < 0x810) ∨ (0x820 ≤ a ∧ a < 0x828) then some 2
    else if 0x880 ≤ a ∧ a < 0x890 then some 3
    else if a = 0x840 ∨ a = 0x841 ∨ a = 0x842 then some 4
    else if a = 0x850 ∨ a = 0x851 ∨ a = 0x852 ∨ a = 0x860 then some 5
    else if a = 0x870 then some 7
    else none
  else if m = 0xF810 ∨ m = 0xF870 then some 7
  else if m = 0xF818 ∨ m = 0xF840 then some 8
  else if 0xF820 ≤ m ∧ m ≤ 0xF824 then some 3
  else if 0xF825 ≤ m ∧ m ≤ 0xF828 then some 10
  else if (0xF829 ≤ m ∧ m ≤ 0xF838) ∨ (0xF880 ≤ m ∧ m < 0xF898) ∨ m = 0xF8A0 then some 6
  else if m = 0xF848 then some 9
  else if 0xF850 ≤ m ∧ m < 0xF858 then some 5
  else none

/-- A cause that the collector raises itself in a source's home class (R394): `c` is 0xE01, 0xE02 or 0xE03. -/
def Dev.fcOwn (d : Dev) (m c : Nat) (inst : Option Nat) : Dev :=
  match homeClass m with
  | some h =>
    d.collect [{ code := h * 0x1000 + c, master := m, access := 0, addr := 0, inst := inst,
                 die := if nfld m 15 12 < 8 then some (nfld m 15 12) else none }]
  | none => d

/-! ### Recovery counters (R404, R405) -/

/-- The kind of an auto-recovering source (R404, R408). -/
def rcvKind (i : Nat) : Option Nat :=
  if i < 24 then some 0
  else if 32 ≤ i ∧ i < 224 then some 1
  else if 256 ≤ i ∧ i < 832 then some 2
  else none

/-- WINDOW of a kind in seconds (R408). -/
def Dev.rcvWindow (d : Dev) (k : Nat) : Nat :=
  let w := d.regFld .fcRcvCfg [k] 27 16
  if w = 0 then 60 else w

/-- RECENT: returns within the last WINDOW seconds, at most 15 (R405). -/
def Dev.rcvRecent (d : Dev) (i : Nat) : Nat :=
  let w := d.rcvWindow ((rcvKind i).getD 0) * 1000000000
  min 15 ((d.returns.getD i []).filter fun t => decide (d.time ≤ t + w)).length

def Dev.rcvLatched (d : Dev) (i : Nat) : Bool := d.regBit .fcRcv [i] 31

/-- A source has returned to service (R405). -/
def Dev.rcvReturn (d : Dev) (i : Nat) : Dev :=
  { d.count .fcRcv [i] 15 0 with returns := d.returns.set i ((d.time :: d.returns.getD i []).take 15) }

/-- QUIET of a kind in ticks (R404, R408). -/
def Dev.quietTicks (d : Dev) (k : Nat) : Nat := 50000 * min 1000 (max 1 (d.regFld .fcRcvCfg [k] 9 0))

/-- A quiet period starts: its length is that of its start (R404). -/
def Dev.quietStart (d : Dev) (i : Nat) : Dev := { d with quiet := d.quiet.set i (d.ticks + d.quietTicks ((rcvKind i).getD 0)) }

/-- The status bit whose clearing releases a latched source: PORT_DOWN, MOD_DOWN of the die, a throttle bit, or MODULE (R406). -/
def latchBit (i : Nat) : RegName × List Nat × Nat :=
  if i < 24 then (.fabErrStatus, [], 0)
  else if i < 256 then (.datErrStatus, [(i - 32) / 24], 2)
  else if i < 256 + 568 then (.pwrErrStatus, [], if 536 ≤ i - 256 then 5 else 3)
  else (.pwrEvt, [], 8)

/-- The end of a source's quiet period: it latches when RECENT has reached LIMIT, and the latch goes into the log whatever its
severity (R401, R405). The latch leaves the status bit set that releases it (R406). Answers whether it may return. -/
def Dev.quietEnd (d : Dev) (i m : Nat) (inst : Option Nat) : Dev × Bool :=
  let k := (rcvKind i).getD 0
  let lim := d.regFld .fcRcvCfg [k] 31 28
  let d1 : Dev := { d with quiet := d.quiet.erase i }
  if lim ≠ 0 ∧ lim ≤ d.rcvRecent i then
    let b := latchBit i
    let d2 := ((d1.setRegBit .fcRcv [i] 31).setRegBit b.1 b.2.1 b.2.2).fcOwn m 0xE02 inst
    let h := (homeClass m).getD 0
    let r : Report := { code := h * 0x1000 + 0xE02, master := m, access := 0, addr := 0, inst := inst, die := none }
    (d2.logAppend [BitVec.ofNat 32 (r.code + m * 65536), BitVec.ofNat 32 (256 + ((d2.charged r).getD 0xFF) * 65536 + 2 ^ 31), 0, 0,
      BitVec.ofNat 32 d2.time, BitVec.ofNat 32 (d2.time / 2 ^ 32), 1, 0], false)
  else (d1, true)

/-- A latched source is released: its window empties (R406). -/
def Dev.rcvRelease (d : Dev) (i : Nat) : Dev :=
  { d.clrRegBit .fcRcv [i] 31 with returns := d.returns.erase i }

end Sys2Proof.Machine
end

