-- ==== Sys2Proof/Machine/CpOps.lean ====
section
/-! DEFINITION. What every command of the command processor shares (R310 to R316, R329 to R331, R484): queues and their owners,
address checks, reads and writes of device memory, completion records. -/

namespace Sys2Proof.Machine

/-! ### Queues (R310, R311) -/

def Dev.queue (d : Dev) (q : Nat) : Queue := d.queues.getD q {}
def Dev.setQueue (d : Dev) (q : Nat) (x : Queue) : Dev := { d with queues := d.queues.set q x }
def Dev.modQueue (d : Dev) (q : Nat) (f : Queue → Queue) : Dev := d.setQueue q (f (d.queue q))
def Dev.modCmd (d : Dev) (q : Nat) (f : Cmd → Cmd) : Dev := d.modQueue q fun x => { x with run := x.run.map f }

/-- The instance that owns a queue (R310). -/
def Dev.queueInst (d : Dev) (q : Nat) : Nat := q / (512 / d.instN)
def Dev.queueMgr (d : Dev) (q : Nat) : Bool := d.regBit .cpQcfg [q] 30
def Dev.queueEn (d : Dev) (q : Nat) : Bool := d.regBit .cpQcfg [q] 31
/-- The rights of a queue's commands (R313, R355). -/
def Dev.queueWho (d : Dev) (q : Nat) : Who := if d.queueMgr q then .manager else .inst (d.queueInst q)
/-- The function that owns a queue (R331, R348). -/
def Dev.queueFn (d : Dev) (q : Nat) : Nat := if d.queueMgr q then 0 else d.queueInst q + 1
/-- D of a queue (R311). -/
def Dev.queueDepth (d : Dev) (q : Nat) : Nat := d.regFld .cpQcfg [q] 20 16
def Dev.queueTail (d : Dev) (q : Nat) : Nat := d.regFld .cpQtail [q] 22 0
def Dev.cqHead (d : Dev) (q : Nat) : Nat := d.regFld .cpQhead [q] 22 0
def Dev.queueDone (d : Dev) (q : Nat) : Nat := d.regFld .cpQdone [q] 22 0
def Dev.queueStopped (d : Dev) (q : Nat) : Bool := d.regBit .cpQstate [q] 2
def Dev.queueErr (d : Dev) (q : Nat) : Bool := d.regBit .cpQstate [q] 3
/-- No command fetched or running (CP_QSTATE.IDLE). -/
def Dev.queueIdle (d : Dev) (q : Nat) : Bool := (d.queue q).run.isNone && (d.queue q).fetch.isNone
/-- The queues of an instance. -/
def Dev.queuesOf (d : Dev) (inst : Nat) : List Nat := (List.range (512 / d.instN)).map (inst * (512 / d.instN) + ·)

/-! ### Causes (R337, R484) -/

/-- The instance that a command of a queue is charged to (R400). -/
def Dev.queueCharge (d : Dev) (q : Nat) : Option Nat := if d.queueMgr q then none else some (d.queueInst q)

/-- A cause of the command processor, with its CP_ERR_STATUS bit. -/
def Dev.cpCause (d : Dev) (q code access addr : Nat) : Dev :=
  d.raise .cpErrStatus [] (code - 0x9101) { code := code, master := 0xF820, access := access, addr := addr, inst := d.queueCharge q, die := none }

/-- A fetch fails: the queue stops (R313). -/
def Dev.fetchFailed (d : Dev) (q addr : Nat) : Dev := (d.setRegBit .cpQstate [q] 3).cpCause q 0x9102 0x68 addr

/-- The cause of a failed device read or of a write to a fenced home (R249, R484). -/
def Dev.cpReadCause (d : Dev) (q code pa : Nat) (acc : Nat := 0x68) : Dev :=
  if code = 0x5108 then
    match d.winFind pa with
    | some w => d.raise .datErrStatus [(w.decode pa).1] 7
        { code := 0x5108, master := 0xF850 + (w.decode pa).1, access := acc, addr := pa, inst := none, die := none }
    | none => d
  else d.report { code := code, master := 0xF820, access := acc, addr := pa, inst := d.queueCharge q, die := none }

/-! ### Device memory (R315) -/

/-- Bytes from `a` to the end of the mapped window that holds it, for a requester; none where it is unmapped or, for a write,
read-only. -/
def Dev.mappedFrom (d : Dev) (who : Who) (a : Nat) (wr : Bool) : Option Nat :=
  match d.access who a with
  | none => none
  | some l => if wr && l.ro then none else some ((l.win.base + l.win.size) * 2 ^ 30 - a)

/-- Every byte of a range is mapped for the requester (R315); the range crosses at most all the windows there are. -/
def Dev.rangeOk (d : Dev) (who : Who) (wr : Bool) : Nat → Nat → Nat → Bool
  | 0, _, _ => false
  | f + 1, a, n =>
    if n = 0 then true
    else match d.mappedFrom who a wr with
      | none => false
      | some m => if n ≤ m then true else d.rangeOk who wr f (a + m) (n - m)

def Dev.mapped (d : Dev) (who : Who) (wr : Bool) (a n : Nat) : Bool := d.rangeOk who wr 150 a n

/-- What a read of device memory by the command processor gives: a line's business is in progress; poison, a fenced home or an address
no longer mapped, with its cause and address, and what was read before it; or the bytes. -/
inductive CpRead where
  | wait
  | bad (d : Dev) (code addr : Nat) (got : List Byte)
  | ok (d : Dev) (bs : List Byte)

/-- Read `n` bytes from `a`, line by line (R484); the first argument bounds the lines. -/
def Dev.cpRead (who : Who) : Nat → Dev → Nat → Nat → List Byte → CpRead
  | 0, d, _, _, got => .ok d got
  | f + 1, d, a, n, got =>
    if n = 0 then .ok d got
    else
      let k := min n (128 - a % 128)
      match d.access who a with
      | none => .bad d 0x3101 a got
      | some l => match d.cohRead l a with
        | .wait => .wait
        | .lost => .bad d 0x5108 a got
        | .ok d1 ln poison =>
          if poison then .bad d1 0x3205 a got else Dev.cpRead who f d1 (a + k) (n - k) (got ++ ln.slice (a % 128) k)

/-- A write of the command processor meets a fenced home or an address that is no longer mapped: the bytes are discarded, and the cause is
recorded and kept for the command's record (R249, R294, R329). -/
def Dev.cpWriteLost (d : Dev) (q code a : Nat) : Dev :=
  (d.cpReadCause q code a 0x69).modCmd q fun c => { c with fault := if c.fault = 0 then code else c.fault }

/-- Write bytes line by line at their homes (R322); none while some line's business is in progress. What meets a fenced home or an
unmapped address is discarded with its cause (R249, R294). -/
def Dev.cpWrite (who : Who) (q : Nat) : Nat → Dev → Nat → List Byte → Option Dev
  | 0, d, _, _ => some d
  | f + 1, d, a, bs =>
    match bs with
    | [] => some d
    | _ =>
      let k := min bs.length (128 - a % 128)
      let rest := Dev.cpWrite who q f
      match d.access who a with
      | none => rest (d.cpWriteLost q 0x3101 a) (a + k) (bs.drop k)
      | some l => match d.cohWrite l a (linePut (a % 128) (bs.take k)) (beRange (a % 128) k) false with
        | .wait => none
        | .lost => rest (d.cpWriteLost q 0x5108 a) (a + k) (bs.drop k)
        | .ok d1 _ _ => rest d1 (a + k) (bs.drop k)

def Dev.cpWriteAll (d : Dev) (who : Who) (q a : Nat) (bs : List Byte) : Option Dev := Dev.cpWrite who q (lineBound bs.length) d a bs

/-! ### Packets (R314) -/

/-- A little-endian field of a packet. -/
def Cmd.n (c : Cmd) (o k : Nat) : Nat := leNat ((c.pkt.drop o).take k)
def Cmd.op (c : Cmd) : Nat := c.n 0 1

/-! ### Completion (R329 to R331) -/

/-- The completion record of a command. -/
def Dev.record (d : Dev) (q : Nat) (c : Cmd) (status info : Nat) : List Byte :=
  let phase := b2n (c.seq / 2 ^ d.queueDepth q % 2 == 0)
  let back := match c.launch with
    | some l => b2n l.ranBack
    | none => 0
  leBytes (q * 2 ^ 23 + c.seq) 4 ++ leBytes status 2 ++ leBytes c.op 1 ++ leBytes (phase + 2 * back + 4 * b2n c.overrun) 1 ++
    leBytes (c.n 4 4) 4 ++ leBytes c.fault 2 ++ leBytes 0 2 ++ leBytes info 8 ++ leBytes d.time 8

/-- The command of a queue is over: CP_QDONE advances and the next one may be fetched (R313). -/
def Dev.cmdOver (d : Dev) (q : Nat) (c : Cmd) : Dev :=
  (d.setRegFld .cpQdone [q] 22 0 (c.seq + 1)).modQueue q fun x => { x with run := none }

/-- The message of a command with IRQ set (R331). -/
def Dev.cmdIrq (d : Dev) (q : Nat) (c : Cmd) : Dev :=
  let f := d.queueFn q
  let v := d.regFld .cpQcfg [q] 10 0
  if (c.n 1 1) % 2 = 1 && d.fnOn f && decide (v < d.vecCount f) then d.msixEvent f v else d

/-- Write the record of a command that has ended; nothing happens while its line's business is in progress. A record whose ring
is no longer mapped is discarded and the queue stops (R313). -/
def Dev.putRecord (d : Dev) (q : Nat) (c : Cmd) (status info : Nat) : Dev :=
  let base := d.reg64 .cpQcbaseLo .cpQcbaseHi [q]
  let a := base + 32 * (c.seq % 2 ^ d.queueDepth q)
  let bs := d.record q c status info
  if d.regBit .cpQcfg [q] 28 then
    if d.mapped (d.queueWho q) true a 32 then
      match d.cpWriteAll (d.queueWho q) q a bs with
      | some d1 => (d1.cmdOver q c).cmdIrq q c
      | none => (d.fillWaits 0 a 32).modCmd q fun c => { c with fin := some (status, info) }
    else (d.cmdOver q c).fetchFailed q a
  else ((d.hostWrite (d.queueFn q) a bs false).cmdOver q c).cmdIrq q c

/-- The command of a queue ends with a status, a fault and INFO0. -/
def Dev.finish (d : Dev) (q status info : Nat) (fault : Nat := 0) : Dev :=
  match (d.queue q).run with
  | none => d
  | some c =>
    let c1 := if c.fault = 0 then { c with fault := fault } else c
    (d.modCmd q fun _ => c1).putRecord q c1 status info

/-- Run part of a command: on the queue's fetched command if it has this opcode and awaits no host data; one that has ended and
waits to write its record does that. -/
def Dev.withCmd (d : Dev) (q op : Nat) (f : Cmd → Dev) : Dev :=
  match (d.queue q).run with
  | none => d
  | some c =>
    if c.op ≠ op then d
    else match c.fin with
      | some (s, i) => d.putRecord q c s i
      | none => if c.host.isSome then d else f c

/-! ### Host memory (R348) -/

/-- Ask the host for bytes. -/
def Dev.hostAsk (d : Dev) (q a n : Nat) (ro : Bool) : Dev :=
  let h : HostRead := { fn := d.queueFn q, addr := a, len := n, sentAt := d.ticks }
  (d.modCmd q fun c => { c with host := some h }).emit (.hostRead h.fn a n ro)

/-- A host access may carry Relaxed Ordering (R348). -/
def Dev.copyRo (d : Dev) (q : Nat) : Bool := d.regBit .hstCtl [] 0 && (d.fn (d.queueFn q)).roEn

/-- Bytes of a queue's next read request of a transfer: at most the Max Read Request Size of its function (R339). -/
def Dev.readChunk (d : Dev) (q a n : Nat) : Nat := tlpLen (128 * 2 ^ (d.fn (d.queueFn q)).mrrs.val) a n

/-- The read of host memory that a queue awaits is given up; its answer is still to come (R349). -/
def Dev.giveUpRead (d : Dev) (q : Nat) : Dev :=
  let x := d.queue q
  let hs := x.fetch.toList ++ (x.run.bind (·.host)).toList
  if hs.isEmpty then d
  else
    { (d.modQueue q fun y => { y with fetch := none, run := y.run.map fun c => { c with host := none } }) with
      orphans := d.orphans ++ hs.map fun h => (q, h) }

/-- Gather `n` bytes at `a` of space 0 or 1 into the command's `got`, from what it has on: some device when the bytes are there,
otherwise the device as it goes on waiting. A failing read ends the command with ABORTED (R349, R484). -/
def Dev.cpGather (d : Dev) (q : Nat) (c : Cmd) (space a n : Nat) : Dev × Bool :=
  if n ≤ c.got.length then (d, true)
  else if space = 1 then (d.hostAsk q (a + c.got.length) (d.readChunk q (a + c.got.length) (n - c.got.length)) false, false)
  else match Dev.cpRead (d.queueWho q) (lineBound n) d (a + c.got.length) (n - c.got.length) [] with
    | .wait => (d.fillWaits 0 (a + c.got.length) (n - c.got.length), false)
    | .bad d1 code pa _ => ((d1.cpReadCause q code pa).finish q 0x22 0 code, false)
    | .ok d1 bs => (d1.modCmd q fun c => { c with got := c.got ++ bs }, true)

end Sys2Proof.Machine
end

