-- ==== Sys2Proof/Machine/CpQueue.lean ====
section
/-! DEFINITION. The command queues (R311 to R316): enabling and disabling them, doorbells, fetches, the packet checks, and the
answers of host memory (R349). -/

namespace Sys2Proof.Machine

/-! ### Packet checks (R314, R316) -/

/-- The bytes of a packet that an opcode uses beside the header, as offset and length; none for a reserved opcode. -/
def packetFields (op : Nat) : Option (List (Nat × Nat)) :=
  match op with
  | 0x00 => some []
  | 0x01 => some [(8, 1), (0xC, 24)]
  | 0x02 => some [(8, 1), (0x10, 8)]
  | 0x03 => some [(8, 3), (0x10, 8)]
  | 0x10 => some [(8, 3), (0x10, 12)]
  | 0x11 => some [(8, 0x22), (0x30, 16)]
  | 0x20 => some [(8, 1), (0x10, 24)]
  | 0x21 => some [(8, 1), (0x10, 24)]
  | 0x22 => some [(8, 2), (0xC, 0x28)]
  | 0x30 => some [(8, 24)]
  | 0x40 => some [(8, 2), (0xC, 28)]
  | 0x41 => some [(8, 16)]
  | 0x42 => some [(8, 2), (0xC, 4)]
  | 0x50 => some [(8, 1)]
  | 0x51 => some [(8, 3), (0x10, 16)]
  | 0x52 => some [(8, 3), (0x10, 16)]
  | _ => none

/-- Bytes 2 and 3 and every byte that no field covers are zero. -/
def reservedZero (pkt : List Byte) (fs : List (Nat × Nat)) : Bool :=
  (pkt.zipIdx).all fun x =>
    let o := x.2
    o < 2 || (4 ≤ o && o < 8) || fs.any (fun f => f.1 ≤ o && o < f.1 + f.2) || x.1 == 0

/-- Two ranges of `n` bytes overlap. -/
def overlaps (a b n : Nat) : Bool := decide (a < b + n) && decide (b < a + n)

/-- Every field of a packet lies in the range that its table gives (R314 to R328). -/
def Dev.fieldsOk (d : Dev) (q : Nat) (c : Cmd) : Bool :=
  match c.op with
  | 0x01 =>
    let k := c.n 8 1
    decide (1 ≤ k) && decide (k ≤ 6) && (List.range k).all fun i =>
      let h := c.n (0xC + 4 * i) 4
      d.queueMgr q || d.queueInst (h / 2 ^ 23) == d.queueInst q
  | 0x02 => decide (c.n 8 1 ≤ 2)
  | 0x03 => decide (c.n 8 1 ≤ 2) && decide (c.n 0xA 1 ≤ 2)
  | 0x10 => decide (c.n 8 1 ≤ 15) && decide (c.n 9 1 ≤ 1) && decide (c.n 0xA 1 ≤ 1)
  | 0x11 => decide (c.n 8 1 ≤ 15) && (decide (c.n 9 1 ≤ 15) || c.n 9 1 == 0xFF) && decide (c.n 0xA 1 ≤ 1) && decide (c.n 0xB 1 ≤ 1) &&
      c.n 0xC 4 != 0 && decide (c.n 0x28 2 ≤ 256) && (List.range 8).all fun i => nfld (c.n (0x30 + 2 * i) 2) 14 12 == 0
  | 0x20 => decide (c.n 8 1 < 16) && c.n 8 1 % 4 != 3 && c.n 8 1 / 4 != 3 && c.n 0x10 8 % 4 == 0 && c.n 0x18 8 % 4 == 0 && c.n 0x20 8 % 4 == 0 &&
      decide (4 ≤ c.n 0x20 8) && decide (c.n 0x20 8 ≤ 2 ^ 40) &&
      !(c.n 8 1 % 4 == c.n 8 1 / 4 && overlaps (c.n 0x10 8) (c.n 0x18 8) (c.n 0x20 8))
  | 0x21 => decide (c.n 8 1 < 12) && c.n 8 1 % 4 == 0 && c.n 0x18 8 % 4 == 0 && c.n 0x20 8 % 4 == 0 && decide (4 ≤ c.n 0x20 8) &&
      decide (c.n 0x20 8 ≤ 2 ^ 40)
  | 0x22 => decide (c.n 8 1 ≤ 4) && c.n 9 1 % 4 != 3 && c.n 9 1 / 4 % 4 != 3 && decide (c.n 9 1 < 32) && decide (2 ≤ c.n 0xC 4) &&
      decide (c.n 0xC 4 ≤ 4096) && c.n 0x20 8 % 128 == 0 && (c.n 8 1 != 1 || c.n 0x20 8 % (128 * c.n 0xC 4) == 0) &&
      (c.n 8 1 != 2 || c.n 0x20 8 % c.n 0xC 4 == 0)
  | 0x30 =>
    let w := c.n 0xC 4
    if c.n 8 1 = 0 then decide (c.n 9 1 < 32) && decide (c.n 0xB 1 ≤ 1) && w % 4 != 3 && nfld w 7 2 == 0 && nfld w 31 15 == 0
    else c.n 8 1 == 1 && decide (c.n 9 1 < 8) && c.n 0xA 1 != 8 && decide (c.n 0xB 1 ≤ 1) && w % 4 != 3 && nfld w 3 2 == 0 &&
      nfld w 5 4 != 3 && nfld w 31 6 == 0
  | 0x40 => decide (c.n 8 1 < 64) && decide (c.n 9 1 ≤ 1) && decide (c.n 0xC 4 < 2 ^ 20) && c.n 0x18 8 % 4096 == 0
  | 0x42 => decide (c.n 8 1 < 64) && decide (c.n 9 1 ≤ 2) && decide (c.n 0xC 4 < 2 ^ 20)
  | 0x50 => decide (c.n 8 1 ≤ 15)
  | 0x51 => decide (c.n 8 1 < d.instN) && decide (c.n 9 1 ≤ 1) && decide (c.n 0xA 1 ≤ 1)
  | 0x52 => decide (c.n 8 1 < d.instN) && decide (c.n 9 1 ≤ 1) && decide (c.n 0xA 1 ≤ 1)
  | _ => true

/-- A command that only a manager queue may issue (R316). -/
def managerOnly (c : Cmd) : Bool := c.op == 0x51 || c.op == 0x52 || (c.op == 0x30 && c.n 0xA 1 == 8)

/-- The status that refuses a packet, if one does (R314, R316). -/
def Dev.packetRefusal (d : Dev) (q : Nat) (c : Cmd) : Option Nat :=
  match packetFields c.op with
  | none => some 1
  | some fs =>
    if decide (1 < c.n 1 1) || !reservedZero c.pkt fs || !d.fieldsOk q c then some 1
    else if managerOnly c && !d.queueMgr q then some 3
    else none

/-- A packet has been fetched: a refused one completes at once, any other runs (R313, R314). -/
def Dev.fetched (d : Dev) (q : Nat) (pkt : List Byte) : Dev :=
  let s := d.cqHead q
  let c : Cmd := { seq := s, pkt := pkt }
  let d1 := (d.setRegFld .cpQhead [q] 22 0 (s + 1)).modQueue q fun x => { x with fetch := none, run := some c }
  match d1.packetRefusal q c with
  | some st => d1.finish q st 0
  | none => d1

/-! ### Enable, disable, doorbell (R311, R312) -/

/-- The rings of a queue pass the checks of an enable (R311). -/
def Dev.ringsOk (d : Dev) (q : Nat) : Bool :=
  let dep := d.queueDepth q
  let base := d.reg64 .cpQbaseLo .cpQbaseHi [q]
  let cbase := d.reg64 .cpQcbaseLo .cpQcbaseHi [q]
  decide (6 ≤ dep) && decide (dep ≤ 16) && base % 64 == 0 && cbase % 32 == 0 &&
    (!d.regBit .cpQcfg [q] 29 || d.mapped (d.queueWho q) false base (64 * 2 ^ dep)) &&
    (!d.regBit .cpQcfg [q] 28 || d.mapped (d.queueWho q) true cbase (32 * 2 ^ dep))

/-- Setting EN (R311). -/
def Dev.queueOn (d : Dev) (q : Nat) : Dev :=
  if d.ringsOk q then
    (((d.setRegBit .cpQcfg [q] 31).setRegFld .cpQtail [q] 22 0 0).setRegFld .cpQhead [q] 22 0 0).setRegFld .cpQdone [q] 22 0 0
  else d.setRegBit .cpQstate [q] 4

/-- Clearing EN stops fetching and FETCH_ERR (R311, R313). -/
def Dev.queueOff (d : Dev) (q : Nat) : Dev :=
  let d1 := if (d.queue q).fetch.isSome then d.giveUpRead q else d
  (d1.clrRegBit .cpQcfg [q] 31).clrRegBit .cpQstate [q] 3

def queueEnableEffect (q : Nat) (d : Dev) : Dev := if d.queueEn q then d else d.queueOn q
def queueDisableEffect (q : Nat) (d : Dev) : Dev := d.queueOff q

/-- A doorbell of value `v` from function `f` (R312); it waits for the posted writes that the function has sent before it (R291). -/
def doorbellEffect (f q v : Nat) (d : Dev) : Dev :=
  if d.writesWait f then d.hostHold (.doorbell f q v)
  else if (v + 2 ^ 23 - d.queueDone q) % 2 ^ 23 > 2 ^ d.queueDepth q then d.cpCause q 0x9101 0x80 (RegName.cpQtail.addr [q])
  else d.setRegFld .cpQtail [q] 22 0 v

/-! ### Fetch (R313) -/

/-- A queue has a fetchable command: it is enabled and not held, nothing runs, a command waits, its function is in D0 and in no reset (R311, R313,
R326, R345, R347). -/
def Dev.fetchable (d : Dev) (q : Nat) : Bool :=
  d.queueEn q && !d.queueStopped q && !d.queueErr q && d.queueIdle q && d.cqHead q != d.queueTail q && !(d.fn (d.queueFn q)).d3 &&
    !(d.fn (d.queueFn q)).flr

/-- Of whose commands a queue's are one, where the cores of the command processor take them in turn: its instance's, or 8, the manager queues'
(R364). -/
def Dev.fetchGroup (d : Dev) (q : Nat) : Nat := if d.queueMgr q then 8 else d.queueInst q
/-- Places in turn after the one that a core has served last. -/
def Dev.fetchPlace (d : Dev) (g : Nat) : Nat := (g + 8 - d.cpTurn) % 9
/-- One of the four cores (R338) runs no command: each holds its core until it completes (R364). -/
def Dev.coreFree (d : Dev) : Bool := decide ((d.queues.keys.filter fun q => !d.queueIdle q).length < 4)

/-- A free core takes the next command of a queue: the cores serve the instances, and the manager queues, that have one round-robin (R364). -/
def Dev.mayFetch (d : Dev) (q : Nat) : Bool :=
  d.fetchable q && d.coreFree && (List.range 512).all fun p => !d.fetchable p || decide (d.fetchPlace (d.fetchGroup q) ≤ d.fetchPlace (d.fetchGroup p))

/-- A core takes the next command of a queue: the turn has come to its group. -/
def Dev.taken (d : Dev) (q : Nat) : Dev := { d with cpTurn := d.fetchGroup q }

/-- A free core takes the queue's next command, whose packet is fetched as one 64-byte read (R313); one that meets a fenced home has that cause beside the queue's own (R249), and
an unmapped ring has not (R313). -/
def queueFetchEffect (q : Nat) (d : Dev) : Dev :=
  if !d.mayFetch q then d
  else
    let a := d.reg64 .cpQbaseLo .cpQbaseHi [q] + 64 * (d.cqHead q % 2 ^ d.queueDepth q)
    if d.regBit .cpQcfg [q] 29 then
      match Dev.cpRead (d.queueWho q) 2 (d.taken q) a 64 [] with
      | .wait => d.fillWaits 0 a 64
      | .bad d1 code pa _ => (if code = 0x5108 then d1.cpReadCause q code pa else d1).fetchFailed q a
      | .ok d1 bs => d1.fetched q bs
    else
      let h : HostRead := { fn := d.queueFn q, addr := a, len := 64, sentAt := d.ticks }
      ((d.taken q).modQueue q fun x => { x with fetch := some h }).emit (.hostRead h.fn a 64 false)

/-! ### Answers of host memory (R349) -/

/-- The oldest read of a queue that it no longer waits for. -/
def Dev.orphan (d : Dev) (q : Nat) : Option HostRead := (d.orphans.find? (·.1 == q)).map (·.2)
def Dev.dropOrphan (d : Dev) (q : Nat) : Dev :=
  match d.orphans.find? (·.1 == q) with
  | some x => { d with orphans := d.orphans.erase x }
  | none => d

/-- A read of host memory fails, which is cause 0x9202: a fetch stops its queue, a command ends with ABORTED (R349). A queue's reads are
answered in order. -/
def Dev.hostFailed (d : Dev) (q : Nat) (e : Option AerErr) : Dev :=
  let x := d.queue q
  match d.orphan q with
  | some h => (d.dropOrphan q).hstCause h.fn 0x9202 1 0x68 h.addr e
  | none => match x.fetch with
  | some h => ((d.modQueue q fun y => { y with fetch := none }).hstCause h.fn 0x9202 1 0x68 h.addr e).fetchFailed q h.addr
  | none => match x.run with
    | some c => match c.host with
      | some h =>
        ((d.modCmd q fun y => { y with host := none }).hstCause h.fn 0x9202 1 0x68 h.addr e).finish q 0x22
          (if c.op = 0x20 ∨ c.op = 0x21 then c.off else 0) 0x9202
      | none => d
    | none => d

/-- A completion of a device read arrives: its status (0 SC, 1 UR, 2 CA), EP and data (R349). -/
def hostReadCompletionEffect (q st : Nat) (ep : Bool) (data : List Byte) (d : Dev) : Dev :=
  let x := d.queue q
  if st ≠ 0 ∨ ep then d.hostFailed q (if st = 1 then some .unsupported else if st = 2 then some .completerAbort else none)
  else if (d.orphan q).isSome then d.dropOrphan q
  else match x.fetch with
    | some h => if data.length = h.len then d.fetched q data else d
    | none => match x.run with
      | some c => match c.host with
        | some h => if data.length = h.len then d.modCmd q fun y => { y with host := none, got := y.got ++ data } else d
        | none => d
      | none => d

/-- The tick in which the oldest read of a queue has waited for its function's Completion Timeout Value (R349). -/
def Dev.hostDue (d : Dev) (q : Nat) : Option Nat :=
  let h := (d.orphan q).orElse fun _ => (d.queue q).fetch.orElse fun _ => (d.queue q).run.bind (·.host)
  h.map fun h => h.sentAt + (d.fn h.fn).cto

/-- A completion has not come in time. -/
def completionTimeoutEffect (q : Nat) (d : Dev) : Dev :=
  if (d.hostDue q).all (d.ticks < ·) then d else d.hostFailed q (some .completionTimeout)

/-! ### The commands -/

section
variable (q : QueueIx) (s : State)

def execQueueEnable := s.runLive (queueEnableEffect q)
def execQueueDisable := s.runLive (queueDisableEffect q)
/-- The function that owns the queue rings it. -/
def execDoorbell (v : Fin 8388608) (s : State) := s.runLive fun d => doorbellEffect (d.queueFn q) q v d
def execQueueFetch := s.runLive (queueFetchEffect q)
def execHostReadCompletion (st : Fin 3) (ep : Bool) (data : List Byte) (s : State) := s.runLive (hostReadCompletionEffect q st ep data)
end

end Sys2Proof.Machine
end

