-- ==== Sys2Proof/Machine/CpData.lean ====
section
/-! DEFINITION. The plain commands (R322, R328): NOP, FENCE, TIMESTAMP, QUERY, COPY and FILL; and what the fabric tells a command
whose operations it carries (R379, R383). -/

namespace Sys2Proof.Machine

/-! ### Fabric operations of a command -/

/-- An operation of a queue's command is acknowledged, or all of its data has come; a write moves INFO0 on by its bytes. -/
def Dev.cpAck (d : Dev) (q seq len : Nat) : Dev :=
  d.modCmd q fun c => if c.seq ≠ seq then c else { c with acks := c.acks - 1, off := if c.phase = 2 && c.bad.isNone then c.off + len else c.off }

/-- Bytes of a fabric read of a queue's command arrive, at an offset of the read. -/
def Dev.cpData (d : Dev) (q seq off : Nat) (bs : List Byte) (poison : Bool) : Dev :=
  d.modCmd q fun c =>
    if c.seq ≠ seq then c else
    { c with
      rx := c.rx ++ [(off, bs)]
      bad := if poison && c.bad.isNone then some (0x22, 0x3205, 0) else c.bad }

/-- An operation of a queue's command fails: status, fault code, STATUS of a refusal (R379, R384). -/
def Dev.cpBad (d : Dev) (q seq status fault ref : Nat) : Dev :=
  d.modCmd q fun c => if c.seq ≠ seq then c else { c with acks := c.acks - 1, bad := if c.bad.isNone then some (status, fault, ref) else c.bad }

/-- The bytes that a finished fabric read has brought, in order of offset. -/
def rxBytes (rx : List (Nat × List Byte)) (n : Nat) : List Byte :=
  let m := rx.foldl (fun (m : Mem) x => m.writeBytes x.1 x.2) ⟨[]⟩
  m.readBytes 0 n

/-- The cause of a command whose fabric address has no peer to take it, or a bad alias (R373, R374, R390). -/
def Dev.noPeer (d : Dev) (q a : Nat) : Dev :=
  d.raise .fabErrStatus [] 10 { code := 0x6205, master := 0xF820, access := 0x71, addr := a, inst := d.queueCharge q, die := none }

/-! ### NOP, FENCE -/

def nopEffect (q : Nat) (d : Dev) : Dev := d.withCmd q 0x00 fun _ => d.finish q 0 0

/-- The command with a handle is complete (R328). -/
def Dev.handleDone (d : Dev) (h : Nat) : Bool :=
  decide ((d.queueDone (h / 2 ^ 23) + 2 ^ 24 - h % 2 ^ 23 - 1) % 2 ^ 23 < 2 ^ 22)

/-- Every handle that a FENCE names is complete. -/
def Dev.fenceDone (d : Dev) (c : Cmd) : Bool := (List.range (c.n 8 1)).all fun i => d.handleDone (c.n (0xC + 4 * i) 4)

def fenceEffect (q : Nat) (d : Dev) : Dev :=
  d.withCmd q 0x01 fun c => if d.fenceDone c then d.finish q 0 0 else d.modCmd q fun x => { x with phase := 1 }

def fenceCompleteEffect (q : Nat) (d : Dev) : Dev :=
  d.withCmd q 0x01 fun c => if c.phase = 1 && d.fenceDone c then d.finish q 0 0 else d

/-! ### TIMESTAMP, QUERY -/

/-- An answer that the fabric carries ends its command as it is acknowledged, with the INFO0 kept (R315, R379). -/
def Dev.answerEnd (d : Dev) (q : Nat) (c : Cmd) : Dev :=
  if c.acks ≠ 0 then d
  else match c.bad with
    | some (st, f, _) => d.finish q st 0 f
    | none => d.finish q 0 (leNat c.got)

/-- Write the bytes of a command's answer and end it; a device address is checked first, and so is a fabric one, whose write is then
awaited (R315, R373, R374). -/
def Dev.answer (d : Dev) (q : Nat) (c : Cmd) (space a : Nat) (bs : List Byte) (info : Nat) : Dev :=
  if c.phase = 2 then d.answerEnd q c
  else if space = 1 then (d.hostWrite (d.queueFn q) a bs false).finish q 0 info
  else if space = 2 then
    match d.fabTarget (d.queueInst q) a true with
    | none => (d.noPeer q a).finish q 2 0 0x6205
    | some i =>
      if d.peerDown i then d.finish q 0x22 0 0x6201
      else
        let r := (d.modCmd q fun x => { x with phase := 2, got := leBytes info 8 }).fabWrite (d.queueInst q) i a bs (.queue q c.seq)
        r.2.modCmd q fun x => { x with acks := r.1 }
  else if !d.mapped (d.queueWho q) true a bs.length then d.finish q 2 0
  else match d.cpWriteAll (d.queueWho q) q a bs with
    | none => d.fillWaits 0 a bs.length
    | some d1 => d1.finish q 0 info

def timestampEffect (q : Nat) (d : Dev) : Dev :=
  d.withCmd q 0x02 fun c => d.answer q c (c.n 8 1) (c.n 0x10 8) (leBytes d.time 8) d.time

/-- CP_QSTATE as it reads (R338). -/
def Dev.qstateLive (d : Dev) (q : Nat) : W32 :=
  let contends := match (d.queue q).run with
    | some c => match c.launch with
      | some l => l.contends
      | none => false
    | none => false
  setFld (setFld (d.reg .cpQstate [q]) 0 0 (b2n (d.queueIdle q))) 1 1 (b2n contends)

/-- A queue's registers in offset order (R338). -/
def Dev.queueRegs (d : Dev) (q : Nat) : List W32 :=
  (([.cpQbaseLo, .cpQbaseHi, .cpQcfg, .cpQtail, .cpQhead, .cpQdone, .cpQcbaseLo, .cpQcbaseHi] : List RegName).map fun r => d.reg r [q]) ++
    [d.qstateLive q, BitVec.ofInt 32 (d.queue q).budget]

/-- Bit mask of an instance's dies. -/
def Dev.instDies (d : Dev) (k : Nat) : Nat := (List.range 8).foldl (fun m i => if d.instOfDie i = k then m + 2 ^ i else m) 0

/-- The 64 bytes of QUERY (R328); the manual gives their contents and not their places, see the assumption log. -/
def Dev.queryBytes (d : Dev) (q what index : Nat) : List Byte :=
  let k := d.queueInst q
  let bs := match what with
    | 0 => leBytes (d.reg64 .datFeatLo .datFeatHi []) 8 ++ leBytes (d.reg .datDevops []).toNat 4 ++ leBytes d.instN 1 ++ leBytes (d.instDies k) 1
    | 1 => match d.slots.find? (16 * k + index) with
      | some s => leBytes 1 1 ++ (s.progId ++ leBytes 0 16).take 16 ++ leBytes s.contexts 4 ++ leBytes s.split 1
      | none => []
    | _ => (d.queueRegs (k * (512 / d.instN) + index)).flatMap fun w => leBytes w.toNat 4
  (bs ++ leBytes 0 64).take 64

def queryEffect (q : Nat) (d : Dev) : Dev :=
  d.withCmd q 0x03 fun c =>
    let what := c.n 8 1
    let index := c.n 9 1
    if (what = 1 ∧ 16 ≤ index) ∨ (what = 2 ∧ 512 / d.instN ≤ index) then d.finish q 1 0
    else d.answer q c (c.n 0xA 1) (c.n 0x10 8) (d.queryBytes q what index) 0

/-! ### COPY, FILL (R322) -/

/-- Eight bytes repeated, from byte `o` on. -/
def patternBytes (p o n : Nat) : List Byte := (List.range n).map fun i => BitVec.ofNat 8 (p >>> (8 * ((o + i) % 8)))

/-- One side of a transfer passes the checks made before any byte moves (R315, R373, R374). -/
def Dev.sideOk (d : Dev) (q space a n : Nat) (wr : Bool) : Bool :=
  match space with
  | 0 => d.mapped (d.queueWho q) wr a n
  | 1 => true
  | _ => (d.fabTarget (d.queueInst q) a wr).isSome

/-- Write a chunk that a transfer holds: answers whether it may go on. -/
def Dev.copyOut (d : Dev) (q : Nat) (c : Cmd) (space dst n : Nat) : Dev × Bool :=
  let bs := c.got.take n
  let next (x : Cmd) : Cmd := { x with off := c.off + n, got := c.got.drop n }
  match space with
  | 0 => match d.cpWriteAll (d.queueWho q) q dst bs with
    | none => (d.fillWaits 0 dst bs.length, false)
    | some d1 => (d1.modCmd q next, true)
  | 1 => ((d.hostWrite (d.queueFn q) dst bs (d.copyRo q)).modCmd q next, true)
  | _ => match d.fabTarget (d.queueInst q) dst true with
    | none => (d.finish q 2 c.off, false)
    | some i =>
      if d.peerDown i then (d.finish q 0x22 c.off 0x6201, false) else
      let (k, d1) := (d.modCmd q fun x => { x with phase := 2, got := c.got.drop n }).fabWrite (d.queueInst q) i dst bs (.queue q c.seq)
      (d1.modCmd q fun x => { x with acks := k }, false)

/-- Fetch the next chunk of a COPY's source: answers whether it has come. -/
def Dev.copyIn (d : Dev) (q : Nat) (c : Cmd) (space src n : Nat) : Dev × Bool :=
  match space with
  | 0 => match Dev.cpRead (d.queueWho q) (lineBound n) d src n [] with
    | .wait => (d.fillWaits 0 src n, false)
    | .bad d1 code pa _ => ((d1.cpReadCause q code pa).finish q 0x22 c.off code, false)
    | .ok d1 bs => (d1.modCmd q fun x => { x with got := bs }, true)
  | 1 => (d.hostAsk q src n (d.copyRo q), false)
  | _ => match d.fabTarget (d.queueInst q) src false with
    | none => (d.finish q 2 c.off, false)
    | some i =>
      if d.peerDown i then (d.finish q 0x22 c.off 0x6201, false) else
      let (k, d1) := d.fabRead (d.queueInst q) i src n 0 (.queue q c.seq)
      (d1.modCmd q fun x => { x with phase := 1, acks := k, rx := [] }, false)

/-- The next part of a COPY (`op` 0x20) or FILL: a chunk read, or a chunk written. Answers whether it may go on at once. -/
def Dev.copyPart (q op : Nat) (d : Dev) : Dev × Bool :=
  match (d.queue q).run with
  | none => (d, false)
  | some c =>
    let total := c.n 0x20 8
    let sp := c.n 8 1
    let src := c.n 0x10 8 + c.off
    let dst := c.n 0x18 8 + c.off
    let left := total - c.off
    let n0 := min left (4096 - dst % 4096)
    let n := if op = 0x21 then n0 else if sp % 4 = 1 then d.readChunk q src n0 else min n0 (if sp % 4 = 0 then 128 - src % 128 else 4096 - src % 4096)
    match c.bad with
    | some (st, f, _) => if c.acks = 0 then (d.finish q st c.off f, false) else (d, false)
    | none =>
      if c.fin.isSome || c.host.isSome || c.acks != 0 then (d, false)
      else if total ≤ c.off then (d.finish q 0 total, false)
      else if c.phase = 1 then (d.modCmd q fun x => { x with phase := 0, got := rxBytes c.rx n, rx := [] }, true)
      else if c.phase = 2 then (d.modCmd q fun x => { x with phase := 0 }, true)
      else if op = 0x21 then
        if c.got.isEmpty then (d.modCmd q fun x => { x with got := patternBytes (c.n 0x10 8) c.off n }, true) else d.copyOut q c (sp / 4) dst n
      else if c.got.length < n then d.copyIn q c (sp % 4) src n
      else d.copyOut q c (sp / 4) dst n

/-- Go on while parts can. -/
def Dev.copyRun (q op : Nat) : Nat → Dev → Dev
  | 0, d => d
  | f + 1, d => let r := d.copyPart q op; if r.2 then Dev.copyRun q op f r.1 else r.1

/-- A transfer begins with its checks, and then goes on as far as it can. -/
def Dev.transfer (d : Dev) (q op : Nat) (c : Cmd) : Dev :=
  let total := c.n 0x20 8
  let sp := c.n 8 1
  let fresh := c.off = 0 && c.phase = 0 && c.got.isEmpty && c.acks = 0 && c.bad.isNone
  let okIn := op == 0x21 || d.sideOk q (sp % 4) (c.n 0x10 8) total false
  let okOut := d.sideOk q (sp / 4) (c.n 0x18 8) total true
  if fresh && !(okIn && okOut) then
    let d1 := if !okIn && sp % 4 = 2 then d.noPeer q (c.n 0x10 8) else if okIn && sp / 4 = 2 then d.noPeer q (c.n 0x18 8) else d
    d1.finish q 2 0 (if (!okIn && sp % 4 = 2) || (okIn && sp / 4 = 2) then 0x6205 else 0)
  else Dev.copyRun q op (total + 16) d

def copyEffect (q : Nat) (d : Dev) : Dev := d.withCmd q 0x20 (d.transfer q 0x20)
def fillEffect (q : Nat) (d : Dev) : Dev := d.withCmd q 0x21 (d.transfer q 0x21)

/-! ### The commands -/

section
variable (q : QueueIx) (s : State)

def execNop := s.runLive (nopEffect q)
def execFence := s.runLive (fenceEffect q)
def execFenceComplete := s.runLive (fenceCompleteEffect q)
def execTimestamp := s.runLive (timestampEffect q)
def execQuery := s.runLive (queryEffect q)
def execCopy := s.runLive (copyEffect q)
def execFill := s.runLive (fillEffect q)
end

end Sys2Proof.Machine
end

