-- ==== Sys2Proof/Machine/Collective.lean ====
section
/-! DEFINITION. COLLECTIVE (R323, R388, R389): the chain of reductions of an all-reduce and a reduce-scatter, all-gather, broadcast
and barrier, in chunks of 64 KiB. Sub-types of COLL frames: 0 READY, 1 DONE (the manual gives no numbers). -/

namespace Sys2Proof.Machine

/-! ### Fields and members -/

def Cmd.collKind (c : Cmd) : Nat := c.n 8 1
def Cmd.collOp (c : Cmd) : Nat := c.n 9 1 % 4
def Cmd.collTy (c : Cmd) : Nat := c.n 9 1 / 4 % 4
def Cmd.collOrdered (c : Cmd) : Bool := c.n 9 1 / 16 % 2 == 1
def Cmd.collN (c : Cmd) : Nat := c.n 0xC 4
def Cmd.collSrc (c : Cmd) : Nat := c.n 0x10 8
def Cmd.collDst (c : Cmd) : Nat := c.n 0x18 8
def Cmd.collBytes (c : Cmd) : Nat := c.n 0x20 8
def Cmd.collGen (c : Cmd) : Nat := c.n 0x30 4

/-- The device IDs of LIST, once it has been read. -/
def Cmd.collList (c : Cmd) : List Nat := (List.range c.collN).map fun i => leNat ((c.got.drop (4 * i)).take 4) % 2 ^ 20

/-- The members L0 to Lk: as listed, or in ascending device ID (R106). -/
def Cmd.members (c : Cmd) : List Nat := if c.collOrdered then c.collList else c.collList.mergeSort (· ≤ ·)

/-- Bytes that a member contributes, and those of each chunk. -/
def Cmd.collSeg (c : Cmd) : Nat := c.collBytes / c.collN
def Cmd.collTotal (c : Cmd) : Nat := match c.collKind with
  | 2 => c.collSeg
  | 4 => 1
  | _ => c.collBytes
def Cmd.chunks (c : Cmd) : Nat := (c.collTotal + 65535) / 65536
def Cmd.chunkLen (c : Cmd) (k : Nat) : Nat := min 65536 (c.collTotal - 65536 * k)

/-- The number of a member in the list as the packet gives it. -/
def Cmd.listIndex (c : Cmd) (id : Nat) : Nat := (c.collList.idxOf? id).getD 0

/-! ### Ending -/

/-- A COLLECTIVE ends; messages it has not used wait for the next one of its generation. -/
def Dev.collEnd (d : Dev) (q : Nat) (c : Cmd) (st info fault : Nat) : Dev :=
  let left := if st = 0 then c.coll.map fun m => (d.queueInst q, c.collGen, m) else []
  ({ d with collHeld := d.collHeld ++ left } : Dev).finish q st info fault

/-! ### What a member does with bytes -/

/-- Reduce bytes into device memory line by line (R267): none while some line's business is in progress; a line that is poisoned ends it,
its cause recorded, and the answer is false (R270). -/
def Dev.cpReduce (who : Who) (q op ty : Nat) : Nat → Dev → Nat → List Byte → Option (Dev × Bool)
  | 0, d, _, _ => some (d, true)
  | f + 1, d, a, bs =>
    match bs with
    | [] => some (d, true)
    | _ =>
      let k := min bs.length (128 - a % 128)
      let rest := Dev.cpReduce who q op ty f
      match d.access who a with
      | none => rest (d.cpWriteLost q 0x3101 a) (a + k) (bs.drop k)
      | some l => match d.cohReduce l a op ty (linePut (a % 128) (bs.take k)) (beRange (a % 128) k) with
        | .wait => none
        | .lost => rest (d.cpWriteLost q 0x5108 a) (a + k) (bs.drop k)
        | .ok d1 _ poison => if poison then some (d1, false) else rest d1 (a + k) (bs.drop k)

/-- The fabric address at a member: its device ID, an alias, and a local address (R373). -/
def memberAddr (id al a : Nat) : Nat := id * 2 ^ 44 + al * 2 ^ 40 + a

/-- The alias of a reduction (R373). -/
def Cmd.collAlias (c : Cmd) : Nat := 1 + 3 * c.collOp + c.collTy

/-- Send bytes to a member, as a plain write or (`al`) a reduction; the frames are counted as outstanding. -/
def Dev.toMember (d : Dev) (q : Nat) (c : Cmd) (id al a : Nat) (bs : List Byte) : Dev :=
  match d.findPeer (d.queueInst q) id with
  | none => d
  | some i =>
    let r := d.fabWrite (d.queueInst q) i (memberAddr id al a) bs (.queue q c.seq)
    r.2.modCmd q fun x => { x with acks := x.acks + r.1 }

/-- Send a COLL frame to a member (R375, R388). -/
def Dev.collSend (d : Dev) (q : Nat) (c : Cmd) (id sub k : Nat) : Dev :=
  match d.findPeer (d.queueInst q) id with
  | none => d
  | some i => d.sendSeq i { op := 0x08, src := d.ownId (d.queueInst q), dst := id, laddr := c.collGen + k * 2 ^ 32, tag := sub } (.queue q c.seq)

/-- A message has come; the command without it. -/
def Cmd.takeColl (c : Cmd) (sub id k : Nat) : Option Cmd :=
  if c.coll.contains (sub, id, k) then some { c with coll := c.coll.erase (sub, id, k) } else none

/-- Take the same message from several members, or none. -/
def Cmd.takeAll (c : Cmd) (sub k : Nat) : List Nat → Option Cmd
  | [] => some c
  | id :: ids => (c.takeColl sub id k).bind fun c1 => c1.takeAll sub k ids

/-! ### One step of one chunk -/

/-- What a step of a chunk gives: nothing to do now; bytes of device memory that are waited for; a failed access; or the device after
it. -/
inductive CollStep where
  | none
  | wait (a n : Nat)
  | fail (d : Dev) (fault : Nat)
  | go (d : Dev)

/-- Read local bytes and go on with them. -/
def Dev.collRead (d : Dev) (q a n : Nat) (f : Dev → List Byte → CollStep) : CollStep :=
  match Dev.cpRead (d.queueWho q) (lineBound n) d a n [] with
  | .wait => .wait a n
  | .bad d1 code pa _ => .fail (d1.cpReadCause q code pa) code
  | .ok d1 bs => f d1 bs

def Dev.setStage (d : Dev) (q k st : Nat) : Dev := d.modCmd q fun x => { x with stage := x.stage.set k st }

/-- Chunk `k` of the chain of R388 at member `j`. -/
def Dev.chainStep (d : Dev) (q : Nat) (c : Cmd) (ms : List Nat) (j k : Nat) : CollStep :=
  let top := ms.length - 1
  let id (i : Nat) : Nat := ms.getD i 0
  let n := c.chunkLen k
  let src := c.collSrc + 65536 * k
  let dst := c.collDst + 65536 * k
  let upDone := decide (n ≤ c.redGot.getD k 0)
  match c.stage.getD k 0 with
  | 0 =>
    if j = 0 then .go (d.setStage q k 1)
    else match d.cpWriteAll (d.queueWho q) q dst (List.replicate n 0) with
      | none => .wait dst n
      | some d1 => d1.collRead q src n fun d2 bs => match Dev.cpReduce (d.queueWho q) q c.collOp c.collTy (lineBound n) d2 dst bs with
        | none => .wait dst n
        | some (d3, false) => .fail d3 0x2506
        | some (d3, true) => .go ((d3.collSend q c (id (j - 1)) 0 k).setStage q k 1)
  | 1 =>
    if j = top then
      if upDone then d.collRead q dst n fun d1 bs =>
        let others := (List.range top).map fun i => (i, id i)
        let part (i : Nat) : Nat × Nat :=
          if c.collKind = 0 then (0, n)
          else
            let lo := max (i * c.collSeg) (65536 * k)
            let hi := min ((i + 1) * c.collSeg) (65536 * k + n)
            (lo - 65536 * k, hi - lo)
        let d2 := others.foldl (fun d x =>
          let p := part x.1
          (if p.2 = 0 then d else d.toMember q c x.2 0 (dst + p.1) ((bs.drop p.1).take p.2)).collSend q c x.2 1 k) d1
        .go (d2.setStage q k 3)
      else .none
    else if j ≠ 0 ∧ !upDone then .none
    else match c.takeColl 0 (id (j + 1)) k with
      | none => .none
      | some c1 => d.collRead q (if j = 0 then src else dst) n fun d1 bs =>
        .go (((d1.modCmd q fun x => { x with coll := c1.coll }).toMember q c (id (j + 1)) c.collAlias dst bs).setStage q k 2)
  | 2 => match c.takeColl 1 (id top) k with
    | none => .none
    | some c1 => .go ((d.modCmd q fun x => { x with coll := c1.coll }).setStage q k 3)
  | _ => .none

/-- Chunk `k` of an all-gather at member `j` (R389). -/
def Dev.gatherStep (d : Dev) (q : Nat) (c : Cmd) (ms : List Nat) (j k : Nat) : CollStep :=
  let others := ms.zipIdx.filterMap fun x => if x.2 = j then none else some x.1
  let n := c.chunkLen k
  let dst := c.collDst + j * c.collSeg + 65536 * k
  match c.stage.getD k 0 with
  | 0 => d.collRead q (c.collSrc + 65536 * k) n fun d1 bs => match d1.cpWriteAll (d.queueWho q) q dst bs with
    | none => .wait dst n
    | some d2 => .go ((others.foldl (fun d m => (d.toMember q c m 0 dst bs).collSend q c m 1 k) d2).setStage q k 1)
  | 1 => match c.takeAll 1 k others with
    | none => .none
    | some c1 => .go ((d.modCmd q fun x => { x with coll := c1.coll }).setStage q k 3)
  | _ => .none

/-- Chunk `k` of a broadcast at member `j` (R389). -/
def Dev.castStep (d : Dev) (q : Nat) (c : Cmd) (ms : List Nat) (j k : Nat) : CollStep :=
  let n := c.chunkLen k
  if c.stage.getD k 0 = 3 then .none
  else if j = 0 then d.collRead q (c.collSrc + 65536 * k) n fun d1 bs =>
    .go (((ms.drop 1).foldl (fun d m => (d.toMember q c m 0 (c.collDst + 65536 * k) bs).collSend q c m 1 k) d1).setStage q k 3)
  else match c.takeColl 1 (ms.getD 0 0) k with
    | none => .none
    | some c1 => .go ((d.modCmd q fun x => { x with coll := c1.coll }).setStage q k 3)

/-- Ask L0 to add 1 to its word (R378, R389). -/
def Dev.barrierAsk (d : Dev) (q : Nat) (c : Cmd) (l0 : Nat) : Dev :=
  match d.findPeer (d.queueInst q) l0 with
  | none => d
  | some i =>
    let t := d.nextTag % 65536
    let d1 : Dev := { d with
      nextTag := d.nextTag + 1
      fabReads := d.fabReads.set t { owner := .queue q c.seq, peer := i, laddr := c.collDst, len := 4, off := 0, row := 1 } }
    (d1.sendSeq i { op := 0x05, src := d.ownId (d.queueInst q), dst := l0, laddr := c.collDst, len := 16, tag := t
                    data := leBytes 0x10 4 ++ leBytes 1 4 ++ leBytes 0 8 } (.queue q c.seq)).modCmd q fun x => { x with acks := x.acks + 1 }

/-- A barrier at member `j` (R389). -/
def Dev.barrierStep (d : Dev) (q : Nat) (c : Cmd) (ms : List Nat) (j : Nat) : CollStep :=
  let others := ms.zipIdx.filterMap fun x => if x.2 = j then none else some x.1
  match c.stage.getD 0 0 with
  | 0 =>
    if j = 0 then match d.access (d.queueWho q) c.collDst with
      | none => .fail d 0
      | some l => match d.cohAtomic l c.collDst 0x10 (c.collDst % 128) 1 0 with
        | .wait => .wait c.collDst 4
        | .lost => .fail (d.cpReadCause q 0x5108 c.collDst) 0x5108
        | .ok d1 v poison =>
          if poison then .fail d1 0x2506
          else .go ((d1.modCmd q fun x => { x with old := some (v.toNat % 2 ^ 32) }).setStage q 0 1)
    else .go ((d.barrierAsk q c (ms.getD 0 0)).setStage q 0 1)
  | 1 => match c.old with
    | none => .none
    | some v =>
      if (v + 1) % c.collN = 0 then .go ((others.foldl (fun d m => d.collSend q c m 1 0) d).setStage q 0 3) else .go (d.setStage q 0 2)
  | 2 => match others.findSome? fun m => c.takeColl 1 m 0 with
    | none => .none
    | some c1 => .go ((d.modCmd q fun x => { x with coll := c1.coll }).setStage q 0 3)
  | _ => .none

/-! ### The command -/

/-- The chunks that may be worked on: the first eight not finished (R388). -/
def Cmd.openChunks (c : Cmd) : List Nat := ((List.range c.chunks).filter fun k => c.stage.getD k 0 != 3).take 8

/-- The member whose writes complete the command (R388, R389); every other one completes on what it has been told. -/
def Cmd.waitsAcks (c : Cmd) (j top : Nat) : Bool :=
  match c.collKind with
  | 3 => j == 0
  | 4 => false
  | 2 => true
  | _ => j == top

/-- One step of some open chunk, if one can be taken: answers whether there may be more. -/
def Dev.collAny (d : Dev) (q : Nat) (c : Cmd) (ms : List Nat) (j : Nat) : List Nat → Dev × Bool
  | [] => (d, false)
  | k :: ks =>
    let r := match c.collKind with
      | 2 => d.gatherStep q c ms j k
      | 3 => d.castStep q c ms j k
      | 4 => d.barrierStep q c ms j
      | _ => d.chainStep q c ms j k
    match r with
    | .none => d.collAny q c ms j ks
    | .wait a n => (d.fillWaits 0 a n).collAny q c ms j ks
    | .fail d1 f => (d1.collEnd q c (if f = 0 then 2 else 0x22) 0 f, false)
    | .go d1 => (d1, true)

/-- Work on a COLLECTIVE that has begun as far as it can go; the first argument bounds the steps. -/
def Dev.collRun (q : Nat) : Nat → Dev → Dev
  | 0, d => d
  | f + 1, d => match (d.queue q).run with
    | none => d
    | some c =>
      let ms := c.members
      let j := (ms.idxOf? (d.ownId (d.queueInst q))).getD 0
      if c.fin.isSome then d
      else match c.bad with
      | some (st, fault, ref) => d.collEnd q c st (if st = 0x30 then ref else 0) fault
      | none =>
        if c.openChunks.isEmpty then
          if c.waitsAcks j (ms.length - 1) && c.acks != 0 then d else d.collEnd q c 0 0 0
        else
          let r := d.collAny q c ms j c.openChunks
          if r.2 then Dev.collRun q f r.1 else r.1

/-- The checks of a COLLECTIVE whose LIST has been read, and its beginning. -/
def Dev.collBegin (d : Dev) (q : Nat) (c : Cmd) : Dev :=
  let inst := d.queueInst q
  let own := d.ownId inst
  let others := c.collList.filter (· != own)
  match others.find? fun id => match d.findPeer inst id with
      | some i => !d.peerSystem i
      | none => true with
  | some id => (d.noPeer q (memberAddr id 0 c.collDst)).finish q 2 0 0x6205
  | none =>
    if !c.collList.contains own then d.finish q 1 0
    else match others.find? fun id => (d.findPeer inst id).any d.peerDown with
      | some id => d.finish q 0x30 (c.listIndex id) 0x6201
      | none =>
        let mine (x : Nat × Nat × Nat × Nat × Nat) : Bool := x.1 == inst && x.2.1 == c.collGen
        let held := (d.collHeld.filter mine).map fun x => x.2.2
        let d1 : Dev := { d with collHeld := d.collHeld.filter fun x => !(x.1 == inst && decide (x.2.1 ≤ c.collGen)) }
        d1.modCmd q fun x => { x with phase := 1, off := d.ticks, coll := held }

/-- The address checks of R315. -/
def Dev.collMapped (d : Dev) (q : Nat) (c : Cmd) : Bool :=
  let who := d.queueWho q
  d.mapped who false (c.n 0x28 8) (4 * c.collN) &&
    (c.collKind == 4 || (d.mapped who false c.collSrc c.collTotal && d.mapped who true c.collDst c.collBytes))

def collectiveEffect (q : Nat) (d : Dev) : Dev :=
  d.withCmd q 0x22 fun c =>
    if c.phase = 1 then Dev.collRun q (4 * c.chunks + 4) d
    else if !d.collMapped q c then d.finish q 2 0
    else match d.cpGather q c 0 (c.n 0x28 8) (4 * c.collN) with
      | (d1, false) => d1
      | (d1, true) => match (d1.queue q).run with
        | none => d1
        | some c1 => Dev.collRun q (4 * c.chunks + 4) (d1.collBegin q c1)

/-- The members that a COLLECTIVE waits for: those whose messages it still needs and those with frames outstanding. -/
def Dev.collAwaited (d : Dev) (q : Nat) (c : Cmd) : List Nat :=
  let ms := c.members
  let inst := d.queueInst q
  let j := (ms.idxOf? (d.ownId inst)).getD 0
  let top := ms.length - 1
  let id (i : Nat) : Nat := ms.getD i 0
  let need := c.openChunks.flatMap fun k => match c.collKind, c.stage.getD k 0 with
    | 2, _ => (ms.filter (· != id j)).filter fun m => !c.coll.contains (1, m, k)
    | 3, _ => if j = 0 then [] else [id 0]
    | 4, 1 => [id 0]
    | 4, _ => ms.filter (· != id j)
    | _, 1 =>
      (if j ≠ 0 ∧ c.redGot.getD k 0 < c.chunkLen k then [id (j - 1)] else []) ++
        (if j ≠ top ∧ !c.coll.contains (0, id (j + 1), k) then [id (j + 1)] else [])
    | _, _ => [id top]
  let out := ms.filter fun m => (d.findPeer inst m).any fun i =>
    ((d.peer i).bulk.unacked ++ (d.peer i).bulk.backlog).any fun x => x.owner == .queue q c.seq
  need ++ out

/-- The tick in which a COLLECTIVE has been running for CP_COLL_TMO. -/
def Dev.collDue (d : Dev) (q : Nat) : Option Nat :=
  (d.queue q).run.bind fun c => if c.op = 0x22 ∧ c.phase = 1 then some (c.off + d.ticksOf .cpCollTmo) else none

/-- CP_COLL_TMO has passed without an answer from a member (R323). -/
def collectiveMemberTimeoutEffect (q : Nat) (d : Dev) : Dev :=
  d.withCmd q 0x22 fun c =>
    if (d.collDue q).any (d.ticks < ·) || c.phase != 1 then d
    else match c.collList.find? fun m => (d.collAwaited q c).contains m with
      | none => d
      | some m => d.collEnd q c 0x30 (c.listIndex m) 0

/-! ### What the fabric brings (R388) -/

/-- The queues of an instance that run a COLLECTIVE of a generation. -/
def Dev.collQueues (d : Dev) (inst : Nat) : List Nat :=
  (d.queuesOf inst).filter fun q => match (d.queue q).run with
    | some c => c.op == 0x22 && c.phase == 1 && c.fin.isNone
    | none => false

/-- A COLL message arrives: none when its generation is not that of the COLLECTIVE that runs (R379). -/
def Dev.collGot (d : Dev) (inst gen sub id k : Nat) : Option Dev :=
  let qs := d.collQueues inst
  match qs.find? fun q => match (d.queue q).run with
      | some c => c.collGen == gen
      | none => false with
  | some q => some (d.modCmd q fun c => { c with coll := c.coll ++ [(sub, id, k)] })
  | none => if qs.isEmpty then some { d with collHeld := d.collHeld ++ [(inst, gen, sub, id, k)] } else none

/-- Bytes that the member before has reduced into a chunk of DST. -/
def Dev.collRed (d : Dev) (inst id a n : Nat) : Dev :=
  (d.collQueues inst).foldl (fun d q => d.modCmd q fun c =>
    let ms := c.members
    let j := (ms.idxOf? (d.ownId inst)).getD 0
    if j ≠ 0 ∧ ms.getD (j - 1) 0 = id ∧ c.collDst ≤ a ∧ a < c.collDst + c.collBytes then
      { c with redGot := c.redGot.modify ((a - c.collDst) / 65536) 0 (· + n) }
    else c) d

/-- The COLLECTIVEs of an instance that count a peer among their members end with MEMBER_LOST (R384). -/
def Dev.collLost (d : Dev) (inst id : Nat) : Dev :=
  (d.collQueues inst).foldl (fun d q => match (d.queue q).run with
    | some c => if c.members.contains id then d.collEnd q c 0x30 (c.listIndex id) 0x6201 else d
    | none => d) d

def execCollective (q : QueueIx) (s : State) := s.runLive (collectiveEffect q)

end Sys2Proof.Machine
end

