-- ==== Sys2Proof/Machine/MirrorOps.lean ====
section
/-! DEFINITION. The mirror engine's shared operations (R409 to R411, R424, R430): sides of a book, addresses within it,
headers, causes, reads from a buddy, and the repair of a line. -/

namespace Sys2Proof.Machine

/-! ### Sides (R411) -/

def BookSides.st (s : BookSides) (side : Nat) : Nat := if side = 0 then s.st0 else s.st1
def BookSides.ep (s : BookSides) (side : Nat) : Nat := if side = 0 then s.ep0 else s.ep1
def BookSides.put (s : BookSides) (side st ep : Nat) : BookSides :=
  if side = 0 then { s with st0 := st, ep0 := ep } else { s with st1 := st, ep1 := ep }

/-- The LAST side, if a side is sealed (R411). -/
def BookSides.last (s : BookSides) : Option Nat :=
  match s.st0 == 2, s.st1 == 2 with
  | true, true => some (if s.ep0 < s.ep1 then 1 else 0)
  | true, false => some 0
  | false, true => some 1
  | false, false => none

/-- The committed epoch: of the LAST side, or 0 (R411). -/
def BookSides.epoch (s : BookSides) : Nat := (s.last.map s.ep).getD 0
/-- The fill side: the one that is not LAST (R411). -/
def BookSides.fillSide (s : BookSides) : Nat := match s.last with
  | some 0 => 1
  | some _ => 0
  | none => if s.st1 = 1 then 1 else 0

/-- The dirty set of a side. -/
def MirWin.dirty (m : MirWin) (side : Nat) : BlockSet := if side = 0 then m.d0 else m.d1
def MirWin.setDirty (m : MirWin) (side : Nat) (s : BlockSet) : MirWin := if side = 0 then { m with d0 := s } else { m with d1 := s }

/-- Blocks of a window of `size` bytes. -/
def mirBlocks (size : Nat) : Nat := size / 4096
/-- The dirty blocks of a side, in order. -/
def MirWin.dirtyList (m : MirWin) (size side : Nat) : List Nat :=
  let s := m.dirty side
  if s.all then (List.range (mirBlocks size)).filter s.has else s.flips.keys.filter fun b => b < mirBlocks size
def dirtyCount (s : BlockSet) (size : Nat) : Nat :=
  let n := (s.flips.keys.filter fun b => b < mirBlocks size).length
  if s.all then mirBlocks size - n else n

/-- A header is valid for a window (R411): magic, CRC, WIN and SIZE. Answers its sides and its BITMAP_VALID. -/
def readHeader (bs : List Byte) (win size : Nat) : Option (BookSides × Bool) :=
  let n (o k : Nat) : Nat := leNat ((bs.drop o).take k)
  if n 0 4 = 0x4D425A45 ∧ crc32 (bs.take 0x78) = n 0x78 4 ∧ n 4 1 = win ∧ n 0x10 8 = size then
    some ({ st0 := n 0x20 1, ep0 := n 0x18 8, st1 := n 0x30 1, ep1 := n 0x28 8 }, n 5 1 % 2 == 1)
  else none

/-! ### Addresses in the book and the trailer (R410) -/

def Dev.mirBaddr (d : Dev) (w : Nat) : Nat := d.reg64 .mirWBaddrLo .mirWBaddrHi (mirIx w)
def Dev.mirEpoch (d : Dev) (w : Nat) : Nat := d.reg64 .mirWEpochLo .mirWEpochHi (mirIx w)
def Dev.setMirEpoch (d : Dev) (w e : Nat) : Dev := d.setReg64 .mirWEpochLo .mirWEpochHi (mirIx w) e

/-- The book address of a block's data, and of its signature. -/
def bookData (baddr size side b : Nat) : Nat := baddr + 0x1000 + side * size + b * 4096
def bookSig (baddr size side b : Nat) : Nat :=
  let g := (size + 0x1FFFFF) / 0x200000 * 4096
  baddr + 0x1000 + 2 * size + side * g + b * 8

/-- The owner of a window as a requester (R409): an instance or the manager. -/
def mirWho (w : Nat) : Who := if w / 64 = 8 then .manager else .inst (w / 64)
/-- The instance whose ports and peers a window uses (R409). -/
def mirInst (w : Nat) : Nat := if w / 64 = 8 then 0 else w / 64

/-- Ask a peer for bytes at a local address of its own. -/
def Dev.peerRead (d : Dev) (inst p addr n row : Nat) (o : FabOwner) : Nat × Dev :=
  d.fabRead inst p (d.peerDev p * 2 ^ 44 + addr) n row o

/-! ### Causes (R430) and status registers (R431) -/

def Dev.mirCause (d : Dev) (w code addr : Nat) : Dev :=
  d.raise .mirErrStatus [] (code - 0xA101)
    { code := code, master := 0xF825 + w % 4, access := 0x78, addr := addr, inst := if w / 64 = 8 then none else some (w / 64), die := none }

/-- MIR_W_DIRTY and FILL follow the window's sets and sides. -/
def Dev.mirNote (d : Dev) (w : Nat) : Dev :=
  let x := d.mir w
  let f := x.sides.fillSide
  (d.setRegFld .mirWState (mirIx w) 3 3 f).setReg .mirWDirty (mirIx w)
    (BitVec.ofNat 32 (min (2 ^ 32 - 1) (dirtyCount (x.dirty f) (d.mirSize w))))

/-! ### Commands that a window serves -/

/-- The command that a window serves ends with a status. -/
def Dev.mirFinish (d : Dev) (w st info fault : Nat) : Dev :=
  match (d.mir w).job with
  | none => d
  | some (q, seq) =>
    let d1 := d.modMir w fun x => { x with job := none }
    match (d1.queue q).run with
    | some c => if c.seq = seq then d1.finish q st info fault else d1
    | none => d1

/-- Windows that a MIRROR_COMMIT names. -/
def Cmd.mask (c : Cmd) (owner : Nat) : List Nat := ((List.range 64).filter (c.n 8 8).testBit).map (64 * owner + ·)

/-- The owner whose windows a queue's commands name (R409). -/
def Dev.mirOwner (d : Dev) (q : Nat) : Nat := if d.queueMgr q then 8 else d.queueInst q

/-- The commit of a window named by a MIRROR_COMMIT has ended: stage 2 sealed, 3 failed. The command completes with the last
one: the status is that of the first to fail, and INFO0 the mask of those sealed (R417). -/
def Dev.mirPart (d : Dev) (q seq w st fault : Nat) : Dev :=
  match (d.queue q).run with
  | none => d
  | some c =>
    if c.seq ≠ seq ∨ c.fin.isSome then d
    else
      let c1 : Cmd := { c with
        stage := c.stage.set w (if st = 0 then 2 else 3)
        bad := if st ≠ 0 && c.bad.isNone then some (st, fault, 0) else c.bad }
      let d1 := d.modCmd q fun _ => c1
      let ws := c1.mask (d.mirOwner q)
      if ws.all fun v => decide (2 ≤ c1.stage.getD v 0) then
        let info := ((ws.filter fun v => c1.stage.getD v 0 == 2).map fun v => 2 ^ (v % 64)).sum
        match c1.bad with
        | none => d1.finish q 0 info
        | some (s, f, _) => d1.finish q s info f
      else d1

/-- The commit of a window ends: writes since its commit point are recorded now (R418). -/
def Dev.commitOver (d : Dev) (w st fault : Nat) : Dev :=
  let x := d.mir w
  let d1 := (d.modMir w fun x =>
    let ks := x.late.keys
    { x with
      commit := none, late := ⟨[]⟩, job := none
      d0 := ks.foldl (fun s b => s.put b true) x.d0
      d1 := ks.foldl (fun s b => s.put b true) x.d1
      sigs := x.sigs.filter fun b _ => !ks.contains b
      hdrs := if st = 0 then x.hdrs else x.hdrs.map fun h => if h.1 = 2 then (4, h.2) else h }).mirNote w
  match x.job with
  | some (q, seq) => d1.mirPart q seq w st fault
  | none => d1

/-- The die backs some part of the addresses from `a` to `a + n - 1`. -/
def Dev.backs (d : Dev) (die a n : Nat) : Bool :=
  (List.range 144).any fun e =>
    let w := d.win e
    w.valid && decide (w.base * 2 ^ 30 < a + n) && decide (a < (w.base + w.size) * 2 ^ 30) && w.dies.contains die

/-- Bytes of a window with its trailer (R410). -/
def mirSpan (size : Nat) : Nat := size + 0x1000 + (size + 0x3FFFFFF) / 0x4000000 * 4096

/-- Book-match windows with lines on a die's lost stacks become LOST (R420); a command that such a window serves ends with MIR_STATE, since the
state is none that it goes on in (DESIGN CHOICE, log 51). -/
def Dev.mirrorsLost (d : Dev) (die : Nat) : Dev :=
  d.mirrors.keys.foldl (fun d w =>
    let st := d.mirState w
    if st != 0 && d.backs die (d.mirBase w) (mirSpan (d.mirSize w)) then
      let d1 := ({ d with fabReads := d.fabReads.filter fun _ (r : FabRead) => r.owner != FabOwner.mirror w }.setMirState w 7).modMir w fun x =>
        { x with lost := x.lost ++ [die], got := none, todo := [], hdrs := x.hdrs.map fun (h : Nat × BookSides) => if h.1 = 0 ∨ h.1 = 3 then (4, h.2) else h }
      if st = 3 then d1.commitOver w 0x40 0 else d1.mirFinish w 0x40 0 0
    else d) d

/-! ### Repair of a line (R424) -/

/-- The window whose mirror can repair a line: ACTIVE or COMMITTING, a side sealed, the block not dirty on it, the buddy
reachable. -/
def Dev.repairable (d : Dev) (pa : Nat) : Option Nat :=
  (d.mirOf pa).find? fun w =>
    let x := d.mir w
    (d.mirState w == 2 || d.mirState w == 3) && !d.peerDown x.peer && match x.sides.last with
      | some s => !(x.dirty s).has ((pa - d.mirBase w) / 4096)
      | none => false

/-- Hold the read of a line, if one is `held`, and ask the buddy for its block and signature. -/
def Dev.repairStart (d : Dev) (w q line loc code : Nat) (held : Bool) : Dev :=
  let x := d.mir w
  let side := x.sides.last.getD 0
  let b := (line * 128 - d.mirBase w) / 4096
  let id := d.nextTag
  let d1 : Dev := { d with
    nextTag := id + 1
    repairs := d.repairs ++ ([{ id := id, peer := x.peer, slice := q, win := w, line := line, loc := loc, block := b, code := code, held := held, since := d.ticks }] : List Repair) }
  let d2 := (d1.peerRead (mirInst w) x.peer (bookData (d1.mirBaddr w) (d1.mirSize w) side b) 4096 0 (.repair id)).2
  (d2.peerRead (mirInst w) x.peer (bookSig (d2.mirBaddr w) (d2.mirSize w) side b) 8 1 (.repair id)).2

/-- A line is delivered poisoned (R304). -/
def Dev.deliverPoison (d : Dev) (q line loc : Nat) : Dev :=
  d.send { kind := .hbmData, src := .slice q, dst := .slice q, line := line, loc := loc, data := d.hbmLine (q / 16) loc, poison := true }

/-- A cause of slice `q`'s controller (R308, R309). -/
def Dev.hbmCause (d : Dev) (q code bit acc addr : Nat) : Dev :=
  d.raise .hbmCtErrStatus [q] bit
    { code := code, master := q / 16 * 0x1000 + 0x880 + q % 16, access := acc, addr := addr, inst := some (d.instOfDie (q / 16)), die := some (q / 16) }

/-- A line that no mirror repairs is reported, with 0x3203 in a correcting window and 0x3204 in a detecting one (R304, R309);
where it lies in a shared window every instance is told (R357). -/
def Dev.ueCause (d : Dev) (q code line : Nat) : Dev :=
  let cor := code == 0x3203
  let d1 := (d.hbmCause q code (if cor then 2 else 3) 0x58 (line * 128)).count .hbmCtUeCount [q] (if cor then 15 else 31) (if cor then 0 else 16)
  match d.winFind (line * 128) with
  | some w => if w.entry < 16 then d1.noticeAll 0 code 0 (line * 128) else d1
  | none => d1

/-- The end of a repair: with a block whose signature matches the line is written at its home; otherwise it is stored poisoned and
reported. A held read is served (R304, R424). -/
def Dev.repairEnd (d : Dev) (id : Nat) (ok : Bool) : Dev :=
  match d.repairs.find? (·.id == id) with
  | none => d
  | some r =>
    let d1 : Dev := { d with
      repairs := d.repairs.filter fun (r : Repair) => r.id != id
      fabReads := d.fabReads.filter fun _ (x : FabRead) => x.owner != FabOwner.repair id }
    match ok, r.data with
    | true, some bs =>
      let l := lineOf ((bs.drop ((r.line * 128 - d.mirBase r.win) % 4096)).take 128)
      let d2 := ((d1.hbmPut r.slice r.line r.loc l false).mirCause r.win 0xA104 (r.line * 128)).count .mirRepairs [] 31 0
      if r.held then d2.send { kind := .hbmData, src := .slice r.slice, dst := .slice r.slice, line := r.line, loc := r.loc, data := l } else d2
    | _, _ =>
      let d2 := (d1.ueCause r.slice r.code r.line).hbmPut r.slice r.line r.loc (d1.hbmLine (r.slice / 16) r.loc) true
      if r.held then d2.deliverPoison r.slice r.line r.loc else d2

/-- Bytes for a repair arrive from the buddy: the block, or its signature; with both the signature decides (R424). -/
def Dev.repairGot (d : Dev) (id row off : Nat) (bs : List Byte) : Dev :=
  let d1 : Dev := { d with
    repairs := d.repairs.map fun (r : Repair) =>
      if r.id ≠ id then r
      else if row = 0 then { r with data := some ((r.data.getD []).take off ++ bs) } else { r with sig := some bs } }
  match d1.repairs.find? (·.id == id) with
  | none => d1
  | some r => match r.data, r.sig with
    | some x, some s =>
      if x.length < 4096 then d1
      else if crc64 x = leNat s then d1.repairEnd id true
      else (d1.mirCause r.win 0xA105 (r.line * 128 / 4096 * 4096)).repairEnd id false
    | _, _ => d1

end Sys2Proof.Machine
end

