-- ==== Sys2Proof/Machine/Network.lean ====
section
/-! DEFINITION. The three on-die networks (R205): what each carries, where the agents of the bulk network attach to its mesh (R206), the
links a bulk flit takes (R208), and the headers of control messages (R214). -/

namespace Sys2Proof.Machine

/-! ### Networks and their traffic (R205) -/

/-- The networks of a die. -/
inductive NetName where
  | bulk | control | clamp
deriving DecidableEq, Repr

/-- What travels on a network of a die. -/
inductive Traffic where
  | lineAccess | tileMover | slotTransfer | hostAccess | fabricAccess
  | registerAccess | launch | start | kill | markReport | faultReport | wakeRequest
  | clampArrival | clampBroadcast
deriving DecidableEq, Repr

/-- The one network that carries it. -/
def Traffic.net : Traffic → NetName
  | .lineAccess | .tileMover | .slotTransfer | .hostAccess | .fabricAccess => .bulk
  | .registerAccess | .launch | .start | .kill | .markReport | .faultReport | .wakeRequest => .control
  | .clampArrival | .clampBroadcast => .clamp

/-- The traffic that a message belongs to; none for one between a slice and its HBM controllers, which no network carries (R206). A message
of an IOD agent is a host or fabric access or one of the command processor, and enters a die through a gateway. -/
def Msg.traffic (m : Msg) : Option Traffic :=
  match m.kind with
  | .slotChunk => some .slotTransfer
  | .clampUp => some .clampArrival
  | .hbmRead | .hbmWrite | .hbmData => none
  | .benchWrite => some (if m.op = 1 then .tileMover else .lineAccess)
  | .benchRead => some (if m.tag = 0 then .lineAccess else .tileMover)
  | _ => match m.src, m.dst with
    | .iod _, _ | _, .iod _ => some .hostAccess
    | _, _ => some .lineAccess

/-! ### The mesh (R206, R208) -/

/-- The port of a router that an agent attaches to. -/
inductive RouterPort where
  | own | north | south | east | west
deriving DecidableEq, Repr

/-- Router of port `p` of a bay cache, by its index within the die. -/
def bayRouter (bay p : Nat) : Nat × Nat := (if bay % 2 = 0 then 6 else 17, 6 * (bay / 2) + 2 + p)

/-- Router and port of a slice, by its index within the die. -/
def sliceRouter (s : Nat) : (Nat × Nat) × RouterPort := ((4 + s, 0), .north)

/-- Router and port of a gateway site: S0 to S11, E0 to E5, W0 to W5. -/
def siteRouter (site : Nat) : (Nat × Nat) × RouterPort :=
  if site < 12 then ((4 + 4 * site / 3, 23), .south)
  else if site < 18 then ((23, 4 + 3 * (site - 12)), .east)
  else ((0, 4 + 3 * (site - 18)), .west)

/-- Where an agent of a die attaches for a line: a bay cache uses the port that bit 7 of the address gives. -/
def Agent.router (a : Agent) (line : Nat) : Option ((Nat × Nat) × RouterPort) :=
  match a with
  | .bench b => some ((b % 24, b % 576 / 24), .own)
  | .bay y => some (bayRouter (y % 8) (line % 2), .own)
  | .slice q => some (sliceRouter (q % 16))
  | _ => none

/-- The mesh links from one router to another, x first and then y (R208). -/
def meshRoute (a b : Nat × Nat) : List (Nat × Nat) := route 64 a.1 a.2 b.1 b.2

/-- The links that a message takes on a die: from its source, or from the site it enters by, to its destination, or to the site it leaves
by. -/
def Msg.route (m : Msg) (die : Nat) (site : Option Nat) : List (Nat × Nat) :=
  let at' (a : Agent) : Option (Nat × Nat) :=
    if agentDie a = some die then (a.router m.line).map (·.1) else site.map fun k => (siteRouter k).1
  match at' m.src, at' m.dst with
  | some x, some y => meshRoute x y
  | _, _ => []

/-! ### Control messages (R214) -/

/-- The destination in a control header: a bench by its linear index, a die agent, or the IOD port. -/
inductive CtlDst where
  | bench (i : Nat)
  | agent (a : Nat)
  | iodPort
deriving DecidableEq, Repr

/-- The header flit of a control message: destination, type, the number of data flits that follow, and the tag that matches a response to
its request. -/
structure CtlHeader where
  dst : CtlDst
  kind : Traffic
  len : Fin 9
  tag : Fin 64
deriving DecidableEq, Repr

/-- The header of a start message: to every bench of the die through its network agent. Its length and tag are not stated. -/
def StartMsg.header (_m : StartMsg) (len : Fin 9) (tag : Fin 64) : CtlHeader := { dst := .agent 0x841, kind := .start, len := len, tag := tag }

/-- The header of a kill message. -/
def KillMsg.header (m : KillMsg) (len : Fin 9) (tag : Fin 64) : CtlHeader :=
  { dst := .bench (m.bench % 576), kind := .kill, len := len, tag := tag }

/-- Where the IOD port attaches, and where the die agents do. -/
def ctlIodRouter : (Nat × Nat) × RouterPort := ((10, 23), .south)
def ctlAgentRouter : (Nat × Nat) × RouterPort := ((12, 12), .east)

end Sys2Proof.Machine
end

