-- ==== Sys2Proof/Machine/Sm3.lean ====
section
/-! DEFINITION. The SM3 hash, which the digest of a cut list uses (R204). The manual names SM3 and does not restate it: this is
the published standard (see the assumption log). -/

namespace Sys2Proof

def rol32 (x : W32) (n : Nat) : W32 := x.rotateLeft (n % 32)
def sm3P0 (x : W32) : W32 := x ^^^ rol32 x 9 ^^^ rol32 x 17
def sm3P1 (x : W32) : W32 := x ^^^ rol32 x 15 ^^^ rol32 x 23

/-- The next word of a message schedule whose latest words stand newest first. -/
def sm3Next (w : List W32) : W32 :=
  let g (i : Nat) : W32 := w.getD (i - 1) 0
  sm3P1 (g 16 ^^^ g 9 ^^^ rol32 (g 3) 15) ^^^ rol32 (g 13) 7 ^^^ g 6

/-- The 68 words of a block's schedule, newest first. -/
def sm3Expand : Nat → List W32 → List W32
  | 0, w => w
  | n + 1, w => sm3Expand n (sm3Next w :: w)

/-- The eight state words. -/
structure Sm3State where
  a : W32
  b : W32
  c : W32
  d : W32
  e : W32
  f : W32
  g : W32
  h : W32
deriving DecidableEq, Repr

def Sm3State.xor (s t : Sm3State) : Sm3State :=
  ⟨s.a ^^^ t.a, s.b ^^^ t.b, s.c ^^^ t.c, s.d ^^^ t.d, s.e ^^^ t.e, s.f ^^^ t.f, s.g ^^^ t.g, s.h ^^^ t.h⟩

/-- One round. -/
def sm3Round (w : List W32) (s : Sm3State) (j : Nat) : Sm3State :=
  let t : W32 := if j < 16 then 0x79cc4519 else 0x7a879d8a
  let ff := if j < 16 then s.a ^^^ s.b ^^^ s.c else (s.a &&& s.b) ||| (s.a &&& s.c) ||| (s.b &&& s.c)
  let gg := if j < 16 then s.e ^^^ s.f ^^^ s.g else (s.e &&& s.f) ||| (~~~s.e &&& s.g)
  let ss1 := rol32 (rol32 s.a 12 + s.e + rol32 t j) 7
  let ss2 := ss1 ^^^ rol32 s.a 12
  let wj := w.getD j 0
  let tt1 := ff + s.d + ss2 + (wj ^^^ w.getD (j + 4) 0)
  let tt2 := gg + s.h + ss1 + wj
  ⟨tt1, s.a, rol32 s.b 9, s.c, sm3P0 tt2, s.e, rol32 s.f 19, s.g⟩

/-- Big-endian words of a block. -/
def sm3Words : Nat → List Byte → List W32
  | 0, _ => []
  | n + 1, bs => BitVec.ofNat 32 (leNat (bs.take 4).reverse) :: sm3Words n (bs.drop 4)

def sm3Block (s : Sm3State) (bs : List Byte) : Sm3State :=
  let w := (sm3Expand 52 (sm3Words 16 bs).reverse).reverse
  ((List.range 64).foldl (sm3Round w) s).xor s

def sm3Blocks : Nat → List Byte → Sm3State → Sm3State
  | 0, _, s => s
  | n + 1, bs, s => sm3Blocks n (bs.drop 64) (sm3Block s (bs.take 64))

/-- The 32 bytes of the digest of a message. -/
def sm3 (bs : List Byte) : List Byte :=
  let n := bs.length
  let k := (n + 9 + 63) / 64
  let msg := bs ++ [0x80#8] ++ List.replicate (64 * k - n - 9) 0#8 ++ (leBytes (8 * n) 8).reverse
  let s := sm3Blocks k msg
    ⟨0x7380166f, 0x4914b2b9, 0x172442d7, 0xda8a0600, 0xa96f30bc, 0x163138aa, 0xe38dee4d, 0xb0fb0e4e⟩
  ([s.a, s.b, s.c, s.d, s.e, s.f, s.g, s.h] : List W32).flatMap fun x => (leBytes x.toNat 4).reverse

end Sys2Proof
end

