-- ==== Sys2Proof/Machine/CpProgram.lean ====
section
/-! DEFINITION. The cut list (R198 to R204), its checks with those of the reserved slots (R209), making contexts resident (R317,
R318), and the command LOAD_PROGRAM. -/

namespace Sys2Proof.Machine

/-! ### The image (R198 to R203) -/

/-- A little-endian field of an image. -/
def imN (im : List Byte) (o k : Nat) : Nat := leNat ((im.drop o).take k)
def imZero (im : List Byte) (o k : Nat) : Bool := ((im.drop o).take k).all (· == 0)

/-- A section-table entry: type, flags, offset, size. -/
structure Section where
  ty : Nat
  flags : Nat
  zero : Bool
  off : Nat
  size : Nat
deriving DecidableEq, Repr

def imSections (im : List Byte) : List Section :=
  (List.range (imN im 0x1A 2)).map fun i =>
    let o := imN im 0x1C 4 + 16 * i
    ⟨imN im o 2, imN im (o + 2) 2, imZero im (o + 4) 4, imN im (o + 8) 4, imN im (o + 12) 4⟩

def imSection (im : List Byte) (ty : Nat) : Option Section := (imSections im).find? (·.ty == ty)

/-- A placement entry (R200). -/
structure Place where
  ldie : Nat
  x : Nat
  y : Nat
  flags : Nat
  part : Nat
  istr : Nat
  parkSize : Nat
  parkBase : Nat
  slotFirst : Nat
  slotCount : Nat
  entry : Nat
  codeOff : Nat
  codeSize : Nat
  preOff : Nat
  preSize : Nat
deriving DecidableEq, Repr

def imPlace (im : List Byte) (i : Nat) : Place :=
  let o := ((imSection im 1).map (·.off)).getD 0 + 32 * i
  let n := imN im
  ⟨n o 1, n (o + 1) 1, n (o + 2) 1, n (o + 3) 1, n (o + 4) 1, n (o + 5) 1, n (o + 6) 2, n (o + 8) 2, n (o + 0xA) 2, n (o + 0xC) 2,
    n (o + 0xE) 2, n (o + 0x10) 4, n (o + 0x14) 4, n (o + 0x18) 4, n (o + 0x1C) 4⟩

def imBenches (im : List Byte) : Nat := imN im 0x20 4
def imPlaces (im : List Byte) : List Place := (List.range (imBenches im)).map (imPlace im)

def Place.save (p : Place) : Bool := p.flags % 2 == 1
/-- Usable bytes of a placement's partition (R56). -/
def Place.usable (p : Place) : Nat := p.part * 65536 - (if p.save then 98304 else 0)

/-- A slot-table entry (R202). -/
def imSlot (im : List Byte) (i : Nat) : SlotEntry :=
  let o := ((imSection im 3).map (·.off)).getD 0 + 16 * i
  { srcOff := imN im o 4, len := imN im (o + 4) 2, phase := imN im (o + 6) 2, dstOff := imN im (o + 8) 4, dstPlace := imN im (o + 12) 2
    dstCnt := imN im (o + 14) 1 }
def imSlotCount (im : List Byte) : Nat := ((imSection im 3).map (·.size)).getD 0 / 16

def imMarks (im : List Byte) : List MarkEntry :=
  match imSection im 4 with
  | none => []
  | some s => (List.range (s.size / 8)).map fun i =>
    let o := s.off + 8 * i
    { kind := imN im o 1, op := imN im (o + 1) 1, reporter := imN im (o + 2) 2, progress := imN im (o + 4) 2 }

/-! ### The checks of R204 -/

/-- Step 1: the header. -/
def imHeaderOk (im : List Byte) : Bool :=
  imN im 0 4 == 0x4C435A45 && imN im 4 2 == 1 && imN im 6 2 == 128 && imN im 8 4 == im.length && imN im 8 4 % 8 == 0 &&
    imN im 0xC 4 + 32 == imN im 8 4 && imZero im 0x24 4 && imZero im 0x38 72

/-- Step 2: the digest. -/
def imDigestOk (im : List Byte) : Bool :=
  let o := imN im 0xC 4
  sm3 (im.take o) == (im.drop o).take 32

/-- Ranges, as offset and size, of which no two overlap. -/
def disjointRanges : List (Nat × Nat) → Bool
  | [] => true
  | r :: rs => rs.all (fun s => r.2 == 0 || s.2 == 0 || decide (r.1 + r.2 ≤ s.1) || decide (s.1 + s.2 ≤ r.1)) && disjointRanges rs

/-- Step 3: the section table (R199). -/
def imSectionsOk (im : List Byte) : Bool :=
  let n := imN im 0x1A 2
  let so := imN im 0x1C 4
  let dg := imN im 0xC 4
  let ss := imSections im
  let known := ss.filter fun s => decide (1 ≤ s.ty) && decide (s.ty ≤ 5)
  decide (1 ≤ n) && decide (n ≤ 16) && so % 8 == 0 && decide (128 ≤ so) && decide (so + 16 * n ≤ dg) &&
    ss.all (fun s => s.zero && decide (s.flags ≤ 1) && s.off % 8 == 0 && decide (128 ≤ s.off) && decide (s.off + s.size ≤ dg) &&
      ((decide (1 ≤ s.ty) && decide (s.ty ≤ 5)) || s.flags == 0)) &&
    disjointRanges ((so, 16 * n) :: ss.map fun s => (s.off, s.size)) &&
    (ss.map (·.ty)).eraseDups.length == ss.length &&
    (known.any (·.ty == 1)) && (known.any (·.ty == 2)) &&
    decide (1 ≤ imBenches im) && decide (imBenches im ≤ imN im 0x18 1 * 576) &&
    (match imSection im 1 with
      | some s => s.size == 32 * imBenches im
      | none => false)

/-- Step 4: dies, split and features against the instance. -/
def Dev.imInstanceOk (d : Dev) (im : List Byte) : Bool :=
  let dies := imN im 0x18 1
  let f := imN im 0x10 8
  (dies == 1 || dies == 2 || dies == 4 || dies == 8) && decide (dies ≤ 8 / d.instN) && decide (imN im 0x19 1 < 4) &&
    f &&& d.reg64 .datFeatLo .datFeatHi [] == f

/-- The compute die of a logical die of an instance (R198). -/
def Dev.logDie (d : Dev) (inst ldie : Nat) : Nat := inst * (8 / d.instN) + ldie

/-- Local-store KiB of a split (R41). -/
def splitKiB (s : Nat) : Nat :=
  match s with
  | 0 => 1024
  | 1 => 896
  | 2 => 768
  | _ => 512

/-- Step 5: one placement entry (R200, R240). -/
def Dev.imPlaceOk (d : Dev) (inst : Nat) (im : List Byte) (i : Nat) (p : Place) : Bool :=
  let die := d.logDie inst p.ldie
  let cap (o k : Nat) : Nat := leNat ((leBytes (d.reg .datCap [die, o / 4]).toNat 4).drop (o % 4) |>.take k)
  let code := ((imSection im 2).map (·.size)).getD 0
  let pre := (imSection im 5).map (·.size)
  let key (p : Place) : Nat := (p.ldie * 24 + p.y) * 24 + p.x
  decide (p.ldie < imN im 0x18 1) && decide (p.x < 24) && decide (p.y < 24) && decide (p.flags ≤ 1) &&
    (i == 0 || decide (key (imPlace im (i - 1)) < key p)) &&
    cap 0x18 2 != 0 && decide (p.x < cap 0x1A 1) && decide (p.y < cap 0x1B 1) &&
    decide ((if p.save then 2 else 1) ≤ p.part) && decide (p.part * 64 ≤ splitKiB (imN im 0x19 1)) &&
    decide (1 ≤ p.istr) && decide (p.istr ≤ 64) && decide ((p.parkBase + p.parkSize) * 1024 ≤ p.usable) &&
    decide (p.slotFirst + p.slotCount ≤ imSlotCount im) && decide (p.slotCount ≤ 1024) &&
    p.entry % 4 == 0 && decide (p.entry < p.codeSize) && p.codeOff % 8 == 0 && decide (p.codeOff + p.codeSize ≤ code) &&
    p.codeSize % 4 == 0 && decide (p.codeSize ≤ p.istr * 1024) &&
    p.preSize % 64 == 0 && decide (p.preSize ≤ p.usable) &&
    (p.preSize == 0 || match pre with
      | some n => decide (p.preOff + p.preSize ≤ n)
      | none => false)

/-- The benches that name a slot-table entry, as placement indices (R209). -/
def slotNamers (ps : List Place) (j : Nat) : List Nat :=
  ps.zipIdx.filterMap fun x => if x.1.slotFirst ≤ j ∧ j < x.1.slotFirst + x.1.slotCount then some x.2 else none

/-- Step 5: the slot table (R202). -/
def imSlotsOk (im : List Byte) : Bool :=
  let ps := imPlaces im
  let size := ((imSection im 3).map (·.size)).getD 0
  let off := ((imSection im 3).map (·.off)).getD 0
  size % 16 == 0 && (List.range (imSlotCount im)).all fun j =>
    let e := imSlot im j
    let dst := ps.getD e.dstPlace (imPlace im 0)
    decide (e.srcOff < 2 ^ 20) && e.srcOff % 4 == 0 && decide (4 ≤ e.len) && decide (e.len ≤ 4096) && e.len % 4 == 0 && decide (e.phase ≤ 1023) &&
      e.dstOff % 4 == 0 && decide (e.dstPlace < imBenches im) && decide (e.dstCnt ≤ 15) && imN im (off + 16 * j + 15) 1 == 0 &&
      decide (e.dstOff + e.len ≤ dst.usable) &&
      (slotNamers ps j).all fun i =>
        let p := ps.getD i dst
        i != e.dstPlace && p.ldie == dst.ldie && decide (e.srcOff + e.len ≤ p.usable)

/-- Step 5: the mark table (R203). -/
def imMarksOk (im : List Byte) : Bool :=
  match imSection im 4 with
  | none => true
  | some s => s.size % 8 == 0 && decide (s.size ≤ 8192) && (imMarks im).zipIdx.all fun x =>
    let m := x.1
    decide (1 ≤ m.kind) && decide (m.kind ≤ 3) && (if m.kind % 2 = 1 then decide (m.op ≤ 4) else m.op == 0xFF) &&
      decide (m.reporter < imBenches im) && imN im (s.off + 8 * x.2 + 6) 2 == 0

/-! ### Reserved link-cycles (R169, R209) -/

/-- The link-cycles that one transfer reserves, as a number of die, link and phase. -/
def reserved (src dst : Place) (e : SlotEntry) : List Nat :=
  (route 64 src.x src.y dst.x dst.y).zipIdx.flatMap fun l =>
    (List.range ((e.len + 127) / 128)).map fun i => (((src.ldie * 576 + l.1.1) * 4 + l.1.2) * 1024) + (e.phase + i + l.2) % 1024

/-- Mark the link-cycles of a transfer: none where one is already taken. -/
def takeCycles : List Nat → SMap Unit → Option (SMap Unit)
  | [], m => some m
  | k :: ks, m => if m.has k then none else takeCycles ks (m.set k ())

/-- The reservations of a cut list, if no two collide. -/
def reserveAll : List (List Nat) → SMap Unit → Option (SMap Unit)
  | [], m => some m
  | t :: ts, m => match takeCycles t m with
    | none => none
    | some m1 => reserveAll ts m1

/-- No two transfers reserve one link in one phase, and no link carries more than 256 reserved flits an epoch (R209). -/
def imReservedOk (im : List Byte) : Bool :=
  let ps := imPlaces im
  let ts := ps.flatMap fun p => (List.range p.slotCount).map fun k =>
    let e := imSlot im (p.slotFirst + k)
    reserved p (imPlace im e.dstPlace) e
  match reserveAll ts ⟨[]⟩ with
  | none => false
  | some m =>
    let perLink := m.keys.foldl (fun (c : SMap Nat) k => c.modify (k / 1024) 0 (· + 1)) ⟨[]⟩
    perLink.cells.all fun x => decide (x.2 ≤ 256)

/-! ### Residency (R318) -/

/-- The lowest base, from `b` up, at which a range of `n` units is free of the others. -/
def firstFree (used : List (Nat × Nat)) (n top : Nat) : Nat → Nat → Option Nat
  | 0, _ => none
  | f + 1, b =>
    if top < b + n then none
    else if used.all fun r => decide (b + n ≤ r.1) || decide (r.1 + r.2 ≤ b) then some b
    else firstFree used n top f (b + 1)

/-- Resident contexts of a bench. -/
def Bench.resident (bn : Bench) : List BenchCtx := ((List.range 4).map bn.ctxN).filter (·.valid)

/-- Write a stream, the zero fill of its range and the preload (R201). -/
def Bench.fillContents (bn : Bench) (im : List Byte) (p : Place) (istr part : Nat) : Bench :=
  let code := ((im.drop (((imSection im 2).map (·.off)).getD 0 + p.codeOff)).take p.codeSize)
  let pre := ((im.drop (((imSection im 5).map (·.off)).getD 0 + p.preOff)).take p.preSize)
  { bn with
    istore := (bn.istore.clearRange (istr * 1024) (p.istr * 1024)).writeBytes (istr * 1024) code
    tile := bn.tile.writeBytes (part * 65536) pre }

/-- Make one context resident, or the status that refuses it (R318). -/
def Dev.resideOne (d : Dev) (inst slot : Nat) (im : List Byte) (i : Nat) (p : Place) : Sum Nat Dev :=
  let die := d.logDie inst p.ldie
  let b := die * 576 + p.y * 24 + p.x
  let bn := d.bench b
  let split := imN im 0x19 1
  let rs := bn.resident
  if (d.die die).st ≠ 2 then .inl 0x13
  else match (List.range 4).find? fun n => !(bn.ctxN n).valid with
    | none => .inl 5
    | some n =>
      if !rs.isEmpty && bn.split != split then .inl 6
      else match firstFree (rs.map fun c => (c.partBase, c.partSize)) p.part (splitKiB split / 64) 17 0,
          firstFree (rs.map fun c => (c.istrBase, c.istrSize)) p.istr 64 65 0 with
        | some part, some istr =>
          let bn1 := (if rs.isEmpty then { bn with split := split, l1 := ⟨[]⟩, plru := ⟨[]⟩ } else bn).fillContents im p istr part
          .inr (d.setBench b (bn1.modCtx n fun c =>
            { gen := c.gen, valid := true, prog := 16 * inst + slot, place := i, entry := p.entry, partBase := part, partSize := p.part
              save := p.save, istrBase := istr, istrSize := p.istr
              slots := (List.range p.slotCount).map fun k => imSlot im (p.slotFirst + k) }))
        | _, _ => .inl 5

/-- Make every context resident in placement order: the status and the index of the first that fails. -/
def Dev.resideAll (inst slot : Nat) (im : List Byte) : Dev → List (Place × Nat) → Sum (Nat × Nat) Dev
  | d, [] => .inr d
  | d, (p, i) :: ps => match d.resideOne inst slot im i p with
    | .inl st => .inl (st, i)
    | .inr d1 => Dev.resideAll inst slot im d1 ps

/-! ### LOAD_PROGRAM (R317) -/

/-- GiB-sized management region less the images it holds. -/
def Dev.mgmtFree (d : Dev) : Nat :=
  let total := (List.range 16).foldl (fun t e => let w := d.win e; if w.valid && w.mgmt then t + w.size * 2 ^ 30 else t) 0
  d.slots.cells.foldl (fun t s => t - s.2.image.length) total

/-- The checks of R204, R209 and R240, and then residency (R317), once the dies it places on are powered (R438). -/
def Dev.loadImage (d : Dev) (q slot : Nat) (im : List Byte) : Dev :=
  let inst := d.queueInst q
  let bad := (imPlaces im).zipIdx.find? fun x => !d.imPlaceOk inst im x.2 x.1
  if !imHeaderOk im then d.finish q 0x10 0
  else if !imDigestOk im then d.finish q 0x11 0
  else if !imSectionsOk im then d.finish q 0x12 0
  else if !d.imInstanceOk im then d.finish q 0x13 0
  else match bad with
    | some x => d.finish q 0x14 x.2
    | none =>
      let dies := ((imPlaces im).map fun p => d.logDie inst p.ldie).eraseDups
      if !imSlotsOk im || !imMarksOk im || !imReservedOk im then d.finish q 0x15 0
      else if dies.any d.powering then dies.foldl Dev.powerOn d
      else match Dev.resideAll inst slot im d (imPlaces im).zipIdx with
        | .inl (st, i) => d.finish q st i
        | .inr d1 =>
          let x : ProgSlot :=
            { image := im, split := imN im 0x19 1, progId := (im.drop 0x28).take 16, marks := imMarks im, contexts := imBenches im }
          let d2 : Dev := { d1 with slots := d1.slots.set (16 * inst + slot) x }
          d2.finish q 0 0

/-- A fetched LAUNCH names a slot until it completes (R317). -/
def Dev.slotBusy (d : Dev) (inst slot : Nat) : Bool :=
  (d.queuesOf inst).any fun q => match (d.queue q).run with
    | some c => c.op == 0x11 && c.fin.isNone && (c.n 8 1 == slot || c.n 9 1 == slot)
    | none => false

/-- A context is no longer resident: its partition, range and counters are free (R219, R317). -/
def Bench.dropCtx (bn : Bench) (n : Nat) : Bench :=
  (bn.killCtx n).modCtx n fun _ => { gen := (bn.ctxN n).gen }

/-- The contexts of a program leave their benches. -/
def Dev.dropProgram (d : Dev) (prog : Nat) : Dev :=
  d.benches.keys.foldl (fun d b => d.modBench b fun bn =>
    (List.range 4).foldl (fun bn n => if (bn.ctxN n).valid && (bn.ctxN n).prog == prog then bn.dropCtx n else bn) bn) d

def loadProgramEffect (q : Nat) (d : Dev) : Dev :=
  d.withCmd q 0x10 fun c =>
    let inst := d.queueInst q
    let slot := c.n 8 1
    let space := c.n 0xA 1
    let a := c.n 0x10 8
    let size := c.n 0x18 4
    let filled := d.slots.has (16 * inst + slot)
    if c.n 9 1 = 1 then
      if !filled then d.finish q 4 0
      else if d.slotBusy inst slot then d.finish q 7 0
      else ({ d.dropProgram (16 * inst + slot) with slots := d.slots.erase (16 * inst + slot) } : Dev).finish q 0 0
    else if filled then d.finish q 7 0
    else if size % 8 ≠ 0 ∨ size < 160 then d.finish q 0x10 0
    else if space = 0 ∧ !d.mapped (d.queueWho q) false a size then d.finish q 2 0
    else if d.mgmtFree < size then d.finish q 5 0
    else match d.cpGather q c space a size with
      | (d1, false) => d1
      | (d1, true) => match (d1.queue q).run with
        | some c1 => d1.loadImage q slot (c1.got.take size)
        | none => d1

def execLoadProgram (q : QueueIx) (s : State) := s.runLive (loadProgramEffect q)

end Sys2Proof.Machine
end

