-- ==== Sys2Proof/Machine/PowerOps.lean ====
section
/-! DEFINITION. Operating points and the feed-rate limiter (R434, R435, R440, R441, R446, R452, R455), and the LAUNCHes that ask for them. -/

namespace Sys2Proof.Machine

/-! ### The contexts of a program -/

/-- Bench and number of every resident context of a program slot (R318). -/
def Dev.ctxsOf (d : Dev) (prog : Nat) : List (Nat × Nat) :=
  d.benches.keys.flatMap fun b => (List.range 4).filterMap fun n =>
    let c := (d.bench b).ctxN n
    if c.valid && c.prog == prog then some (b, n) else none

/-- The program a LAUNCH's present step runs on. -/
def Launch.cur (l : Launch) : Nat := if l.onBack then l.back.getD l.prog else l.prog

/-- The LAUNCH that a queue runs. -/
def Dev.launch (d : Dev) (q : Nat) : Option Launch :=
  match (d.queue q).run with
  | some c => if c.fin.isNone then c.launch else none
  | none => none

def Dev.modLaunch (d : Dev) (q : Nat) (f : Launch → Launch) : Dev := d.modCmd q fun c => { c with launch := c.launch.map f }

/-! ### Operating points (R434, R435) -/

/-- A change of the die's operating point runs. -/
def Dev.changing (d : Dev) (die : Nat) : Bool := d.regBit .pwrDieOp [die] 11
/-- The point in force. -/
def Dev.opNow (d : Dev) (die : Nat) : Nat := d.regFld .pwrDieOp [die] 10 8
/-- A bay is ON (R436). -/
def Dev.bayOn (d : Dev) (y : Nat) : Bool := d.regFld .pwrDieDom [y / 8] (2 * (y % 8) + 1) (2 * (y % 8)) == 2

/-- The LAUNCHes that hold benches on a die: queue, sequence number, and the point asked for. -/
def Dev.holders (d : Dev) (die : Nat) : List (Nat × Nat × Nat) :=
  d.queues.keys.filterMap fun q => match d.launch q with
    | some l =>
      if l.owns && (d.ctxsOf l.cur).any (fun x => dieOf x.1 == die) then
        some (q, ((d.queue q).run.map fun (c : Cmd) => c.seq).getD 0, l.op)
      else none
    | none => none

/-- The die's request: the highest point that a LAUNCH holding benches on it asks for. -/
def Dev.opReq (d : Dev) (die : Nat) : Nat := (d.holders die).foldl (fun m x => max m x.2.2) 0

/-- The manager's cap; values above 4 count as 4, and default trims allow OP0 only (R457, R469). -/
def Dev.opCap (d : Dev) (die : Nat) : Nat := if d.board.trimsBad then 0 else min 4 (d.regFld .pwrDieOp [die] 18 16)

/-- The highest point of DAT_DEVOPS at or below a limit, or its lowest point. -/
def Dev.opPick (d : Dev) (lim : Nat) : Nat :=
  let ops := (List.range 5).filter fun n => (d.reg .datDevops []).getLsbD n
  ((ops.filter (· ≤ lim)).getLast?).getD (ops.headD 0)

/-- What R434 grants a die. -/
def Dev.opGrant (d : Dev) (die : Nat) : Nat :=
  let lim := min (d.opReq die) (d.opCap die)
  let l1 := match d.pwr.dipCap.find? die with
    | some c => min lim c.1
    | none => lim
  d.opPick (min l1 (d.pwr.thermCap.getD die 4))

/-- Dip caps whose LAUNCHes have all ended are lifted (R446). -/
def Dev.dipCaps (d : Dev) : SMap (Nat × List (Nat × Nat)) :=
  d.pwr.dipCap.filter fun _ c => c.2.any fun x => match d.launch x.1, (d.queue x.1).run with
    | some _, some r => r.seq == x.2
    | _, _ => false

/-- Core voltage at an operating point, in mV (R7). -/
def opMilliVolts (n : Nat) : Nat := ([550, 620, 700, 780, 860] : List Nat).getD n 860

/-- When a change of a die's point stops its core clock, and until when: a raise after its ramp of 10 mV/µs until the change ends; a lowering at
once, for at most 2 µs, how long being free (R435). -/
def Dev.opStops (d : Dev) (now g : Nat) : Nat × Option Nat :=
  if now < g then (d.upTime + 100 * (opMilliVolts g - opMilliVolts now), none) else (d.upTime, some (d.upTime + Config.freeNat d.free 0 % 2001))

/-- Take up a die's grant: its request shows, the event GRANT tells of one that a dip or thermal cap lowers, and a change begins unless
one runs (R434, R435, R455). -/
def Dev.opUpdateDie (d : Dev) (die : Nat) : Dev :=
  if (d.die die).st ≠ 2 then d
  else
    let d1 := d.setRegFld .pwrDieOp [die] 2 0 (d.opReq die)
    let g := d1.opGrant die
    let low := decide (g < d1.opPick (min (d1.opReq die) (d1.opCap die)))
    let d2 := if low && !d1.pwr.low.contains die then d1.pwrEvent 6 else d1
    let d3 : Dev := { d2 with pwr := { d2.pwr with low := d2.pwr.low.filter (· != die) ++ (if low then [die] else []) } }
    if d3.changing die || d3.opNow die == g then d3
    else
      let d4 : Dev := { (d3.setRegBit .pwrDieOp [die] 11).tickFree with
        pwr := { d3.pwr with opTarget := d3.pwr.opTarget.set die g, opStop := d3.pwr.opStop.set die (d3.opStops (d3.opNow die) g) } }
      d4

/-- Take note of the bays that LAUNCHes hold, and of when a bay's last one gave it up (R436). -/
def Dev.noteBays (d : Dev) : Dev :=
  let now := (d.queues.keys.flatMap fun q => match d.launch q with
    | some l => if l.owns then (d.ctxsOf l.cur).map fun x => bayOf x.1 else []
    | none => []).eraseDups
  if now == d.heldBays then d
  else { d with heldBays := now, bayFree := (d.heldBays.filter fun y => !now.contains y).foldl (fun m y => m.set y d.ticks) d.bayFree }

/-- The grants are recomputed. -/
def Dev.opUpdate (d : Dev) : Dev :=
  (List.range 8).foldl Dev.opUpdateDie { d.noteBays with pwr := { d.pwr with dipCap := d.dipCaps } }

/-- The point a die runs at as its link-up ends: what R434 grants with no LAUNCH. -/
def Dev.opStart (d : Dev) (die : Nat) : Dev :=
  if (d.die die).st = 2 then
    { (d.setRegFld .pwrDieOp [die] 11 11 0).setRegFld .pwrDieOp [die] 10 8 (d.opPick 0) with
      pwr := { d.pwr with opTarget := d.pwr.opTarget.erase die, opStop := d.pwr.opStop.erase die } }
  else d

/-! ### The feed-rate limiter (R440, R441) -/

/-- The dies that a sensing point acts on: its own, every die for one of the IOD, none for one of the module (R440, R450). -/
def sensorDies (n : Nat) : List Nat :=
  if n < 512 then [n / 64] else if n < 536 then List.range 8 else if n < 568 then [(n - 536) / 4] else []

/-- A sensing point has failed (R453). -/
def Dev.sensFailed (d : Dev) (n : Nat) : Bool := d.regBit .pwrSens [n] 30

/-- The failed sensing points of a die or of its stacks. -/
def Dev.failedOf (d : Dev) (die : Nat) : List Nat :=
  ((List.range 64).map (64 * die + ·) ++ (List.range 4).map (536 + 4 * die + ·)).filter d.sensFailed

/-- The thermal triggers of a die, as levels. -/
def Dev.thermOf (d : Dev) (die : Nat) : List Nat := (d.pwr.therm.cells.filter fun x => (sensorDies x.1).contains die).map (·.2)

/-- The level that a die's active triggers ask for. -/
def Dev.limWant (d : Dev) (die : Nat) : Nat :=
  min 3 (([if d.pwr.supply ≠ 0 then 2 else 0, if d.pwr.curWarn then 2 else 0, if d.pwr.curLimit then 3 else 0, d.pwr.energy.getD 0,
    if (d.failedOf die).isEmpty then 0 else 1] ++ d.thermOf die).foldl max 0)

def Dev.limLevel (d : Dev) (die : Nat) : Nat := d.regFld .pwrDieLim [die] 1 0

/-- A more restrictive level engages on each die that a trigger asks it of, from the next count that is a multiple of 4; a less restrictive
one waits for the release (R441). -/
def Dev.limEngage (d : Dev) (die : Nat) : Dev :=
  let want := d.limWant die
  let old := d.limLevel die
  if old < want then
    { d.setRegFld .pwrDieLim [die] 1 0 want with
      pwr := { d.pwr with
        limOld := d.pwr.limOld.set die (nextMod (d.cycle die + 1) 4 0, old)
        limRel := d.pwr.limRel.erase die } }
  else
    { d with
      pwr := { d.pwr with
        limRel := if want = old then d.pwr.limRel.erase die
          else if d.pwr.limRel.has die then d.pwr.limRel else d.pwr.limRel.set die (d.cycle die) } }

/-- How a die stands to its thermal cap: its thermal trigger holds it at 25 %, holds it higher, or has ended (R452). -/
def Dev.capPhase (d : Dev) (die : Nat) : Nat :=
  let ts := d.thermOf die
  if ts.contains 3 then 1 else if ts.isEmpty then 2 else 0

/-- Take note of when a die's standing to its thermal cap changes. -/
def Dev.capNote (d : Dev) (die : Nat) : Dev :=
  let x := d.pwr.capAt.getD die (2, 0)
  if x.1 = d.capPhase die then d else { d with pwr := { d.pwr with capAt := d.pwr.capAt.set die (d.capPhase die, d.ticks) } }

/-- The dies take up what their triggers ask of them. -/
def Dev.limApply (d : Dev) : Dev := (List.range 8).foldl (fun d die => (d.limEngage die).capNote die) d

end Sys2Proof.Machine
end

