-- ==== Sys2Proof/Machine/DieAttach.lean ====
section
/-! DEFINITION. Die attach (R230 to R250): modules and their lists, link protection, link-up with the capability records,
clock and link monitors, fences and re-seats; and the receivers of the on-die networks (R211 to R217). -/

namespace Sys2Proof.Machine

/-! ### Sites (R16) -/

/-- The die toward which a site connects; 8 is the IOD, none an unpopulated site. -/
def siteFacing (die site : Nat) : Option Nat :=
  if die % 2 = 0 then
    if site < 6 then some ((die + 7) % 8) else if site < 12 then some 8 else if site < 18 then some ((die + 1) % 8) else none
  else
    if site < 12 then some 8 else if site < 18 then some ((die + 1) % 8) else some ((die + 7) % 8)

/-- The other end of a ring module. -/
def sitePartner (die site : Nat) : Option (Nat × Nat) :=
  match siteFacing die site with
  | none => none
  | some r =>
    if r = 8 then none
    else if 12 ≤ site ∧ site < 18 then some (r, if r % 2 = 0 then site - 12 else site + 6)
    else some (r, site % 6 + 12)

/-- The populated sites of a die, as bits: a corner die has no W sites (R16). -/
def sitesOf (die : Nat) : Nat := if die % 2 = 0 then 0x0003FFFF else 0x00FFFFFF

/-- The gateway of a site: 0 south, 1 east, 2 west (R16). -/
def siteGateway (site : Nat) : Nat := if site < 12 then 0 else if site < 18 then 1 else 2

def Dev.mod (d : Dev) (die site : Nat) : ModSt := d.mods.getD (24 * die + site) {}
def Dev.setMod (d : Dev) (die site : Nat) (x : ModSt) : Dev := { d with mods := d.mods.set (24 * die + site) x }
def Dev.modUp (d : Dev) (die site : Nat) : Bool := d.regBit .datModup [die] site
/-- Index of a module's recovery counter (R408). -/
def modRcv (die site : Nat) : Nat := 32 + 24 * die + site

/-- A module and, on the ring, its other end go up or down. -/
def Dev.putModUp (d : Dev) (die site v : Nat) : Dev :=
  let d1 := d.setRegFld .datModup [die] site site v
  match sitePartner die site with
  | some (e, t) => d1.setRegFld .datModup [e] t t v
  | none => d1

/-! ### Module lists (R233) -/

/-- The sites of a die toward a remote whose modules are up, in list order. -/
def Dev.upSites (d : Dev) (die remote : Nat) : List Nat :=
  (List.range 24).filter fun s => siteFacing die s == some remote && d.modUp die s

def listKey (die remote : Nat) : Nat := 9 * die + remote
def Dev.modList (d : Dev) (die remote : Nat) : List Nat := d.modLists.getD (listKey die remote) []

/-- A changed list waits to be applied, at both ends of a ring pair. -/
def Dev.listChange (d : Dev) (die site : Nat) : Dev :=
  match siteFacing die site with
  | none => d
  | some r =>
    let d1 : Dev := { d with listPend := d.listPend.set (listKey die r) () }
    if r = 8 then d1 else { d1 with listPend := d1.listPend.set (listKey r die) () }

/-- Two dies are ring neighbours. -/
def ringNeighbours (a b : Nat) : Bool := (a + 1) % 8 == b || (b + 1) % 8 == a

/-- Toward which list a flit from `src` enters die `die`, both 8 for the IOD: the ring pair while one of its modules is in its
list, otherwise the IOD (R237). -/
def Dev.entryRemote (d : Dev) (die src : Nat) : Nat :=
  if src < 8 && ringNeighbours die src && !(d.modList die src).isEmpty then src else 8

/-- The module of `die` that a bulk flit of a line uses among those of a list: entry a[11:7] mod the length (R233). -/
def Dev.moduleFor (d : Dev) (die remote line : Nat) : Option Nat :=
  let l := d.modList die remote
  if l.isEmpty then none else some (l.getD (line % 32 % l.length) 0)

/-! ### Modules going down (R235, R237) -/

/-- A cause of the receiving end of a module, with its status bit: a gateway's, or the IOD's (R249). -/
def Dev.modCause (d : Dev) (die site : Nat) (inbound : Bool) (code bit : Nat) : Dev :=
  if inbound then d.datDieCause die code bit (0x850 + siteGateway site) else d.datCause die code bit

/-- No module is left toward a remote: a ring pair down, or the die's IOD edge, which fences it (R237). -/
def Dev.edgeCheck (d : Dev) (die site : Nat) : Dev :=
  match siteFacing die site with
  | none => d
  | some r =>
    if !(d.upSites die r).isEmpty then d
    else if r = 8 then ((d.datCause die 0x5107 6).modDie die fun x => { x with linkFence := true }).fenceDie die 0x5107
    else d.datDieCause die 0x510A 9 (0x850 + siteGateway site)

/-- A module is taken down after five failed sends; its quiet period begins (R235, R236). -/
def Dev.modDown (d : Dev) (die site : Nat) (inbound : Bool) : Dev :=
  ((((d.setMod die site {}).putModUp die site 0).modCause die site inbound 0x5103 2).quietStart (modRcv die site)
    |>.listChange die site).edgeCheck die site

/-- A module starts to train (R236). -/
def Dev.modTrain (d : Dev) (die site : Nat) : Dev :=
  d.setMod die site { training := true }

/-- A module's training has failed: down until software clears TRAIN_FAIL (R236). -/
def Dev.modFailed (d : Dev) (die site : Nat) : Dev :=
  ((d.setMod die site { failed := true }).putModUp die site 0).datCause die 0x5104 3

/-! ### GATEWAY_FLIT_RECEIVE, LINK_REPLAY -/

/-- A gateway's own injection of a flit that enters its die: budget, epoch, cycle (R211). -/
def Dev.restamp (d : Dev) (die site : Nat) (m : Msg) : Msg × Dev :=
  let (inb, d1) := d.charge die (608 + site) 3 m.plane
  ({ m with gw := true, inBudget := inb, epoch := d.cycle die / 1024, inj := d.cycle die }, d1)

/-- A message in flight that the module would bring in, or take out toward an IOD agent or toward the hub, through which the flits of dies
pass that no ring pair joins (R231, R233, R237). -/
def Dev.comesBy (d : Dev) (die site : Nat) (inbound : Bool) (m : Msg) : Bool :=
  let s := (agentDie m.src).getD 8
  let t := (agentDie m.dst).getD 8
  let r := d.entryRemote die s
  m.crosses && !m.gw &&
    (if inbound then
      t == die && (r != 8 || s == 8 || m.hub) && !d.listPend.has (listKey die r) && d.moduleFor die r m.line == some site
    else
      s == die && (t == 8 || (!m.hub && d.entryRemote t die == 8)) && !d.listPend.has (listKey die 8) && d.moduleFor die 8 m.line == some site)

/-- The number of a message's source within its die (R206). -/
def Msg.srcNum (m : Msg) : Nat :=
  match m.source with
  | some (_, n, _) => n
  | none => 0

/-- The order in which flits leave the gateway of a die: by class, then the oldest injection cycle, then the lower source (R212, R232);
what the hub sends on keeps its order. -/
def Dev.exitKey (d : Dev) (m : Msg) : Nat :=
  match agentDie m.src with
  | some k => if m.hub then 0 else (d.flitKey k m * 2 ^ 64 + m.inj) * 1024 + m.srcNum
  | none => 0

/-- The module that control and clamp messages between a die and the IOD use: S5 of a side die, S6 of a corner die, S6 for clamps; if it
is down, the lowest-numbered IOD module that is up (R233). -/
def Dev.beatSite (d : Dev) (die : Nat) (clamp : Bool) : Option Nat :=
  let named := if clamp || die % 2 = 0 then 6 else 5
  if d.modUp die named then some named else (d.upSites die 8).head?

/-- A beat of control or clamp traffic can be on a module: any register access of the command processor is control traffic; clamp traffic is
a message to the IOD's root or a broadcast of a device-scope ID. -/
def Dev.beatComes (d : Dev) (die : Nat) (clamp inbound : Bool) : Bool :=
  !clamp || (if inbound then d.clampDown.any fun x => x.die == die && d.clampDevScope x.id
    else d.net.any fun m => m.kind == .clampUp && m.dst == .clampIod && agentDie m.src == some die)

/-- What the receiving end of a module finds in a beat: a correctable error is recorded, one beyond correction has the sender asked for a
replay, and the fifth in a row takes the module down (R235); `good` says what a delivered flit does. -/
def Dev.beatCheck (d : Dev) (die site : Nat) (inbound : Bool) (f : LinkFind) (good : Dev → Dev) : Dev :=
  let x := d.mod die site
  let deliver (d : Dev) : Dev := good (d.setMod die site (if inbound then { x with failsIn := 0 } else { x with failsOut := 0 }))
  match f with
  | .ok => deliver d
  | .corrected => deliver ((d.modCause die site inbound 0x5101 0).count .datCount [die] 15 0)
  | .uncorrectable =>
    let n := (if inbound then x.failsIn else x.failsOut) + 1
    if 5 ≤ n then d.modDown die site inbound
    else d.setMod die site (if inbound then { x with failsIn := n, askIn := true } else { x with failsOut := n, askOut := true })

/-- The next flit of a class on a module reaches the receiving gateway (R232, R235). A bulk flit of a remote whose list is changing is held
(R233); one whose replay has been asked for waits for it. A control or clamp beat is checked here; its message is delivered by its
own command. -/
def gatewayFlitReceiveEffect (die site : Nat) (inbound : Bool) (c : BeatClass) (f : LinkFind) (d : Dev) : Dev :=
  let x := d.mod die site
  let toIod := siteFacing die site == some 8
  if !d.modUp die site || (!inbound && !toIod) || (if inbound then x.askIn else x.askOut) then d
  else match c with
    | .bulk => match takeBest (d.comesBy die site inbound) d.exitKey d.net with
      | none => d
      | some (m, _) => d.beatCheck die site inbound f fun d1 =>
        let (m1, d2) :=
          if inbound then d1.restamp die site m
          else ((if agentDie m.dst = none then { m with gw := true } else { m with hub := true }), d1)
        let d3 := if inbound && m.hub then d2 else match agentDie m.src with
          | some k => d2.lateCount k m
          | none => d2
        { d3 with net := modFirst (· == m) (fun _ => m1) d3.net }
    | k =>
      let clamp := k == .clamp
      if d.beatSite die clamp != some site || !d.beatComes die clamp inbound then d else d.beatCheck die site inbound f id

/-- The sender replays from its replay buffer (R235). -/
def linkReplayEffect (die site : Nat) (inbound : Bool) (d : Dev) : Dev :=
  let x := d.mod die site
  if !(if inbound then x.askIn else x.askOut) then d
  else ((d.setMod die site (if inbound then { x with askIn := false } else { x with askOut := false })).modCause die site inbound 0x5102 1).count
    .datCount [die] 31 16

/-! ### Module training and lists -/

/-- The retraining of a module ends (R236): it is back in service, or fails. -/
def moduleTrainingDoneEffect (die site : Nat) (ok : Bool) (d : Dev) : Dev :=
  if !(d.mod die site).training || (d.die die).st != 2 then d
  else if ok then (((d.setMod die site {}).putModUp die site 1).rcvReturn (modRcv die site)).listChange die site
  else d.modFailed die site

/-- Every flit already sent has been acknowledged: no replay is outstanding on the old list's modules. -/
def Dev.listQuiet (d : Dev) (die remote : Nat) : Bool :=
  (d.modList die remote).all fun s => let x := d.mod die s; !d.modUp die s || (!x.askIn && !x.askOut)

/-- A changed module list is applied and the held flits go on (R233). -/
def moduleListApplyEffect (die remote : Nat) (d : Dev) : Dev :=
  if !d.listPend.has (listKey die remote) || !d.listQuiet die remote then d
  else { d with
    listPend := d.listPend.erase (listKey die remote)
    modLists := d.modLists.set (listKey die remote) (d.upSites die remote) }

/-! ### Capability records (R238, R240) -/

/-- A record is acceptable (R240). -/
def recordOk (r : List Byte) : Bool :=
  let n (o k : Nat) : Nat := leNat ((r.drop o).take k)
  r.length == 64 && n 0 4 == 0x52435A45 && n 4 2 == 1 && (n 0xB 1 == 1 || n 0xB 1 == 2) && (n 8 1 == 1 || n 8 1 == 0x10) &&
    n 0x3C 4 == crc32 (r.take 60)

def recordFeatures (r : List Byte) : Nat := leNat ((r.drop 0x10).take 8)
def recordOps (r : List Byte) : Nat := leNat ((r.drop 0x1E).take 1)
def recordSites (r : List Byte) : Nat := leNat ((r.drop 0xC).take 4)

/-- The record that an LK8 B0 compute die with an identifier of 16 bytes presents (R16, R238, R239). -/
def b0Record (die : Nat) (id : List Byte) : List Byte :=
  let body := leBytes 0x52435A45 4 ++ leBytes 1 2 ++ leBytes 1 2 ++ [(1 : Byte), 8, 0x10, 2] ++ leBytes (sitesOf die) 4 ++ leBytes 0x7FFF 8 ++
    leBytes 576 2 ++ [24, 24, 2, 16, 0x1F, 64] ++ leBytes 1024 2 ++ leBytes 0 6 ++ (id.take 16 ++ List.replicate (16 - id.length) 0) ++ leBytes 0 4
  body ++ leBytes (crc32 body) 4

/-- DAT_CAPn of a die take an accepted record. A site that the die does not have finds no partner, so that its record lists it as absent
(R16, R238). -/
def Dev.writeCaps (d : Dev) (die : Nat) (r0 : List Byte) : Dev :=
  let r := r0.take 12 ++ leBytes (recordSites r0 % 2 ^ 32 &&& sitesOf die) 4 ++ r0.drop 16
  (List.range 16).foldl (fun d n => d.setReg .datCap [die, n] (BitVec.ofNat 32 (leNat ((r.drop (4 * n)).take 4)))) d

/-- A record lacks a bit of the device-wide sets (R240). -/
def Dev.recordLacks (d : Dev) (r : List Byte) : Bool :=
  let f := d.reg64 .datFeatLo .datFeatHi []
  let o := d.regFld .datDevops [] 4 0
  recordFeatures r &&& f != f || recordOps r &&& o != o

/-! ### Link-up (R241) -/

/-- A die whose link-up fails stays fenced: under R237 or R243 where it has no reference or no IOD module (R241, R249). -/
def Dev.linkUpFailed (d : Dev) (die code bit : Nat) : Dev :=
  (d.datCause die code bit).modDie die fun x =>
    { x with st := 3, stopped := true, linkFence := x.linkFence || code == 0x5106 || code == 0x5107 }

/-- Its modules train: those the record names and that trained go up, every other one is down. -/
def Dev.trainAll (d : Dev) (die sites : Nat) (trained : BitVec 24) : Dev :=
  (List.range 24).foldl (fun d s =>
    if (siteFacing die s).isSome && sites.testBit s then
      if trained.getLsbD s then (d.setMod die s {}).putModUp die s 1 else d.modFailed die s
    else if d.modUp die s then (d.setMod die s {}).putModUp die s 0
    else d) d

/-- Both ends of every link of a die take the lists that its modules give. -/
def Dev.buildLists (d : Dev) (die : Nat) : Dev :=
  ([8, (die + 1) % 8, (die + 7) % 8] : List Nat).foldl (fun d r =>
    let put (d : Dev) (a b : Nat) : Dev := { d with modLists := d.modLists.set (listKey a b) (d.upSites a b), listPend := d.listPend.erase (listKey a b) }
    let d1 := put d die r
    if r = 8 then d1 else put d1 r die) d

/-- A ring pair of two dies that are UP has no module up (R237). -/
def Dev.ringCheck (d : Dev) (die : Nat) : Dev :=
  ([(die + 1) % 8, (die + 7) % 8] : List Nat).foldl (fun d r =>
    match (List.range 24).find? fun s => siteFacing die s == some r with
    | some s => if (d.die r).st = 2 then d.edgeCheck die s else d
    | none => d) d

/-- The link-up of a powered die; `later` tells that the device-wide sets stand already (R240, R241). It runs at the point that R434 grants with
no LAUNCH. -/
def Dev.linkUp (d : Dev) (die : Nat) (f : LinkUpFind) (later : Bool) : Dev :=
  if !f.pll then d.linkUpFailed die 0x5106 5
  else match f.record with
    | none => d.linkUpFailed die 0x5105 4
    | some r =>
      if !recordOk r || (later && d.recordLacks r) then d.linkUpFailed die 0x5105 4
      else
        let d1 := ((d.writeCaps die r).trainAll die (recordSites r) f.trained).buildLists die
        if (d1.upSites die 8).isEmpty then d1.linkUpFailed die 0x5107 6
        else (((d1.modDie die fun x => { x with st := 2, stopped := false, linkFence := false }).setReg .pwrDieDom [die] domAllOn).opStart die).ringCheck
          die

/-- A powered compute die comes up (R241). -/
def dieLinkUpEffect (die : Nat) (f : LinkUpFind) (d : Dev) : Dev :=
  if (d.die die).st = 1 then d.linkUp die f true else d

/-! ### Monitors and fences (R243, R244) -/

/-- A die's clock monitor trips: its core clock stops and the die is fenced, or stays so; its re-seat is then not orderly (R243, R247). -/
def clockMonitorTripEffect (die : Nat) (d : Dev) : Dev :=
  if (d.die die).st ≠ 2 ∧ (d.die die).st ≠ 3 then d
  else (((d.setRegBit .datClkStatus [] (8 + die)).datDieCause die 0x5106 5 0x860).modDie die fun x =>
    { x with linkFence := true }).fenceDie die 0x5106

/-- The IOD's link monitor trips (R243). -/
def linkMonitorTripEffect (die : Nat) (d : Dev) : Dev :=
  if (d.die die).st ≠ 2 ∧ (d.die die).st ≠ 3 then d
  else ((d.datCause die 0x5107 6).modDie die fun x => { x with linkFence := true }).fenceDie die 0x5107

/-- Software fences a die (R244). -/
def dieFenceRequestEffect (die : Nat) (d : Dev) : Dev :=
  if (d.die die).st = 2 ∨ (d.die die).st = 1 then d.fenceDie die 0 else d

/-! ### Re-seat (R247, R248) -/

/-- The data of a line that bay cache `y` owns comes to its home; where the line is no longer its own it is let go (R257). -/
def Dev.takeBack (d : Dev) (y line loc : Nat) (data : Line) (poison dirty : Bool) : Dev :=
  match d.access .core (line * 128) with
  | none => d
  | some l =>
    let q := homeSlice l.die l.x
    match (d.slice q).find loc with
    | none => d
    | some k =>
      let x := (d.slice q).at k
      if x.dir = .x y then
        d.modSlice q fun s =>
          { s with lines := s.lines.set k { x with data := data, valid := true, dirty := x.dirty || dirty, poison := poison, dir := .v, presence := 0 } }
      else d

/-- The owned lines of the die's bay caches, those on their way too, go to their homes; what its slices' writes, their dirty lines and
the controllers' dirty check lines hold goes to its stacks (R248, orderly; R303). -/
def Dev.flushDie (d : Dev) (die : Nat) : Dev :=
  let d1 := d.net.foldl (fun d m =>
    if (m.kind == .wb || m.kind == .replyData) && (agentDie m.src == some die || agentDie m.dst == some die) then
      match m.src with
      | .bay y => d.takeBack y m.line m.loc m.data m.poison true
      | _ => d
    else d) d
  let d2 := ((List.range 8).map (8 * die + ·)).foldl (fun d y =>
    (d.bay y).lines.cells.foldl (fun d c =>
      if c.2.st != .s then d.takeBack y c.2.line c.2.loc c.2.data c.2.poison (c.2.st == .m) else d) d) d1
  ((List.range 16).map (16 * die + ·)).foldl (fun d q =>
    let d3 := d.net.foldl (fun d m => if m.kind == .hbmWrite && m.dst == .slice q then d.hbmPut q m.line m.loc m.data m.poison else d) d
    ((d3.slice q).lines.cells.foldl (fun d c =>
      if c.2.dirty && c.2.valid then d.hbmPut q c.2.line c.2.loc c.2.data c.2.poison else d) d3).checksOut q) d2

/-- A re-seat begins: refused, or the die is flushed if it is orderly, and fenced (R247, R248). -/
def Dev.reseatStart (d : Dev) (die : Nat) : Dev :=
  let orderly := d.regBit .datCtl [die] 2 && !(d.die die).linkFence
  if orderly && !d.quiesced.contains (d.instOfDie die) then (d.setRegBit .datState [die] 19).clrRegBit .datCtl [die] 1
  else
    let d1 := if orderly && (d.die die).st == 2 then d.flushDie die else d
    let d2 := ((d1.fenceDie die 0).modDie die fun x => { x with st := 4, stopped := true }).setRegBit .datCtl [die] 1
    { d2 with reseat := some (die, orderly) }

/-- The re-seats that wait begin one after another, a refused one giving way (R247). -/
def Dev.reseatNext (d : Dev) : List Nat → Dev
  | [] => { d with reseats := [] }
  | x :: xs =>
    let d1 := d.reseatStart x
    if d1.reseat.isSome then { d1 with reseats := xs } else d1.reseatNext xs

/-- Software requests a re-seat; one at a time runs (R247). -/
def Dev.reseatAsk (d : Dev) (die : Nat) : Dev :=
  if (d.die die).st = 0 ∨ d.reseats.contains die ∨ (d.reseat.any (·.1 == die)) then d
  else if d.reseat.isSome then { d.setRegBit .datCtl [die] 1 with reseats := d.reseats ++ [die] }
  else d.reseatStart die

def reseatEffect (die : Nat) (d : Dev) : Dev := d.reseatAsk die

/-- The arrays of a die after its reset: no contexts, empty caches (R248). -/
def Dev.clearDie (d : Dev) (die : Nat) : Dev :=
  { d with
    benches := d.benches.filter fun b _ => dieOf b != die
    bays := d.bays.filter fun y _ => y / 8 != die
    slices := d.slices.filter fun q _ => q / 16 != die
    spent := d.spent.filter fun k _ => k / 2048 != die }

/-- Registers of a die's own blocks: benches, bay caches, slices, controllers and networks (R61, R228, R481). -/
def dieOwnReg (die a : Nat) : Bool :=
  match regAt a with
  | some (r, ix) =>
    let i := ix.headD 0
    if 0x1000000 ≤ a then i / 576 == die
    else if r ∈ [.netBudget, .netLate, .netErrStatus, .netCeCount, .netRsvColl] then i == die
    else if r ∈ [.ucSlStatus, .ucSlShlines, .ucSlErrStatus, .ucSlCeCount, .ucSlHits, .ucSlMisses, .ucSlNp, .ucSlFillwait, .ucSlReds, .hbmCtStatus,
        .hbmCtErrStatus, .hbmCtCeCount, .hbmCtUeCount, .hbmCtPoisonRd, .hbmCtEcs, .hbmCtEcsThr, .hbmCtRetrain] then i / 16 == die
    else if r ∈ [.ucBayErrStatus, .ucBayCeCount, .ucBayHits, .ucBayMisses, .ucBayAtomics] then i / 8 == die
    else false
  | none => false

/-- The near stacks of a die are rewritten to zero (R247). -/
def Dev.zeroStacks (d : Dev) (die : Nat) : Dev :=
  { d with
    hbm := d.hbm.clearRange (die * 2 ^ 37) (2 ^ 37)
    hbmPoison := d.hbmPoison.filter fun k _ => k / 2 ^ 30 != die }

/-- The re-seat that runs ends (R248): the die is UP, its stacks zeroed unless it was orderly, or it stays fenced; then the next one begins. A
die whose link-up fails has not come to its stacks. -/
def reseatDoneEffect (ok : Bool) (f : LinkUpFind) (d : Dev) : Dev :=
  match d.reseat with
  | none => d
  | some (die, orderly) =>
    let was := (d.die die).linkFence
    let d0 : Dev := { (d.clearDie die).resetRegs (dieOwnReg die) with reseat := none }
    let d1 := (d0.setRegFld .datState [die] 3 3 (b2n orderly)).clrRegBit .datCtl [die] 1
    let d2 := (d1.modDie die fun x => { x with st := 1 }).linkUp die f true
    let up := (d2.die die).st == 2
    let d3 := if orderly || !up then d2 else ((d2.zeroStacks die).mirrorsLost die).setRegBit .datState [die] 18
    let d4 := if ok && up then
        ((d3.count .datState [die] 15 8).modDie die fun x => { x with cyc10 := 0 }).refill die
      else (d3.modDie die fun x => { x with st := 3, stopped := true, linkFence := x.linkFence || was }).datCause die 0x5109 8
    d4.reseatNext d4.reseats

/-! ### Receivers of the on-die networks (R211, R215, R217) -/

/-- A network cause of a die (R226). -/
def Dev.netCause (d : Dev) (die code bit agent : Nat) : Dev :=
  d.raise .netErrStatus [die] bit { code := code, master := die * 0x1000 + agent, access := 0, addr := 0, inst := none, die := some die }

/-- Do something `n` times. -/
def repeatN {α : Type} (f : α → α) : Nat → α → α
  | 0, x => x
  | n + 1, x => repeatN f n (f x)

/-- A router has checked a control flit of which `fails` consecutive sends failed: each of the first three is replayed and recorded, the
fourth breaks the link (R215). -/
def controlFlitReceiveEffect (die fails : Nat) (d : Dev) : Dev :=
  if (d.die die).st ≠ 2 then d
  else
    let d1 := repeatN (fun d => (d.netCause die 0x4201 2 0x841).count .netCeCount [die] 31 16) (min fails 3) d
    if 4 ≤ fails then (d1.netCause die 0x4202 3 0x841).fenceDie die 0x4202 else d1

/-- A message whose header is poisoned is discarded, and the request it carried completes at its source with poison (R217). -/
def Dev.headerLost (d : Dev) (m : Msg) : Dev :=
  let back (d : Dev) (w : Msg) : Dev := d.send { w.reply w.replyKind m.src with poison := true, code := if w.replyKind == .lineRsp then 0 else 0x4102, gw := true }
  match m.kind with
  | .rds | .rdx | .rdxn => match m.src with
    | .bay y => match (d.bay y).misses.find? (·.line == m.line) with
      | some x => (x.waiting.foldl back d).modBay y fun b => { b with misses := b.misses.filter (·.line != m.line) }
      | none => d
    | _ => d
  | .benchRead | .benchWrite | .benchRed | .benchAtomic | .wra | .ata | .red => back d m
  | _ => { d with net := d.net ++ [{ m with poison := true }] }

/-- A message that ejects from a bulk network: any but clamp messages and what passes between a slice and its controllers. -/
def Msg.ejects (m : Msg) : Bool := m.dynamic || m.kind == .slotChunk

/-- The `n`-th message in flight ejects and its flits are checked (R217). -/
def bulkFlitEjectEffect (n : Nat) (f : FlitFind) (d : Dev) : Dev :=
  match d.net[n]? with
  | none => d
  | some m =>
    let die := ((agentDie m.dst).orElse fun _ => agentDie m.src).getD 0
    if !m.ready || !m.ejects then d
    else match f with
      | .ok => d
      | .single => (d.netCause die 0x4101 0 0x840).count .netCeCount [die] 15 0
      | .payload => ({ d with net := d.net.set n { m with poison := true } } : Dev).netCause die 0x4102 1 0x840
      | .header => ((({ d with net := d.net.eraseIdx n } : Dev).lateCount die m).netCause die 0x4102 1 0x840).headerLost m

/-! ### The commands -/

section
variable (die : DieIx) (s : State)

def execDieLinkUp (f : LinkUpFind) (s : State) := s.runLive (dieLinkUpEffect die f)
def execGatewayFlitReceive (site : Fin 24) (inbound : Bool) (f : BeatFind) (s : State) :=
  s.runLive (gatewayFlitReceiveEffect die site inbound f.c f.f)
def execLinkReplay (site : Fin 24) (inbound : Bool) (s : State) := s.runLive (linkReplayEffect die site inbound)
def execModuleTrainingDone (site : Fin 24) (ok : Bool) (s : State) := s.runLive (moduleTrainingDoneEffect die site ok)
def execModuleListApply (remote : Fin 9) (s : State) := s.runLive (moduleListApplyEffect die remote)
def execClockMonitorTrip := s.runLive (clockMonitorTripEffect die)
def execLinkMonitorTrip := s.runLive (linkMonitorTripEffect die)
def execDieFenceRequest := s.runLive (dieFenceRequestEffect die)
def execReseat := s.runLive (reseatEffect die)
def execReseatDone (ok : Bool) (f : LinkUpFind) (s : State) := s.runLive (reseatDoneEffect ok f)
def execControlFlitReceive (fails : Nat) (s : State) := s.runLive (controlFlitReceiveEffect die fails)
def execBulkFlitEject (n : Nat) (f : FlitFind) (s : State) := s.runLive (bulkFlitEjectEffect n f)
end

end Sys2Proof.Machine
end

