-- ==== Sys2Proof/Machine/Mirror.lean ====
section
/-! DEFINITION. Book-match mirroring (R409 to R423): MIRROR_OPEN, MIRROR_COMMIT and MIRROR_RESTORE, the blocks that the engine
sends, what the fabric brings for a window, and the timeouts of a commit and of a repair. -/

namespace Sys2Proof.Machine

/-! ### Frames to the buddy (R415, R416) -/

/-- The window number that a frame's TAG carries, with the side. -/
def mirTag (w side : Nat) : Nat := w % 64 + 64 * side

/-- Count mirror payload in KiB (R431). -/
def Dev.mirCount (d : Dev) (n : Nat) : Dev :=
  let t := d.mirSentRem + n
  ({ d with mirSentRem := t % 1024 } : Dev).count .mirSent [] 31 0 (t / 1024)

/-- Send a MIRROR_WRITE frame of a window's side. -/
def Dev.mirWrite (d : Dev) (w side a : Nat) (bs : List Byte) : Dev :=
  let p := (d.mir w).peer
  (d.sendSeq p { op := 0x10, src := d.mirSrc w, dst := d.peerDev p, laddr := a, len := bs.length, tag := mirTag w side, data := bs } (.mirror w)).mirCount
    bs.length

/-- Send a header of the book in a MIRROR_COMMIT frame; it waits to be confirmed. -/
def Dev.mirHeader (d : Dev) (w why : Nat) (s : BookSides) : Dev :=
  let p := (d.mir w).peer
  let bs := headerBytes (w % 64) false (d.mirSrc w) (d.mirSize w) s
  ((d.sendSeq p { op := 0x11, src := d.mirSrc w, dst := d.peerDev p, laddr := d.mirBaddr w, len := 128, tag := w % 64, data := bs } (.mirror w)).modMir w
    fun x => { x with hdrs := x.hdrs ++ [(why, s)] }).mirCount 128

/-- Open the fill side before anything is sent to it: its header, with F marked FILLING (R415). -/
def Dev.mirOpenSide (d : Dev) (w : Nat) : Dev :=
  let x := d.mir w
  let f := x.sides.fillSide
  if x.sent then d
  else (d.modMir w fun y => { y with sent := true }).mirHeader w 1 (x.sides.put f 1 (x.sides.ep f))

/-! ### Failures of the buddy (R412, R419) -/

/-- The window's buddy is lost, or refuses a frame: `code` is 0xA102 or 0xA106. -/
def Dev.mirBroken (d : Dev) (w code : Nat) : Dev :=
  let st := d.mirState w
  let x := d.mir w
  let drop (d : Dev) : Dev := { d with fabReads := d.fabReads.filter fun _ (r : FabRead) => r.owner != FabOwner.mirror w }
  if st = 1 then (((drop d).setMirState w 0).mirFinish w 0x44 0 0).modMir w fun _ => {}
  else if st = 2 then (d.mirCause w code (d.mirBase w)).setMirState w 6
  else if st = 3 then ((d.mirCause w code (d.mirBase w)).setMirState w 6).commitOver w 0x44 code
  else if st = 4 then
    if x.hdrs.any (·.1 == 3) then ((drop d).mirCause w code (d.mirBase w)).setMirState w 6 |>.mirFinish w 0x44 0 code
    else ((((drop d).setMirState w x.prev).modMir w fun y =>
      { y with d0 := { all := true }, d1 := { all := true }, got := none, todo := [] }).mirNote w).mirFinish w 0x44 0 0
  else d

/-! ### Open and close (R412, R413) -/

/-- Bytes `o` to `o + n - 1` of the dirty bitmap (R410). -/
def bitmapBytes (x : MirWin) (o n : Nat) : List Byte :=
  (List.range n).map fun i => BitVec.ofNat 8 (((List.range 4).map fun k =>
    let b := 4 * (o + i) + k
    (b2n (x.d0.has b) + 2 * b2n (x.d1.has b)) * 4 ^ k).sum)

/-- The bitmap as the trailer holds it. -/
def Dev.readBitmap (d : Dev) (w : Nat) : BlockSet × BlockSet :=
  let base := d.mirBase w + d.mirSize w + 0x1000
  (List.range (mirBlocks (d.mirSize w))).foldl (fun s b =>
    match d.access .manager (base + b / 4) with
    | none => s
    | some l =>
      let v := ((d.rawLine l).slice ((base + b / 4) % 128) 1).headD 0
      (s.1.put b (v.getLsbD (2 * (b % 4))), s.2.put b (v.getLsbD (2 * (b % 4) + 1)))) ({}, {})

/-- The open of a window ends: the local epoch and the bitmap come from the trailer (R412), with the blocks written since the open began (R414). -/
def Dev.openEnd (d : Dev) (w : Nat) (sides : BookSides) (adopted : Bool) : Dev :=
  let size := d.mirSize w
  let hdr := match d.access .manager (d.mirBase w + size) with
    | some l => readHeader ((d.rawLine l).slice 0 128) (w % 64) size
    | none => none
  let ep := match hdr with
    | some (s, _) => s.epoch
    | none => 0
  let bv := match hdr with
    | some (_, v) => v
    | none => false
  let maps := if bv then d.readBitmap w else ({ all := true }, { all := true })
  let d1 := d.modMir w fun x =>
    let ks := x.wrote.keys
    let mark (s : BlockSet) : BlockSet := ks.foldl (fun s b => s.put b true) s
    { x with sides := sides, d0 := mark maps.1, d1 := mark maps.2, bitmapValid := bv && ks.isEmpty, sent := false, hdrs := [] }
  let d2 := if bv && !(d1.mir w).bitmapValid then d1.mirTrailer w else d1
  ((((d2.setMirEpoch w ep).setRegFld .mirWState (mirIx w) 4 4 (b2n adopted)).setMirState w 2).mirNote w).mirFinish w 0 0 0

/-- The window and its trailer overlap those of another open window of the owner (R412). -/
def Dev.mirOverlap (d : Dev) (w base size : Nat) : Bool :=
  d.mirrors.keys.any fun v => v / 64 == w / 64 && v != w && d.mirState v != 0 && decide (base < d.mirBase v + mirSpan (d.mirSize v)) &&
    decide (d.mirBase v < base + mirSpan size)

/-- CLOSE: the bitmap goes to the trailer with BITMAP_VALID set, and the window is CLOSED (R413). -/
def Dev.mirClose (d : Dev) (w : Nat) : Dev :=
  let x := d.mir w
  let base := d.mirBase w + d.mirSize w + 0x1000
  let bytes := (mirBlocks (d.mirSize w) + 3) / 4
  let d1 := (List.range ((bytes + 127) / 128)).foldl (fun d i => d.rawPut (base + 128 * i) (lineOf (bitmapBytes x (128 * i) 128))) d
  ((d1.modMir w fun y => { y with bitmapValid := true }).mirTrailer w).setMirState w 0 |>.modMir w fun _ => {}

/-- A new open begins: the registers of the window are written, and the book header is read. -/
def Dev.mirOpen (d : Dev) (q : Nat) (c : Cmd) (w i : Nat) : Dev :=
  let d1 := ((d.setReg64 .mirWBaseLo .mirWBaseHi (mirIx w) (c.n 0x10 8)).setReg64 .mirWSizeLo .mirWSizeHi (mirIx w) (c.n 0x18 8)).setReg64
    .mirWBaddrLo .mirWBaddrHi (mirIx w) (c.n 0x20 8)
  let d2 := ((d1.setReg .mirWBuddy (mirIx w) (BitVec.ofNat 32 (c.n 0xC 4))).setMirEpoch w 0).setMirState w 1
  let d3 := (d2.setMir w { peer := i, job := some (q, c.seq) }).modCmd q fun x => { x with phase := 1 }
  (d3.peerRead (mirInst w) i (c.n 0x20 8) 128 0 (.mirror w)).2

def mirrorOpenEffect (q : Nat) (d : Dev) : Dev :=
  d.withCmd q 0x40 fun c =>
    let w := 64 * d.mirOwner q + c.n 8 1
    let base := c.n 0x10 8
    let size := c.n 0x18 8
    let st := d.mirState w
    if c.phase ≠ 0 then d
    else if c.n 9 1 = 1 then
      if st = 0 then d.finish q 0x40 0
      else if st = 1 ∨ st = 3 ∨ st = 4 then d
      else (d.mirClose w).finish q 0 0
    else if st ≠ 0 then d.finish q 0x40 0
    else if base % 4096 ≠ 0 ∨ c.n 0x20 8 % 4096 ≠ 0 ∨ size % 4096 ≠ 0 ∨ 2 ^ 40 < size then d.finish q 1 0
    else match d.findPeer (mirInst w) (c.n 0xC 4) with
      | none => d.finish q 2 0
      | some i =>
        if !d.mapped (mirWho w) true base (mirSpan size) then d.finish q 2 0
        else if d.mirOverlap w base size then d.finish q 0x41 0
        else if d.peerDown i then d.finish q 0x44 0
        else d.mirOpen q c w i

/-! ### Sending blocks (R415) -/

/-- Read a block of a window: its bytes; `wait` and `bad` as for any command-processor read. -/
def Dev.blockRead (d : Dev) (w b : Nat) : CpRead := Dev.cpRead (mirWho w) 34 d (d.mirBase w + 4096 * b) 4096 []

/-- Blocks of a window that wait for lines of device memory (R269). -/
def Dev.blocksWait (d : Dev) (w : Nat) (bs : List Nat) : Dev :=
  bs.foldl (fun d b => d.fillWaits (5 + w % 4) (d.mirBase w + 4096 * b) 4096) d

/-- Send a block that has been read to the fill side; its signature waits for the next batch. -/
def Dev.blockSend (d : Dev) (w b : Nat) (bs : List Byte) : Dev :=
  let x := d.mir w
  let f := x.sides.fillSide
  let d1 := (d.mirOpenSide w).modMir w fun x =>
    { x.setDirty f ((x.dirty f).put b false) with sigs := x.sigs.set b (BitVec.ofNat 64 (crc64 bs)) }
  (d1.mirWrite w f (bookData (d.mirBaddr w) (d.mirSize w) f b) bs).mirNote w

/-- The first dirty block that has settled and can be read, from a list. -/
def Dev.blockPick (d : Dev) (w settle : Nat) : List Nat → Dev
  | [] => d
  | b :: bs =>
    let quiet := match (d.mir w).wrote.find? b with
      | some t => decide (t + settle ≤ d.ticks)
      | none => true
    if quiet then match d.blockRead w b with
      | .ok d1 x => d1.blockSend w b x
      | .wait => (d.blocksWait w [b]).blockPick w settle bs
      | .bad _ _ _ _ => d.blockPick w settle bs
    else d.blockPick w settle bs

/-- The tick in which the first dirty block of an ACTIVE window has received no write for MIR_SETTLE (R415). -/
def Dev.settleDue (d : Dev) (w : Nat) : Option Nat :=
  let x := d.mir w
  if d.mirState w ≠ 2 then none
  else ((x.dirtyList (d.mirSize w) x.sides.fillSide).map fun b => match x.wrote.find? b with
    | some t => t + d.ticksOf .mirSettle
    | none => 0).min?

/-- A dirty block of an ACTIVE window goes to the fill side. -/
def mirrorBlockSendEffect (w : Nat) (d : Dev) : Dev :=
  let x := d.mir w
  if d.mirState w ≠ 2 then d
  else if d.peerDown x.peer then d.mirBroken w 0xA102
  else d.blockPick w (d.ticksOf .mirSettle) (x.dirtyList (d.mirSize w) x.sides.fillSide)

/-! ### Commit (R417 to R419) -/

/-- What the snapshot of a commit finds. -/
inductive Snap where
  | wait
  | poison (d : Dev)
  | ok (d : Dev)

/-- Read and send the snapshot blocks in order. -/
def Dev.snapshot (w : Nat) : Dev → List Nat → Snap
  | d, [] => .ok d
  | d, b :: bs => match d.blockRead w b with
    | .wait => .wait
    | .bad d1 _ _ _ => .poison d1
    | .ok d1 x => Dev.snapshot w (d1.blockSend w b x) bs

/-- The signature that a batch carries for a block: the one kept, or that of a block which the fill side already holds. -/
def Dev.sigOf (w : Nat) (d : Dev) (b : Nat) : Option (Option (Dev × Nat)) :=
  match (d.mir w).sigs.find? b with
  | some v => some (some (d, v.toNat))
  | none =>
    if mirBlocks (d.mirSize w) ≤ b then some (some (d, 0))
    else match d.blockRead w b with
      | .wait => none
      | .bad _ _ _ _ => some none
      | .ok d1 x => some (some (d1, crc64 x))

/-- One line of 16 signatures, from block `16 g` on. -/
def Dev.sigLine (w : Nat) : Dev → List Nat → List Byte → Option (Option (Dev × List Byte))
  | d, [], got => some (some (d, got))
  | d, b :: bs, got => match Dev.sigOf w d b with
    | none => none
    | some none => some none
    | some (some (d1, v)) => Dev.sigLine w d1 bs (got ++ leBytes v 8)

/-- Send the signatures not yet sent, line by line (R415). -/
def Dev.sendSigs (w : Nat) : Dev → List Nat → Snap
  | d, [] => .ok (d.modMir w fun x => { x with sigs := ⟨[]⟩ })
  | d, g :: gs => match Dev.sigLine w d ((List.range 16).map (16 * g + ·)) [] with
    | none => .wait
    | some none => .poison d
    | some (some (d1, bs)) =>
      let f := (d1.mir w).sides.fillSide
      Dev.sendSigs w (d1.mirWrite w f (bookSig (d1.mirBaddr w) (d1.mirSize w) f (16 * g)) bs) gs

/-- The commit of an ACTIVE window to an epoch: its snapshot and signatures are sent, then the header with F SEALED. Nothing has
happened while a line of them is busy. -/
def Dev.commitStart (d : Dev) (q seq w ep : Nat) : Dev :=
  let x := d.mir w
  let f := x.sides.fillSide
  if d.peerDown x.peer then
    (((d.modMir w fun y => { y with job := some (q, seq) }).setMirState w 3).modCmd q fun c => { c with stage := c.stage.set w 1 }).mirBroken w 0xA102
  else
    let d0 := (((d.modMir w fun y => { y with commit := some ep, commitAt := d.ticks, job := some (q, seq) }).setMirState w 3).modCmd q fun c =>
      { c with stage := c.stage.set w 1 })
    match Dev.snapshot w d0 (x.dirtyList (d.mirSize w) f) with
    | .wait => d.blocksWait w (x.dirtyList (d.mirSize w) f)
    | .poison d1 => (d1.setMirState w 2).commitOver w 0x46 0
    | .ok d1 =>
      let gs := ((d1.mir w).sigs.keys.map (· / 16)).eraseDups
      match Dev.sendSigs w d1 gs with
      | .wait => d.blocksWait w (gs.flatMap fun g => (List.range 16).map (16 * g + ·))
      | .poison d2 => (d2.setMirState w 2).commitOver w 0x46 0
      | .ok d2 => d2.mirHeader w 2 ((d2.mir w).sides.put f 2 ep)

/-- What refuses a window of a MIRROR_COMMIT (R417, R420). -/
def Dev.commitRefusal (d : Dev) (w : Nat) : Option Nat :=
  match d.mirState w with
  | 2 => none
  | 3 => none
  | 6 => some 0x44
  | _ => some 0x40

/-- Serve the named windows that wait, in order. -/
def Dev.commitServe (q : Nat) (c : Cmd) : Dev → List Nat → Dev
  | d, [] => d
  | d, w :: ws =>
    let stage := match (d.queue q).run with
      | some x => x.stage.getD w 0
      | none => 3
    let d1 :=
      if stage ≠ 0 ∨ d.mirState w = 3 then d
      else match d.commitRefusal w with
        | some st => d.mirPart q c.seq w st 0
        | none => if c.n 0x10 8 ≤ d.mirEpoch w then d.mirPart q c.seq w 0x42 0 else d.commitStart q c.seq w (c.n 0x10 8)
    Dev.commitServe q c d1 ws

def mirrorCommitEffect (q : Nat) (d : Dev) : Dev :=
  d.withCmd q 0x41 fun c =>
    let ws := c.mask (d.mirOwner q)
    if c.phase = 1 then Dev.commitServe q c d ws
    else match ws.findSome? d.commitRefusal with
      | some st => d.finish q st 0
      | none =>
        if ws.isEmpty then d.finish q 0x40 0
        else if ws.any fun w => d.mirState w == 2 && decide (c.n 0x10 8 ≤ d.mirEpoch w) then d.finish q 0x42 0
        else Dev.commitServe q c (d.modCmd q fun x => { x with phase := 1 }) ws

/-- The tick in which a commit in progress has lasted MIR_COMMIT_TMO. -/
def Dev.commitDue (d : Dev) (w : Nat) : Option Nat := if d.mirState w = 3 then some ((d.mir w).commitAt + d.ticksOf .mirCommitTmo) else none

/-- MIR_COMMIT_TMO has passed since the commit point (R419). -/
def commitTimeoutEffect (w : Nat) (d : Dev) : Dev :=
  if (d.commitDue w).all (d.ticks < ·) then d else ((d.mirCause w 0xA103 (d.mirBase w)).setMirState w 2).commitOver w 0x45 0xA103

/-- A MIRROR_CONFIRM for a window's oldest unconfirmed header (R412, R415, R417, R423). -/
def Dev.confirmed (d : Dev) (w : Nat) : Dev :=
  let x := d.mir w
  match x.hdrs with
  | [] => d
  | (why, s) :: rest =>
    let d1 := d.modMir w fun y => { y with hdrs := rest }
    match why with
    | 0 => d1.openEnd w s false
    | 1 => ((d1.modMir w fun y => { y with sides := s }).mirTrailer w).mirNote w
    | 2 => match x.commit with
      | some ep =>
        let d2 := (d1.modMir w fun y => { y with sides := s, sent := false }).setMirEpoch w ep
        ((d2.mirTrailer w).setMirState w 2).commitOver w 0 0
      | none => d1
    | 3 =>
      let e := s.epoch
      let d2 := d1.modMir w fun y => { y with sides := {}, sent := false, d0 := { all := true }, d1 := { all := true }, lost := [] }
      let d3 := if d2.mirEpoch w < max e (x.srcSides.epoch) then d2.setMirEpoch w (x.srcSides.epoch) else d2
      (((d3.mirTrailer w).setMirState w 2).mirNote w).mirFinish w 0 0 0
    | _ => d1

/-- The window that a MIRROR_CONFIRM from peer `p` is for: of the instance, or of the manager, which sends through instance 0. -/
def Dev.confirmFor (d : Dev) (inst p tag ep : Nat) : Option Nat :=
  let cands := (64 * inst + tag % 64) :: (if inst = 0 then [512 + tag % 64] else [])
  let waits (w : Nat) : Bool := let x := d.mir w; x.peer == p && !x.hdrs.isEmpty
  let fits (w : Nat) : Bool := match (d.mir w).hdrs with
    | h :: _ => h.2.epoch == ep
    | [] => false
  match cands.find? fun w => waits w && fits w with
  | some w => some w
  | none => cands.find? waits

/-! ### Restore (R421 to R423) -/

/-- Keep the local copy (R423). -/
def Dev.keepLocal (d : Dev) (w : Nat) : Dev := d.mirHeader w 3 {}

/-- A restore ends with the window ACTIVE and nothing copied. -/
def Dev.restoreSame (d : Dev) (w st info : Nat) : Dev := ((d.setMirState w 2).mirNote w).mirFinish w st info 0

/-- A line of the block is homed on one of the dies. -/
def Dev.blockOn (d : Dev) (w b : Nat) (dies : List Nat) : Bool :=
  (List.range 32).any fun i =>
    let a := d.mirBase w + 4096 * b + 128 * i
    match d.winFind a with
    | some v => dies.contains (v.decode a).1
    | none => false

/-- The blocks that a restore copies (R422). -/
def Dev.copyList (d : Dev) (w : Nat) : List Nat :=
  let x := d.mir w
  let size := d.mirSize w
  let last := x.srcSides.last.getD 0
  let wasLost := x.prev == 7
  let trailerOff := x.lost.all fun die => !d.backs die (d.mirBase w + size) (mirSpan size - size)
  let all := List.range (mirBlocks size)
  if wasLost && trailerOff && d.mirEpoch w == x.srcSides.epoch then all.filter fun b => d.blockOn w b x.lost || (x.dirty last).has b
  else if !wasLost && d.mirEpoch w == x.srcSides.epoch && x.bitmapValid then x.dirtyList size last
  else all

/-- Ask for the next block and its signature; with none left the copy ends (R422). -/
def Dev.copyNext (d : Dev) (w : Nat) : Dev :=
  let x := d.mir w
  let last := x.srcSides.last.getD 0
  match x.todo with
  | b :: bs =>
    let d1 := d.modMir w fun y => { y with todo := bs, got := some { block := b } }
    let d2 := (d1.peerRead (mirInst w) x.srcPeer (bookData (d.mirBaddr w) (d.mirSize w) last b) 4096 2 (.mirror w)).2
    (d2.peerRead (mirInst w) x.srcPeer (bookSig (d.mirBaddr w) (d.mirSize w) last b) 8 3 (.mirror w)).2
  | [] =>
    let d1 := d.modMir w fun y =>
      let z := { y with sides := y.srcSides, sent := false, got := none, lost := [], hdrs := [] }
      let f := z.sides.fillSide
      (z.setDirty last {}).setDirty f { all := true }
    ((((d1.setMirEpoch w x.srcSides.epoch).mirTrailer w).setMirState w 2).mirNote w).mirFinish w (if x.bad = 0 then 0 else 0x47) x.bad 0

def Dev.copyBegin (d : Dev) (w : Nat) : Dev := (d.modMir w fun x => { x with todo := d.copyList w, bad := 0 }).copyNext w

/-- A restore with equal epochs ends: the copies differ or they do not (R421). -/
def Dev.restoreEqual (d : Dev) (w : Nat) (differ : Bool) : Dev :=
  if differ then ((d.mirCause w 0xA101 (d.mirBase w)).setMirState w 5).mirFinish w 0x43 0 0xA101 else d.restoreSame w 0 0

/-- The source's header has come (R421). -/
def Dev.restoreHeader (d : Dev) (w : Nat) (bs : List Byte) : Dev :=
  match readHeader bs (w % 64) (d.mirSize w) with
  | none => (d.modMir w fun x => { x with d0 := { all := true }, d1 := { all := true } }).restoreSame w 0x49 0
  | some (s, _) =>
    let d1 := d.modMir w fun x => { x with srcSides := s, rx := [] }
    let x := d1.mir w
    let eb := s.epoch
    let el := if x.prev = 7 then 0 else d.mirEpoch w
    match x.keep with
    | 1 => d1.keepLocal w
    | 2 => if eb = 0 then (d1.setMirState w x.prev).mirFinish w 0x48 0 0 else d1.copyBegin w
    | _ =>
      if el < eb then d1.copyBegin w
      else if eb < el ∨ eb = 0 then d1.keepLocal w
      else
        let last := s.last.getD 0
        if x.bitmapValid && x.prev != 7 then d1.restoreEqual w (!(x.dirtyList (d.mirSize w) last).isEmpty)
        else if mirBlocks (d.mirSize w) = 0 then d1.restoreEqual w false
        else (d1.peerRead (mirInst w) x.srcPeer (bookSig (d.mirBaddr w) (d.mirSize w) last 0) (8 * mirBlocks (d.mirSize w)) 1 (.mirror w)).2

/-- Compare the source's signatures with those of the local blocks: none while a line is busy; a block that cannot be read
differs. -/
def Dev.sigsDiffer (w : Nat) (sigs : List Byte) : Dev → List Nat → Option Bool
  | _, [] => some false
  | d, b :: bs => match d.blockRead w b with
    | .wait => none
    | .bad _ _ _ _ => some true
    | .ok d1 x => if crc64 x = leNat ((sigs.drop (8 * b)).take 8) then Dev.sigsDiffer w sigs d1 bs else some true

/-- A block with its signature is there: it is written at its home slices, poisoned if they do not match (R422). -/
def Dev.blockPut (w b : Nat) (bs : List Byte) (bad : Bool) : Dev → List Nat → Option Dev
  | d, [] => some d
  | d, i :: is =>
    let a := d.mirBase w + 4096 * b + 128 * i
    match d.access (mirWho w) a with
    | none => Dev.blockPut w b bs bad d is
    | some l => match d.cohWrite l a (lineOf ((bs.drop (128 * i)).take 128)) (BitVec.allOnes 128) bad with
      | .wait => none
      | .lost => Dev.blockPut w b bs bad d is
      | .ok d1 _ _ => Dev.blockPut w b bs bad d1 is

def Dev.blockDone (d : Dev) (w : Nat) (g : BlockGot) (sig : List Byte) : Option Dev :=
  let bad := g.poison || crc64 g.data != leNat sig
  (Dev.blockPut w g.block g.data bad d (List.range 32)).map fun d1 =>
    let d2 := if bad then (d1.mirCause w 0xA105 (d.mirBase w + 4096 * g.block)).modMir w fun x => { x with bad := x.bad + 1 } else d1
    d2.copyNext w

/-- What a restore waits for: the lines of the block that has come, or those whose signatures it compares (R269). -/
def Dev.mirWaits (d : Dev) (w : Nat) : Dev :=
  match (d.mir w).got with
  | some g => d.blocksWait w [g.block]
  | none => d.blocksWait w (List.range (mirBlocks (d.mirSize w)))

/-- Bytes that a window has asked a peer for arrive, `off` bytes into the read of kind `row`: 0 a header, 1 the signatures, 2 a
block, 3 its signature. None while a line that they bear on is busy. -/
def Dev.mirGot (d : Dev) (w row off : Nat) (bs : List Byte) (poison : Bool) : Option Dev :=
  let st := d.mirState w
  let x := d.mir w
  match row with
  | 0 =>
    if st = 1 then match (if poison then none else readHeader bs (w % 64) (d.mirSize w)) with
      | some (s, _) => some (d.openEnd w s true)
      | none => some (d.mirHeader w 0 {})
    else if st = 4 then some (d.restoreHeader w (if poison then [] else bs))
    else some d
  | 1 =>
    let all := (x.rx.take off) ++ bs
    let d1 := d.modMir w fun y => { y with rx := all }
    if st ≠ 4 ∨ all.length < 8 * mirBlocks (d.mirSize w) then some d1
    else (Dev.sigsDiffer w all d1 (List.range (mirBlocks (d.mirSize w)))).map fun df => d1.restoreEqual w df
  | _ => match x.got with
    | none => some d
    | some g =>
      let g1 : BlockGot := if row = 2 then { g with data := g.data.take off ++ bs, poison := g.poison || poison }
                           else { g with sig := some bs, poison := g.poison || poison }
      let d1 := d.modMir w fun y => { y with got := some g1 }
      match g1.sig with
      | some s => if 4096 ≤ g1.data.length then d1.blockDone w g1 s else some d1
      | none => some d1

def mirrorRestoreEffect (q : Nat) (d : Dev) : Dev :=
  d.withCmd q 0x42 fun c =>
    let w := 64 * d.mirOwner q + c.n 8 1
    let st := d.mirState w
    if c.phase ≠ 0 ∨ st = 3 then d
    else if st = 0 ∨ st = 1 ∨ st = 4 then d.finish q 0x40 0
    else if st = 6 then d.finish q 0x44 0
    else if st = 5 ∧ c.n 9 1 = 0 then d.finish q 0x43 0
    else match d.findPeer (mirInst w) (c.n 0xC 4) with
      | none => (d.noPeer q (c.n 0xC 4 * 2 ^ 44 + d.mirBaddr w)).finish q 2 0 0x6205
      | some i =>
        if d.peerDown i then d.finish q 0x44 0
        else
          let d1 := (d.modMir w fun x => { x with prev := st, srcPeer := i, keep := c.n 9 1, job := some (q, c.seq), got := none, todo := [], bad := 0 })
          let d2 := (d1.setMirState w 4).modCmd q fun x => { x with phase := 1 }
          (d2.peerRead (mirInst w) i (d.mirBaddr w) 128 0 (.mirror w)).2

/-! ### Repair (R424) -/

/-- The tick in which the oldest repair of a window has lasted MIR_REPAIR_TMO. -/
def Dev.repairDue (d : Dev) (w : Nat) : Option Nat := (d.repairs.find? (·.win == w)).map fun r => r.since + d.ticksOf .mirRepairTmo

/-- MIR_REPAIR_TMO has passed for the oldest repair of a window. -/
def repairTimeoutEffect (w : Nat) (d : Dev) : Dev :=
  match d.repairs.find? (·.win == w) with
  | none => d
  | some r => if (d.repairDue w).all (d.ticks < ·) then d else d.repairEnd r.id false

/-! ### The commands -/

def execMirrorOpen (q : QueueIx) (s : State) := s.runLive (mirrorOpenEffect q)
def execMirrorCommit (q : QueueIx) (s : State) := s.runLive (mirrorCommitEffect q)
def execMirrorRestore (q : QueueIx) (s : State) := s.runLive (mirrorRestoreEffect q)

end Sys2Proof.Machine
end

