-- ==== Sys2Proof/Machine/FabLink.lean ====
section
/-! DEFINITION. Fabric ports and reliability (R367 to R371, R374, R382 to R386): the states of a port, link-level retry, acknowledgement
and retransmission, unreachable peers, and the writes of fabric registers that do more than store. -/

namespace Sys2Proof.Machine

/-! ### Causes (R390) -/

def Dev.portCause (d : Dev) (p code bit : Nat) : Dev :=
  d.raise .fabErrStatus [] bit { code := code, master := 0xF880 + p, access := 0, addr := 0, inst := some (d.instOfPort p), die := none }

/-! ### Acknowledgement (R383) -/

/-- The sequence number `b` is at or before `a`, modulo 2^32. -/
def seqLe (b a : Nat) : Bool := decide ((a + 2 ^ 32 - b) % 2 ^ 32 < 2 ^ 31)

/-- What is complete when a sent frame is acknowledged. -/
def Dev.sentDone (d : Dev) (x : SentFrame) : Dev :=
  if x.frame.op = 0x01 ∨ x.frame.op = 0x04 then
    match x.owner with
    | .tm b id => d.tmAcked b id
    | .queue q seq => d.cpAck q seq x.frame.len
    | _ => d
  else d

/-- A cumulative acknowledgement of a stream: the frames up to it leave the window, and waiting ones follow. -/
def Dev.ackTo (d : Dev) (i : Nat) (c : Bool) (a : Nat) : Dev :=
  let s := (d.peer i).stream c
  let done := s.unacked.takeWhile fun x => seqLe x.frame.seq a
  if done.isEmpty then d
  else
    let d1 := d.modPeer i fun p => { p.setStream c { s with unacked := s.unacked.drop done.length } with expiries := 0 }
    (done.foldl Dev.sentDone d1).pump i c (s.backlog.length + 1)

/-- Send a separate ACK of a stream; TAG tells the stream (0 bulk, 1 clamp). -/
def Dev.sendAck (d : Dev) (i : Nat) (c : Bool) : Dev :=
  let s := (d.peer i).stream c
  let f : Frame := { op := 0x30, src := d.ownId (d.instOfPeer i), dst := d.peerDev i, ack := s.ackVal, tag := b2n c }
  (d.modPeer i fun p => p.setStream c { s with ackDue := false }).sendPlain i f

/-- Send a NAK that names the expected SEQ, at most one in 1 µs. -/
def Dev.sendNak (d : Dev) (i : Nat) (c : Bool) : Dev :=
  let s := (d.peer i).stream c
  let soon := match s.nakAt with
    | some t => decide (d.ticks < t + 50)
    | none => false
  if soon then d
  else
    let f : Frame := { op := 0x31, src := d.ownId (d.instOfPeer i), dst := d.peerDev i, seq := s.expected, ack := s.ackVal, tag := b2n c }
    (d.modPeer i fun p => p.setStream c { s with nakAt := some d.ticks }).sendPlain i f

/-! ### Unreachable peers (R384) -/

/-- The context of a tile-mover descriptor is killed. -/
def Dev.tmKill (d : Dev) (b id code : Nat) : Dev :=
  match (d.bench b).tm.find? (·.id == id) with
  | some t => d.killQuiet b t.ctx code
  | none => d

/-- A sent frame fails with its peer. -/
def Dev.sentLost (d : Dev) (x : SentFrame) : Dev :=
  if x.frame.op = 0x01 ∨ x.frame.op = 0x04 then
    match x.owner with
    | .tm b id => d.tmKill b id 0x6201
    | .queue q seq => d.cpBad q seq 0x22 0x6201 0
    | _ => d
  else d

/-- A read or atomic whose answer is awaited fails with its peer. -/
def Dev.readLost (d : Dev) (r : FabRead) : Dev :=
  match r.owner with
  | .tm b id => d.tmKill b id 0x6201
  | .queue q seq => d.cpBad q seq 0x22 0x6201 0
  | .repair id => d.repairEnd id false
  | _ => d

/-- A window has something outstanding at a peer, or waits for it. -/
def Dev.mirNeeds (d : Dev) (w i : Nat) (olds : List SentFrame) : Bool :=
  let x := d.mir w
  let st := d.mirState w
  (x.peer == i && (st == 1 || st == 3 || !x.hdrs.isEmpty || (st == 2 && olds.any (·.owner == .mirror w)))) || (st == 4 && x.srcPeer == i && x.hdrs.isEmpty)

/-- A system clamp's tree uses a peer (R386). -/
def Dev.clampUses (d : Dev) (k i : Nat) : Bool :=
  d.xclp k && ((!d.xclpRoot k && d.xclpParent k == i) || (d.xclpKids k).contains i)

/-- Everything outstanding to a peer fails, and its streams are empty. -/
def Dev.peerFail (d : Dev) (i : Nat) : Dev :=
  let p := d.peer i
  let olds := p.bulk.unacked ++ p.bulk.backlog ++ p.clamp.unacked ++ p.clamp.backlog
  let reads := (d.fabReads.cells.map (·.2)).filter (·.peer == i)
  let inst := d.instOfPeer i
  let d1 := ({ d with fabReads := d.fabReads.filter fun _ (r : FabRead) => r.peer != i } : Dev).setPeer i { p with bulk := {}, clamp := {}, expiries := 0 }
  let d2 := d1.collLost inst (d.peerDev i)
  let d3 := olds.foldl Dev.sentLost d2
  let d4 := reads.foldl Dev.readLost d3
  let d5 := (d4.mirrors.keys.filter fun w => d.mirNeeds w i olds).foldl (fun d w => d.mirBroken w 0xA102) d4
  ((List.range 256).filter fun k => d.clampUses k i && d.clampValid k).foldl Dev.clampFail d5

/-- A peer becomes unreachable. -/
def Dev.peerLost (d : Dev) (i : Nat) : Dev :=
  let d1 := (d.modPeer i fun p => { p with st := 2, resyncSent := false, resyncGot := false, resyncAt := d.ticks }).fabCause (d.instOfPeer i) (d.peerDev i) 0x6201 6 0 0
  d1.peerFail i

/-- RETRY of FAB_RTO; 0 stands for 8. -/
def Dev.rtoRetry (d : Dev) : Nat :=
  let v := d.regFld .fabRto [] 31 24
  if v = 0 then 8 else v

/-- FAB_RTO.TICKS; 0 stands for 0x3E8 (R391). -/
def Dev.rtoTicks (d : Dev) : Nat :=
  let v := d.regFld .fabRto [] 23 0
  if v = 0 then 0x3E8 else v

/-- The tick in which FAB_RTO.TICKS have passed since a stream's oldest frame was last sent. -/
def Dev.retransmitDue (d : Dev) (i : Nat) (c : Bool) : Option Nat :=
  if d.peerDown i then none else ((d.peer i).stream c).unacked.head?.map fun x => x.sentAt + d.rtoTicks

/-- FAB_RTO.TICKS has passed since a stream's oldest frame was last sent (R383, R384). -/
def retransmitTimeoutEffect (i : Nat) (c : Bool) (d : Dev) : Dev :=
  let p := d.peer i
  if (d.retransmitDue i c).all (d.ticks < ·) then d
  else if d.rtoRetry ≤ p.expiries + 1 then d.peerLost i
  else (d.modPeer i fun p => { p with expiries := p.expiries + 1 }).resend i c

/-- The tick in which no port of a peer's entry has been UP for 1 ms. -/
def Dev.noPortDue (d : Dev) (i : Nat) : Option Nat :=
  if d.peerValid i && !d.peerDown i && (d.routePort i).isNone then
    some (((d.routes i).map fun r => if r.1 then (d.port r.2).leftUp else 0).foldl max 0 + 50000)
  else none

/-- No port of the peer's entry has been UP for 1 ms. -/
def peerNoPortTimeoutEffect (i : Nat) (d : Dev) : Dev := if (d.noPortDue i).all (d.ticks < ·) then d else d.peerLost i

/-- Both ends have exchanged RESYNC: the streams start again at SEQ 0 and the peer is OK. -/
def Dev.resyncEnd (d : Dev) (i : Nat) : Dev :=
  let p := d.peer i
  if p.resyncSent && p.resyncGot then d.setPeer i {} else d

def Dev.sendResync (d : Dev) (i : Nat) : Dev :=
  d.sendPlain i { op := 0x32, src := d.ownId (d.instOfPeer i), dst := d.peerDev i }

/-- The tick in which an unreachable peer that has a port UP is due its next RESYNC. -/
def Dev.resyncDue (d : Dev) (i : Nat) : Option Nat :=
  if d.peerDown i && (d.routePort i).isSome then some ((d.peer i).resyncAt + 50000) else none

/-- Every 1 ms while a port of its entry is UP, an unreachable peer is sent RESYNC. -/
def resyncTimerEffect (i : Nat) (d : Dev) : Dev :=
  if (d.resyncDue i).all (d.ticks < ·) then d
  else ((d.sendResync i).modPeer i fun p => { p with st := 1, resyncSent := true, resyncAt := d.ticks }).resyncEnd i

/-- RESYNC arrives: from a peer that was OK it means that the peer has reset. -/
def Dev.resyncGot (d : Dev) (i : Nat) : Dev :=
  if d.peerDown i then (d.modPeer i fun p => { p with st := 1, resyncGot := true }).resyncEnd i
  else ((d.peerFail i).setPeer i {}).sendResync i

/-- The tick in which an acknowledgement has been due for 100 ns. -/
def Dev.ackDelayDue (d : Dev) (i : Nat) (c : Bool) : Option Nat :=
  let s := (d.peer i).stream c
  if s.ackDue then some (s.ackAt + 5) else none

/-- No frame has carried a stream's ACK within 100 ns. -/
def ackDelayExpiryEffect (i : Nat) (c : Bool) (d : Dev) : Dev := if (d.ackDelayDue i c).all (d.ticks < ·) then d else d.sendAck i c

/-! ### Ports (R369, R370) -/

/-- A port's lanes belong to two instances (R354). -/
def Dev.portSplit (d : Dev) (p : Nat) : Bool :=
  let w := 48 / d.portCount
  p * w / (48 / d.instN) != (p * w + w - 1) / (48 / d.instN)

/-- Streams with frames unacknowledged whose port is not UP move to another one of their entry that is (R385). -/
def Dev.routeAround (d : Dev) : Dev :=
  d.peers.keys.foldl (fun d i => [false, true].foldl (fun d c =>
    let s := (d.peer i).stream c
    let up := match (d.routes i)[s.slot]? with
      | some r => d.routeUp i r
      | none => false
    if s.unacked.isEmpty || up || d.peerDown i then d else d.resend i c) d) d

/-- A port that carried frames leaves UP. -/
def Dev.portOff (d : Dev) (p st why : Nat) : Dev :=
  let was := (d.port p).st == 3
  let d1 := d.modPort p fun x => { x with
    st := st, why := why, direct := false, replay := [], wait := [], fails := 0, syncAt := none, pdSent := none
    leftUp := if was then d.ticks else x.leftUp }
  if was then d1.routeAround else d1

/-- A port may start: its grouping has it, DISABLE is clear and its instance has a device ID; split lanes and a missing clock
make it NOFORM instead (R369). -/
def Dev.portStart (d : Dev) (p : Nat) : Dev :=
  if d.portCount ≤ p ∨ d.regBit .fabPortCtl [p] 0 then d
  else if d.portSplit p then (d.portOff p 1 1).portCause p 0x6103 2
  else if !d.regBit .fabDevid [d.instOfPort p] 31 then d
  else if !d.regBit .fabCfg [] 15 then (d.portOff p 1 3).portCause p 0x6104 3
  else d.portOff p 2 0

/-- A DISABLED port that may start does. -/
def Dev.portCheck (d : Dev) (p : Nat) : Dev := if (d.port p).st = 0 then d.portStart p else d

/-- DISABLE is cleared. -/
def Dev.portAllow (d : Dev) (p : Nat) : Dev := (d.clrRegBit .fabPortCtl [p] 0).portCheck p

/-- DISABLE is set: the port is DISABLED from any state. -/
def Dev.portDisable (d : Dev) (p : Nat) : Dev :=
  let d1 := ((d.setRegBit .fabPortCtl [p] 0).portOff p 0 0).modPort p fun x => { x with wasUp := false }
  { d1 with quiet := d1.quiet.erase p }

/-- An UP port goes DOWN, and its quiet period starts (R370, R404). -/
def Dev.portDown (d : Dev) (p : Nat) : Dev :=
  if (d.port p).st ≠ 3 then d else ((d.portOff p 4 0).portCause p 0x6101 0).quietStart p

/-- The quiet period of a DOWN port ends (R369, R405). -/
def Dev.portQuietEnd (d : Dev) (p : Nat) : Dev :=
  if (d.port p).st ≠ 4 then d
  else match d.quietEnd p (0xF880 + p) (some (d.instOfPort p)) with
    | (d1, true) => d1.modPort p fun x => { x with st := 2 }
    | (d1, false) => d1.modPort p fun x => { x with st := 5, why := 5 }

/-- Software has cleared TRAIN_FAIL (`why` 4) or PORT_DOWN (5): ports latched by that cause train again (R369, R406). -/
def Dev.portRelease (d : Dev) (why : Nat) : Dev :=
  (List.range 24).foldl (fun d p =>
    if (d.port p).st = 5 ∧ (d.port p).why = why then (if why = 5 then d.rcvRelease p else d).portStart p else d) d

def portEnableEffect (p : Nat) (d : Dev) : Dev := d.portAllow p
def portDisableEffect (p : Nat) (d : Dev) : Dev := d.portDisable p
def portDownRequestEffect (p : Nat) (d : Dev) : Dev := d.portDown p
def portAlignmentLossEffect (p : Nat) (d : Dev) : Dev := d.portDown p

/-- A training attempt ends (R368, R369, R382): link retry runs if the partner is an LK8 and both ends offer it. -/
def portTrainingDoneEffect (p : Nat) (f : TrainFind) (d : Dev) : Dev :=
  if (d.port p).st ≠ 2 then d
  else match f with
    | .failed => (d.modPort p fun x => { x with st := 5, why := 4 }).portCause p 0x6102 1
    | .laneOrder => (d.modPort p fun x => { x with st := 1, why := 2 }).portCause p 0x6103 2
    | .up lk8 active =>
      let llr := match lk8 with
        | some (_, _, b) => b && d.regBit .fabPortCtl [p] 2
        | none => false
      let d1 := if (d.port p).wasUp then d.rcvReturn p else d
      (d1.modPort p fun x => { x with
        st := 3, why := 0, wasUp := true, direct := llr, activeCbl := active, lseqNext := 0, lseqExp := 0, replay := [], wait := [], fails := 0
        partnerPort := ((lk8.map fun y => y.1).getD 0), partnerId := ((lk8.map fun y => y.2.1).getD 0) }).routeAround

/-- The fabric reference clock is lost: no port trains (R369). -/
def fabricRefclkLossEffect (d : Dev) : Dev :=
  (List.range 24).foldl (fun d p => if 2 ≤ (d.port p).st then (d.portOff p 1 3).portCause p 0x6104 3 else d) (d.clrRegBit .fabCfg [] 15)

/-- The fabric reference clock is there again. -/
def fabricRefclkReturnEffect (d : Dev) : Dev :=
  (List.range 24).foldl (fun d p => if (d.port p).st = 1 ∧ (d.port p).why = 3 then d.portStart p else d) (d.setRegBit .fabCfg [] 15)

/-! ### Link-level retry (R382) -/

/-- A frame between link partners, outside the replay buffer. -/
def Dev.linkFrame (d : Dev) (p op lseq : Nat) : Dev :=
  d.emit (.frame p { op := op, src := d.ownId (d.instOfPort p), dst := (d.port p).partnerId, lseq := lseq % 256 })

/-- LACK names the last frame received in order. -/
def Dev.sendLack (d : Dev) (p : Nat) : Dev := d.linkFrame p 0x33 ((d.port p).lseqExp + 255)
/-- LNAK names the frame to replay from. -/
def Dev.sendLnak (d : Dev) (p : Nat) : Dev := if (d.port p).direct then d.linkFrame p 0x34 (d.port p).lseqExp else d

/-- A LACK releases the frames up to the one it names. -/
def Dev.lackGot (d : Dev) (p l : Nat) : Dev :=
  let x := d.port p
  if x.replay.any (·.lseq == l) then
    Dev.portPump p x.wait.length (d.setPort p { x with replay := (x.replay.dropWhile (·.lseq != l)).drop 1, fails := 0, lackAt := d.ticks })
  else d

/-- Replay from a frame; one that would need a fourth consecutive replay takes the port down (R370). -/
def Dev.replayFrom (d : Dev) (p l : Nat) : Dev :=
  let x := d.port p
  let rest := x.replay.dropWhile (·.lseq != l)
  if rest.isEmpty then d
  else
    let n := if x.fails ≠ 0 ∧ x.failSeq = l then x.fails + 1 else 1
    if 4 ≤ n then d.portDown p
    else
      let d1 := ((d.setPort p { x with replay := rest, fails := n, failSeq := l, lackAt := d.ticks }).portCause p 0x6106 5).count .fabCeCount [] 15 0
      rest.foldl (fun d f => d.emit (.frame p f)) d1

/-- The tick in which a link-retry port with frames to be acknowledged has had no LACK for 600 ns. -/
def Dev.lackDue (d : Dev) (p : Nat) : Option Nat :=
  let x := d.port p
  if x.direct && x.st == 3 && !x.replay.isEmpty then some (x.lackAt + 30) else none

/-- No LACK has come for 600 ns. -/
def llrAckTimeoutEffect (p : Nat) (d : Dev) : Dev :=
  if (d.lackDue p).all (d.ticks < ·) then d else d.replayFrom p (((d.port p).replay.head?.map (·.lseq)).getD 0)

/-! ### Registers that do more than store (R371, R374, R386) -/

/-- A write of FAB_DEVIDk is accepted only while every port of the instance is DISABLED. -/
def Dev.devidWrite (d : Dev) (k : Nat) (v : W32) : Dev :=
  let ports := (List.range d.portCount).filter fun p => !d.portSplit p && d.instOfPort p == k
  if ports.all fun p => (d.port p).st == 0 then ports.foldl Dev.portCheck (d.setReg .fabDevid [k] (v &&& 0x800FFFFF#32)) else d

/-- SYSTEM entries of the instance that owns an entry, without that entry. -/
def Dev.systemCount (d : Dev) (i : Nat) : Nat :=
  (d.regs.keys.filter fun a => match regAt a with
    | some (.fabPeerId, [j]) => j != i && d.instOfPeer j == d.instOfPeer i && d.peerSystem j
    | _ => false).length

/-- A write of FAB_PEERi_ID: a 4,096th SYSTEM bit is refused, and a change of VALID or ID fails what is outstanding to the old
peer. -/
def Dev.peerIdWrite (d : Dev) (i : Nat) (v : W32) : Dev :=
  let w := v &&& 0xC00FFFFF#32
  let old := d.reg .fabPeerId [i]
  if w.getLsbD 30 && decide (4095 ≤ d.systemCount i) then d
  else if (w ^^^ old) &&& 0x800FFFFF#32 ≠ 0 then ((d.peerFail i).setPeer i {}).setReg .fabPeerId [i] w
  else d.setReg .fabPeerId [i] w

/-- A write of a register of system clamp `i` (0 CFG, 1 KIDS0, 2 KIDS1) is accepted while CLP_IDCFGi.VALID is clear. -/
def Dev.xclpWrite (d : Dev) (i k : Nat) (v : W32) : Dev :=
  if d.clampValid i then d
  else match k with
    | 0 => d.setReg .fabXclpCfg [i] (v &&& 0xC0000FFF#32)
    | 1 => d.setReg .fabXclpKids0 [i] (v &&& 0x8FFF8FFF#32)
    | _ => d.setReg .fabXclpKids1 [i] (v &&& 0x8FFF8FFF#32)

def fabDevidWriteEffect (k : Nat) (v : W32) (d : Dev) : Dev := d.devidWrite k v
def fabPeerIdWriteEffect (i : Nat) (v : W32) (d : Dev) : Dev := d.peerIdWrite i v
def fabXclpWriteEffect (i k : Nat) (v : W32) (d : Dev) : Dev := d.xclpWrite i k v

/-! ### The commands -/

section
variable (p : PortIx) (i : Fin 4096) (s : State)

def execPortEnable := s.runLive (portEnableEffect p)
def execPortDisable := s.runLive (portDisableEffect p)
def execPortDownRequest := s.runLive (portDownRequestEffect p)
def execPortTrainingDone (f : TrainFind) (s : State) := s.runLive (portTrainingDoneEffect p f)
def execPortAlignmentLoss := s.runLive (portAlignmentLossEffect p)
def execFabricRefclkLoss := s.runLive fabricRefclkLossEffect
def execFabricRefclkReturn := s.runLive fabricRefclkReturnEffect
def execFabDevidWrite (k : Fin 8) (v : W32) (s : State) := s.runLive (fabDevidWriteEffect k v)
def execFabPeerIdWrite (v : W32) (s : State) := s.runLive (fabPeerIdWriteEffect i v)
def execFabXclpWrite (i : Fin 256) (k : Fin 3) (v : W32) (s : State) := s.runLive (fabXclpWriteEffect i k v)
end

end Sys2Proof.Machine
end

