-- ==== Sys2Proof/Machine/Power.lean ====
section
/-! DEFINITION. The power manager (R432 to R457): supply and current triggers, the energy bucket, temperature, operating points, power
domains, powering a die off and on, and the faults that stop the device. -/

namespace Sys2Proof.Machine

def Dev.modPwr (d : Dev) (f : PwrSt → PwrSt) : Dev := { d with pwr := f d.pwr }

/-! ### Supply (R440, R442, R446) -/

/-- With DIP_HOLD set, every die that runs a LAUNCH is capped one point below its request (R446). -/
def Dev.dipHold (d : Dev) : Dev :=
  if !d.regBit .pwrCfg [] 8 then d
  else (List.range 8).foldl (fun d die =>
    let hs := d.holders die
    if hs.isEmpty then d else d.modPwr fun p => { p with dipCap := p.dipCap.set die (d.opReq die - 1, hs.map fun x => (x.1, x.2.1)) }) d

/-- The input falls below 52 V (R442). -/
def inputBelowWarningEffect (d : Dev) : Dev :=
  if d.pwr.supply = 1 then d
  else
    let d1 := ((d.modPwr fun p => { p with supply := 1 }).pwrCause 0x7101 0 0).count .pwrDips [] 31 0
    ((d1.limApply.pwrEvent 0).dipHold).opUpdate

/-- The input is back at or above 52 V: the 100 µs start (R446). -/
def inputBackAboveWarningEffect (d : Dev) : Dev :=
  if d.pwr.supply = 1 then d.modPwr fun p => { p with supply := 2, supplyAt := d.ticks } else d

/-- The tick in which the input has been back for 100 µs. -/
def Dev.supplyDue (d : Dev) : Option Nat := if d.pwr.supply = 2 then some (d.pwr.supplyAt + 5000) else none

def supplyTriggerEndEffect (d : Dev) : Dev :=
  if d.supplyDue.all (d.ticks < ·) then d else (d.modPwr fun p => { p with supply := 0 }).limApply

/-! ### Input current (R440, R443, R445), in units of 10 mA -/

/-- IWARN; values above 79 A count as 79 (R457). -/
def Dev.iwarn (d : Dev) : Nat := 100 * min 79 (d.regFld .pwrCfg [] 7 0)

def inputCurrentWarningEffect (i : Nat) (d : Dev) : Dev :=
  if i ≤ d.iwarn then d
  else (d.modPwr fun p => { p with curWarn := true, curBack := false, curExc := p.curExc && decide (8000 ≤ i) }).limApply

/-- The current reaches 80 A: cause and event once for each excursion (R445). -/
def inputCurrentLimitEffect (i : Nat) (d : Dev) : Dev :=
  if i < 8000 then d
  else
    let d1 := d.modPwr fun p => { p with curWarn := true, curLimit := true, curBack := false, curExc := true }
    (if d.pwr.curExc then d1 else (d1.pwrCause 0x7103 2 0).pwrEvent 1).limApply

def currentBackBelowIwarnEffect (i : Nat) (d : Dev) : Dev :=
  if (d.pwr.curWarn || d.pwr.curLimit) && decide (i ≤ d.iwarn) then
    d.modPwr fun p => { p with curExc := false, curBack := true, curAt := if p.curBack then p.curAt else d.ticks }
  else d

/-- The tick in which the current has been at or below IWARN for 100 µs. -/
def Dev.currentDue (d : Dev) : Option Nat := if d.pwr.curBack then some (d.pwr.curAt + 5000) else none

def currentTriggerEndEffect (d : Dev) : Dev :=
  if d.currentDue.all (d.ticks < ·) then d else (d.modPwr fun p => { p with curWarn := false, curLimit := false, curBack := false }).limApply

/-! ### The excess-energy bucket (R443, R449) -/

/-- 6 J and 3,600 W over 1 µs, in 10⁻¹⁰ J. -/
def bucketFull : Nat := 60000000000
def sustained : Nat := 36000000

/-- Each 1 µs: PWR_INPUT takes voltage and current, and the bucket the excess of their product over 3,600 W. -/
def energyBucketUpdateEffect (v i : Nat) (d : Dev) : Dev :=
  let b := min bucketFull (d.pwr.bucket + v * i - sustained)
  let d1 := (d.setReg .pwrInput [] (BitVec.ofNat 32 (v + i * 2 ^ 16))).modPwr fun p => { p with bucket := b, curExc := p.curExc && decide (8000 ≤ i) }
  if b = bucketFull ∧ d.pwr.energy.isNone then ((d1.modPwr fun p => { p with energy := some 1, energyAt := d.ticks }).limApply).pwrEvent 2
  else if b ≤ bucketFull / 2 ∧ d.pwr.energy.isSome then (d1.modPwr fun p => { p with energy := none }).limApply
  else d1

/-! ### The limiter's steps (R440, R441) -/

/-- The tick in which an active energy or thermal trigger has held its level for 1 ms. -/
def Dev.stepDue (d : Dev) (src : LimSrc) : Option Nat :=
  match src with
  | .energy => if d.pwr.energy.isSome then some (d.pwr.energyAt + 50000) else none
  | .sensor n => if d.pwr.therm.has n then some (d.pwr.thermAt.getD n 0 + 50000) else none

/-- Each 1 ms an active energy or thermal trigger's level moves one step lower. -/
def limiterStepDownEffect (src : LimSrc) (d : Dev) : Dev :=
  if (d.stepDue src).all (d.ticks < ·) then d
  else match src with
    | .energy => (d.modPwr fun p => { p with energy := p.energy.map fun l => min 3 (l + 1), energyAt := d.ticks }).limApply
    | .sensor n =>
      (d.modPwr fun p => { p with therm := p.therm.set n (min 3 (p.therm.getD n 0 + 1)), thermAt := p.thermAt.set n d.ticks }).limApply

/-- The count at which a die has held its level for 256 core cycles. -/
def Dev.releaseDue (d : Dev) (die : Nat) : Option Nat :=
  if d.limWant die < d.limLevel die then (d.pwr.limRel.find? die).map (· + 256) else none

/-- After 256 core cycles held a die's level rises one step toward what its triggers allow. -/
def limiterReleaseStepEffect (die : Nat) (d : Dev) : Dev :=
  if (d.releaseDue die).all (d.cycle die < ·) then d
  else
    ((d.setRegFld .pwrDieLim [die] 1 0 (d.limLevel die - 1)).modPwr fun p =>
      { p with limOld := p.limOld.erase die, limRel := p.limRel.erase die }).limEngage die

/-! ### Temperature (R450 to R454), in units of 0.125 °C -/

/-- A point of an HBM stack. -/
def sensorHbm (n : Nat) : Bool := decide (536 ≤ n) && decide (n < 568)
def throttlePoint (n : Nat) : Int := if sensorHbm n then 760 else 840
def releasePoint (n : Nat) : Int := if sensorHbm n then 720 else 800
def tripPoint (n : Nat) : Int := if sensorHbm n then 840 else 920

/-- PWR_SENSn takes a reading. -/
def Dev.reading (d : Dev) (n : Nat) (t : BitVec 16) : Dev :=
  let failed := d.sensFailed n
  let hot := decide (n < 568) && decide (throttlePoint n ≤ t.toInt)
  d.setReg .pwrSens [n] (BitVec.ofNat 32 (2 ^ 31 + b2n failed * 2 ^ 30 + b2n hot * 2 ^ 29 + t.toNat))

/-- Outlet minus inlet, for an outlet reading (R31, R32). -/
def Dev.coolantRise (d : Dev) (t : BitVec 16) : Int := t.toInt - (BitVec.ofNat 16 (d.regFld .pwrSens [568] 15 0)).toInt

/-- Every core clock stops, and every domain but the management, security and die always-on ones goes OFF (R439, R454). -/
def Dev.stopDevice (d : Dev) : Dev :=
  (List.range 8).foldl (fun d i => (d.modDie i fun x => { x with st := 0, stopped := true }).setReg .pwrDieDom [i] domAllOff) d

/-- A point has failed: it is ignored for throttle and trip, and a compute or HBM one holds its die at 75 % (R440, R453). One that fails again
after software has cleared its cause raises it again (R402). -/
def Dev.sensFail (d : Dev) (n : Nat) : Dev :=
  if d.sensFailed n && !d.pwr.unfail.contains n then d
  else
    let d1 := (d.setRegBit .pwrSens [n] 30).modPwr fun p => { p with therm := p.therm.erase n, unfail := p.unfail.filter (· != n) }
    ((({ d1 with quiet := d1.quiet.erase (256 + n) } : Dev).pwrCause 0x7204 6 n).pwrEvent 5).limApply

/-- A failed point reads valid once software has cleared its cause: it counts again (R440). -/
def Dev.sensMend (d : Dev) (n : Nat) : Dev :=
  if d.pwr.unfail.contains n then
    ((d.clrRegBit .pwrSens [n] 30).modPwr fun p => { p with unfail := p.unfail.filter (· != n) }).limApply
  else d

/-- A point exceeds its throttle point: cause and trigger once (R440, R451). -/
def Dev.throttle (d : Dev) (n : Nat) : Dev :=
  if d.pwr.therm.has n then d
  else
    let d1 := d.modPwr fun p => { p with therm := p.therm.set n 1, thermAt := p.thermAt.set n d.ticks }
    ((d1.pwrCause (if sensorHbm n then 0x7203 else 0x7201) (if sensorHbm n then 5 else 3) n).pwrEvent 3).limApply

/-- A point whose cause is asserted reads below its release threshold (R32, R451). -/
def Dev.belowRelease (d : Dev) (n : Nat) (t : BitVec 16) : Bool :=
  if n = 568 then d.modCauses.contains 0x7C02 && decide (t.toInt < 304)
  else if n = 569 then d.modCauses.contains 0x7C03 && decide (d.coolantRise t < 288)
  else d.pwr.therm.has n && decide (t.toInt < releasePoint n)

/-- A sensing point reads `t`: out of −40 to 150 °C it has failed; at its trip point it stops the device until a cold boot; above its throttle
point it throttles; below its release threshold its quiet period starts, which a reading at or above that threshold ends (R404, R450 to
R454). -/
def Dev.sensed (d : Dev) (n : Nat) (t : BitVec 16) : Dev :=
  if t.toInt < -320 ∨ 1200 < t.toInt then (d.reading n t).sensFail n
  else
    let d1 := (d.sensMend n).reading n t
    let d2 : Dev := { d1 with quiet := d1.quiet.erase (256 + n) }
    if d1.sensFailed n then d1
    else if n < 568 ∧ tripPoint n ≤ t.toInt ∧ !d1.tripped then { (d2.pwrCause 0x7202 4 n).stopDevice with tripped := true }
    else if n < 568 ∧ throttlePoint n < t.toInt then d2.throttle n
    else if !d1.belowRelease n t then d2
    else if d1.quiet.has (256 + n) || d1.rcvLatched (256 + n) then d1
    else d1.quietStart (256 + n)

/-- A reading of a compute die's, the IOD's or a stack's point. -/
def thermalThrottleEffect (n : Nat) (t : BitVec 16) (d : Dev) : Dev := d.sensed n t
/-- A reading of any point. -/
def sensorBelowReleaseThresholdEffect (n : Nat) (t : BitVec 16) (d : Dev) : Dev := d.sensed n t
/-- A reading of a point that may trip. -/
def thermalTripEffect (n : Nat) (t : BitVec 16) (d : Dev) : Dev := d.sensed n t
/-- A point gives one raw reading 1,000 times in a row, or reads out of range (R453). -/
def sensorFailedEffect (n : Nat) (d : Dev) : Dev := d.sensFail n

/-- The tick in which a die's thermal cap is due a step. -/
def Dev.capDue (d : Dev) (die : Nat) : Option Nat :=
  let x := d.pwr.capAt.getD die (2, 0)
  if x.1 = 1 ∨ (x.1 = 2 ∧ d.pwr.thermCap.has die) then some (x.2 + 500000) else none

/-- Each 10 ms at 25 % under the thermal trigger the thermal cap lowers a die's grant one point; each 10 ms after the trigger ends lifts it
one (R452). -/
def thermalCapStepEffect (die : Nat) (d : Dev) : Dev :=
  if (d.capDue die).all (d.ticks < ·) then d
  else
    let d1 := d.modPwr fun p => { p with capAt := p.capAt.set die (d.capPhase die, d.ticks) }
    if d.capPhase die = 1 then
      let now := min (d.opGrant die) (d.pwr.thermCap.getD die 4)
      if now ≤ d.opPick 0 then d1
      else ((d1.modPwr fun p => { p with thermCap := p.thermCap.set die (d.opPick (now - 1)) }).pwrEvent 4).opUpdate
    else
      let c := d.pwr.thermCap.getD die 4
      (d1.modPwr fun p => { p with thermCap := if 3 ≤ c then p.thermCap.erase die else p.thermCap.set die (c + 1) }).opUpdate

/-! ### Operating points (R434, R435) -/

/-- The oldest phase mark acts: its LAUNCH asks for the new point, and lifts the dip caps of dies it held (R434, R446). -/
def phaseMarkActEffect (d : Dev) : Dev :=
  match d.phaseMarks with
  | [] => d
  | (prog, op) :: rest =>
    let qs := d.queues.keys.filter fun q => match d.launch q with
      | some l => l.cur == prog
      | none => false
    let d1 := qs.foldl (fun d q => d.modLaunch q fun l => { l with op := op }) { d with phaseMarks := rest }
    let acts (x : Nat × Nat) : Bool := qs.contains x.1 && ((d.queue x.1).run.map fun (r : Cmd) => r.seq) == some x.2
    (d1.modPwr fun p => { p with dipCap := p.dipCap.filter fun _ c => !c.2.any acts }).opUpdate

/-- The change of a die's operating point ends; a later grant is taken up (R435). -/
def opChangeDoneEffect (die : Nat) (d : Dev) : Dev :=
  match d.pwr.opTarget.find? die with
  | none => d
  | some g =>
    if !d.changing die then d
    else ((((d.setRegFld .pwrDieOp [die] 10 8 g).clrRegBit .pwrDieOp [die] 11).modPwr fun p =>
      { p with opTarget := p.opTarget.erase die, opStop := p.opStop.erase die })).opUpdate

/-! ### Bays (R436) -/

def Dev.setBayDom (d : Dev) (y v : Nat) : Dev := d.setRegFld .pwrDieDom [y / 8] (2 * (y % 8) + 1) (2 * (y % 8)) v

/-- A LAUNCH holds a bench of a bay. -/
def Dev.bayHeld (d : Dev) (y : Nat) : Bool :=
  d.queues.keys.any fun q => match d.launch q with
    | some l => l.owns && (d.ctxsOf l.cur).any fun x => bayOf x.1 == y
    | none => false

/-- What a bench loses as its bay sleeps: every queue, and the vector registers unless an active slot holds a live thread group. They then
hold free values. -/
def Bench.sleep (bn : Bench) (fc : Nat) : Bench :=
  let m := { bn.mortise with queue := [], due := none, head := none }
  let p := { bn.plane with queue := [], pends := [] }
  let p1 := if bn.slots.cells.isEmpty then
      { p with vregs := (List.range 32).foldl (fun (v : SMap VReg) i => v.set i (BitVec.ofNat 2048 (Config.freeNat fc i))) ⟨[]⟩ }
    else p
  { bn with mortise := m, plane := p1, outfeed := [] }

/-- The tick in which no LAUNCH has held a bay's benches for PWR_SLEEP; none where one does, or where bays do not sleep. -/
def Dev.sleepDue (d : Dev) (y : Nat) : Option Nat :=
  if (d.reg .pwrSleep []).toNat = 0 ∨ (d.die (y / 8)).st ≠ 2 || !d.bayOn y || d.bayHeld y then none
  else some (d.bayFree.getD y 0 + (d.reg .pwrSleep []).toNat)

/-- A bay that no LAUNCH has held for PWR_SLEEP sleeps. -/
def baySleepEffect (y : Nat) (d : Dev) : Dev :=
  if (d.sleepDue y).all (d.ticks < ·) then d
  else { (d.setBayDom y 1).tickFree with benches := d.benches.mapVals fun b bn => if bayOf b = y then bn.sleep (d.free + b) else bn }

def Dev.bayDom (d : Dev) (y : Nat) : Nat := d.regFld .pwrDieDom [y / 8] (2 * (y % 8) + 1) (2 * (y % 8))

def bayWakeEffect (y : Nat) (d : Dev) : Dev := if d.bayDom y = 1 ∧ d.bayHeld y then d.setBayDom y 3 else d
def bayWakeDoneEffect (y : Nat) (d : Dev) : Dev := if d.bayDom y = 3 then d.setBayDom y 2 else d

/-! ### Domain faults (R439) -/

/-- An IOD domain or a regulator fails: the device stops until a device reset. -/
def Dev.iodFault (d : Dev) (i : Nat) : Dev := { (d.pwrCause 0x7302 8 i).stopDevice with halted := true }

/-- A compute-die domain fails to wake: the die is fenced. -/
def Dev.domFault (d : Dev) (die i : Nat) : Dev :=
  ((d.raise .pwrErrStatus [] 7 { code := 0x7301, master := die * 0x1000 + 0x870, access := 0, addr := i, inst := none, die := some die }).pwrEvent 9).fenceDie die 0x7301

/-- A domain misses ON within twice its wake time. -/
def domainWakeTimeoutEffect (s : DomSel) (d : Dev) : Dev :=
  match s with
  | .die x i =>
    if (if i.val < 8 then d.bayDom (8 * x + i) == 3 else i.val < 10 && (d.die x).st == 1) then d.domFault x i else d
  | .iod i => if 2 ≤ i.val then d.iodFault i else d

def regulatorFaultEffect (i : Nat) (d : Dev) : Dev := d.iodFault i

/-! ### A whole die (R438) -/

/-- A context is resident on the die, or a valid window backs it. -/
def Dev.dieUsed (d : Dev) (die : Nat) : Bool :=
  d.benches.cells.any (fun c => dieOf c.1 == die && c.2.ctxs.cells.any (·.2.valid)) ||
    (List.range 144).any fun e => let w := d.win e; w.valid && w.mode != 3 && w.dies.contains die

/-- A write of POWER_OFF: refused, or the die's owned lines are flushed; nothing for a die that is OFF or whose re-seat runs. -/
def Dev.powerOff (d : Dev) (die : Nat) : Dev :=
  if (d.die die).st = 0 ∨ (d.die die).st = 4 then d
  else if d.dieUsed die then (d.setRegBit .pwrDieCtl [die] 2).pwrEvent 7
  else (if (d.die die).st = 2 then d.flushDie die else d).setRegBit .pwrDieCtl [die] 0

def powerOffEffect (die : Nat) (d : Dev) : Dev := d.powerOff die

/-- The stacks refresh themselves; every domain but the always-on one is OFF, and what it held is gone. A fenced die stays fenced: only a re-seat or a
device reset takes it out of that state (R244). -/
def powerOffDoneEffect (die : Nat) (d : Dev) : Dev :=
  if !d.regBit .pwrDieCtl [die] 0 then d
  else
    let d1 := ((d.clearDie die).resetRegs (dieOwnReg die)).modDie die fun x => { x with st := if 3 ≤ x.st then x.st else 0, stopped := true }
    ((((d1.clrRegBit .pwrDieCtl [die] 0).setReg .pwrDieDom [die] domAllOff).setRegFld .pwrDieOp [die] 11 0 0).modPwr fun p =>
      { p with opTarget := p.opTarget.erase die, opStop := p.opStop.erase die }) |>.pwrEvent 7

def powerOnEffect (die : Nat) (d : Dev) : Dev := d.powerOn die

/-- A powered-on die has come up, or its link-up has failed. -/
def powerOnDoneEffect (die : Nat) (d : Dev) : Dev :=
  if d.regBit .pwrDieCtl [die] 1 && decide (2 ≤ (d.die die).st) then (d.clrRegBit .pwrDieCtl [die] 1).pwrEvent 7 else d

/-! ### The commands -/

section
variable (n : Fin 576) (t : BitVec 16) (die : DieIx) (y : BayIx) (s : State)

def execInputBelowWarning := s.runOn inputBelowWarningEffect
def execInputBackAboveWarning := s.runOn inputBackAboveWarningEffect
def execInputCurrentWarning (i : BitVec 16) (s : State) := s.runOn (inputCurrentWarningEffect i.toNat)
def execInputCurrentLimit (i : BitVec 16) (s : State) := s.runOn (inputCurrentLimitEffect i.toNat)
def execCurrentBackBelowIwarn (i : BitVec 16) (s : State) := s.runOn (currentBackBelowIwarnEffect i.toNat)
def execEnergyBucketUpdate (v i : BitVec 16) (s : State) := s.runOn (energyBucketUpdateEffect v.toNat i.toNat)
def execThermalThrottle := s.runOn (thermalThrottleEffect n t)
def execSensorBelowReleaseThreshold := s.runOn (sensorBelowReleaseThresholdEffect n t)
def execThermalTrip := s.runOn (thermalTripEffect n t)
def execSensorFailed := s.runOn (sensorFailedEffect n)
def execPhaseMarkAct := s.runLive phaseMarkActEffect
def execOpChangeDone := s.runLive (opChangeDoneEffect die)
def execBayWake := s.runLive (bayWakeEffect y)
def execBayWakeDone := s.runLive (bayWakeDoneEffect y)
def execDomainWakeTimeout (x : DomSel) (s : State) := s.runLive (domainWakeTimeoutEffect x)
def execRegulatorFault (i : Fin 8) (s : State) := s.runLive (regulatorFaultEffect i)
def execPowerOff := s.runLive (powerOffEffect die)
def execPowerOffDone := s.runLive (powerOffDoneEffect die)
def execPowerOn := s.runLive (powerOnEffect die)
def execPowerOnDone := s.runLive (powerOnDoneEffect die)
end

end Sys2Proof.Machine
end

