-- ==== Sys2Proof/Machine/Recovery.lean ====
section
/-! DEFINITION. Sources that return to service on their own (R32, R236, R369, R404 to R406): the ends of their quiet periods, and the release of
latched ones. -/

namespace Sys2Proof.Machine

/-- A module cause (R32): it is reported once while it holds, with a PLDM event and the event MODULE. -/
def Dev.modCause7 (d : Dev) (code access : Nat) : Dev :=
  let d1 := d.report { code := code, master := 0xF810, access := access, addr := 0, inst := none, die := none }
  ({ d1 with
    modCauses := if d1.modCauses.contains code then d1.modCauses else d1.modCauses ++ [code]
    pldm := d1.pldm ++ [(code, 0xF810)] } : Dev).pwrEvent 8

/-- A module cause clears. -/
def Dev.modCauseEnd (d : Dev) (code : Nat) : Dev := { d with modCauses := d.modCauses.filter (· != code) }

/-- The quiet period of a down module ends: it trains, or latches (R236, R405). -/
def Dev.modQuietEnd (d : Dev) (die site : Nat) : Dev :=
  if d.modUp die site || (d.mod die site).training || (d.mod die site).failed || (siteFacing die site).isNone then d
  else match d.quietEnd (modRcv die site) (die * 0x1000 + 0x850 + siteGateway site) none with
    | (d1, true) => d1.modTrain die site
    | (d1, false) => d1

/-- A sensing point returns: its cause deasserts and its trigger ends (R404, R440). -/
def Dev.sensReturn (d : Dev) (n : Nat) : Dev :=
  let d1 := if n = 568 then d.modCauseEnd 0x7C02 else if n = 569 then d.modCauseEnd 0x7C03
    else (d.modPwr fun p => { p with therm := p.therm.erase n }).limApply
  d1.rcvReturn (256 + n)

/-- The quiet period of a sensing point ends. -/
def Dev.sensQuietEnd (d : Dev) (n : Nat) : Dev :=
  match d.quietEnd (256 + n) (if n < 568 then 0xF870 else 0xF810) none with
  | (d1, true) => d1.sensReturn n
  | (d1, false) => d1

/-- The quiet period of source `i`, by its index of FC_RCV, ends (R405, R408). -/
def recoveryQuietExpiryEffect (i : Nat) (d : Dev) : Dev :=
  if !d.quiet.has i || decide (d.ticks < d.quiet.getD i 0) then d
  else if i < 24 then d.portQuietEnd i
  else if 32 ≤ i ∧ i < 224 then d.modQuietEnd ((i - 32) / 24) ((i - 32) % 24)
  else if 256 ≤ i ∧ i < 832 then d.sensQuietEnd (i - 256)
  else d

/-- Latched modules of a die are released and train (R406). -/
def Dev.modsRelease (d : Dev) (die : Nat) : Dev :=
  (List.range 24).foldl (fun d s => if d.rcvLatched (modRcv die s) then (d.rcvRelease (modRcv die s)).modTrain die s else d) d

/-- Modules of a die whose training failed train again once software clears TRAIN_FAIL (R236). -/
def Dev.modsRetrain (d : Dev) (die : Nat) : Dev :=
  (List.range 24).foldl (fun d s => if (d.mod die s).failed then d.modTrain die s else d) d

/-- Latched junction or HBM sensors are released and judged afresh (R406, R451). -/
def Dev.sensRelease (d : Dev) (hbm : Bool) : Dev :=
  ((List.range 568).foldl (fun d n =>
    if sensorHbm n == hbm && d.rcvLatched (256 + n) then
      (d.rcvRelease (256 + n)).modPwr fun p => { p with therm := p.therm.erase n }
    else d) d).limApply

/-- Software clears the module causes that do not clear on their own (R32), by MODULE of PWR_EVT: that of a cable supply once no supply is held
off. Latched coolant sensors are released and judged afresh (R406). -/
def Dev.modCausesClear (d : Dev) : Dev :=
  let held := d.board.cables.cells.any (·.2.latched)
  let d1 : Dev := { d with modCauses := d.modCauses.filter fun c => !(c == 0x7C01 || c == 0x7C05 || c == 0x7C07 || (c == 0x7C06 && !held)) }
  ([(568, 0x7C02), (569, 0x7C03)] : List (Nat × Nat)).foldl (fun d x =>
    if d.rcvLatched (256 + x.1) then (d.rcvRelease (256 + x.1)).modCauseEnd x.2 else d) d1

/-- Software clears SENS_FAIL: a failed sensor's trigger ends once it reads valid again (R440, R453). -/
def Dev.sensUnfail (d : Dev) : Dev := d.modPwr fun p => { p with unfail := (List.range 576).filter d.sensFailed }

/-- A sensing point whose cause is asserted and not latched. -/
def Dev.sensHeld (d : Dev) (hbm : Bool) : List Nat := d.pwr.therm.keys.filter fun n => sensorHbm n == hbm && !d.rcvLatched (256 + n)

/-- Causes of the power manager that are still present as software clears their bits `v`: they are raised again (R402). -/
def Dev.pwrPresent (d : Dev) (v : W32) : Dev :=
  let d1 := if v.getLsbD 0 && d.pwr.supply == 1 then d.pwrCause 0x7101 0 0 else d
  let d2 := if v.getLsbD 2 && d1.pwr.curExc then d1.pwrCause 0x7103 2 0 else d1
  let d3 := if v.getLsbD 3 then (d2.sensHeld false).foldl (fun d n => d.pwrCause 0x7201 3 n) d2 else d2
  if v.getLsbD 5 then (d3.sensHeld true).foldl (fun d n => d.pwrCause 0x7203 5 n) d3 else d3

/-- Causes of ports that are still present as software clears their bits `v` (R369, R402). -/
def Dev.fabPresent (d : Dev) (v : W32) : Dev :=
  (List.range 24).foldl (fun d p =>
    let x := d.port p
    if v.getLsbD 2 && x.st == 1 && x.why != 3 then d.portCause p 0x6103 2
    else if v.getLsbD 3 && x.st == 1 && x.why == 3 then d.portCause p 0x6104 3
    else d) d

/-- A ring pair of a die that is still down as software clears its bit (R237, R402). -/
def Dev.ringPresent (d : Dev) (die : Nat) (v : W32) : Dev :=
  if v.getLsbD 9 && (d.die die).st == 2 then
    (([(die + 1) % 8, (die + 7) % 8] : List Nat).filter fun r => (d.die r).st == 2 && (d.upSites die r).isEmpty).foldl (fun d r =>
      match (List.range 24).find? fun s => siteFacing die s == some r with
      | some s => d.datDieCause die 0x510A 9 (0x850 + siteGateway s)
      | none => d) d
  else d

/-- What software's clearing of bits `v` of a source's status does beside (R236, R369, R402, R406, R440). -/
def Dev.released (d : Dev) (r : RegName) (i : Nat) (v : W32) : Dev :=
  match r with
  | .fabErrStatus =>
    let d1 := if v.getLsbD 0 then d.portRelease 5 else d
    (if v.getLsbD 1 then d1.portRelease 4 else d1).fabPresent v
  | .datErrStatus =>
    let d1 := if v.getLsbD 2 then d.modsRelease i else d
    (if v.getLsbD 3 then d1.modsRetrain i else d1).ringPresent i v
  | .pwrErrStatus =>
    let d1 := if v.getLsbD 3 then d.sensRelease false else d
    let d2 := if v.getLsbD 5 then d1.sensRelease true else d1
    (if v.getLsbD 6 then d2.sensUnfail else d2).pwrPresent v
  | _ => d

/-- Software clears a status bit of a source, unless it has been set in the same tick (R8, R406). -/
def Dev.statusClear (d : Dev) (r : RegName) (ix : List Nat) (bit : Nat) : Dev :=
  if (d.freshBits r ix).getLsbD bit then d else (d.clrRegBit r ix bit).released r (ix.headD 0) (BitVec.ofNat 32 (2 ^ bit))

/-- Software clears the status bit of a cause whose sources may have latched (R406). -/
def latchReleaseEffect (x : LatchSel) (d : Dev) : Dev :=
  match x with
  | .ports => d.statusClear .fabErrStatus [] 0
  | .modules die => d.statusClear .datErrStatus [die] 2
  | .sensors hbm => d.statusClear .pwrErrStatus [] (if hbm then 5 else 3)

def execLatchRelease (x : LatchSel) (s : State) := s.runLive (latchReleaseEffect x)

end Sys2Proof.Machine
end

