-- ==== Sys2Proof/Machine/Windows.lean ====
section
/-! DEFINITION. The window table's changes (R298, R299) and the command SHELF_SET (R266, R272, R274, R324). -/

namespace Sys2Proof.Machine

/-! ### Setting and clearing VALID (R298, R299) -/

/-- The boot lock has been taken (R467). -/
def Dev.locked (d : Dev) : Bool := d.regBit .secStatus [] 31

/-- An instance has a resident context, or a command queued or running on a queue that is no manager queue (R298). -/
def Dev.instBusy (d : Dev) (k : Nat) : Bool :=
  d.benches.cells.any (fun c => d.instOfDie (dieOf c.1) == k && c.2.ctxs.cells.any (·.2.valid)) ||
  (d.queuesOf k).any fun q => !d.queueMgr q && (!d.queueIdle q || d.queueTail q != d.cqHead q)

/-- Two ranges given by first and length overlap. -/
def rangesMeet (a n b m : Nat) : Bool := decide (a < b + m) && decide (b < a + n)

/-- Reason 6 for two windows: their backings overlap on a die, or one's check shadow meets the other's backing; in units of
1/32 GiB (R298, R302). -/
def winClash (w v : Win) : Bool :=
  (w.dies.any v.dies.contains) &&
    (rangesMeet (32 * w.doff) (32 * w.backed) (32 * v.doff) (32 * v.backed) ||
      (!w.detecting && rangesMeet (124 * 32 + w.doff) w.backed (32 * v.doff) (32 * v.backed)) ||
      (!v.detecting && rangesMeet (124 * 32 + v.doff) v.backed (32 * w.doff) (32 * w.backed)))

/-- The first reason of R298 that refuses a window, with `boot` leaving out reasons 1 and 4 (R466). -/
def Dev.winReason (d : Dev) (w : Win) (boot : Bool) : Option Nat :=
  let others := ((List.range 144).map d.win).filter fun v => v.entry != w.entry && v.valid
  let inst := (w.entry - 16) / 16
  if !boot && (if w.entry < 16 then d.locked else d.instBusy inst) then some 1
  else if 1024 < w.base + w.size || others.any (fun v => rangesMeet w.base w.size v.base v.size) then some 2
  else if (w.mode = 1 && w.size % 2 != 0) || (w.mode = 2 && w.size % 8 != 0) then some 3
  else if !boot && 16 ≤ w.entry && w.mode ≠ 3 && w.dies.any (fun i => d.instOfDie i != inst) then some 4
  else if w.mode ≠ 3 && (if w.detecting then 128 else 124) < w.doff + w.backed then some 5
  else if w.mode ≠ 3 && others.any (winClash w) then some 6
  else if w.mode = 3 || (16 ≤ w.entry && w.mgmt) then some 7
  else none

/-- A refused write of the window table: the first one is kept, and each is cause 0x3102 (R298, R308). -/
def Dev.winRefuse (d : Dev) (e why addr : Nat) : Dev :=
  let d1 := if d.regBit .hbmMapStatus [] 31 then d
    else d.setReg .hbmMapStatus [] (BitVec.ofNat 32 (2 ^ 31 + e * 2 ^ 8 + why))
  d1.report { code := 0x3102, master := 0xF820, access := 0, addr := addr, inst := none, die := none }

/-- The entry becomes busy with a range to be flushed. -/
def Dev.winBusy (d : Dev) (e base size : Nat) : Dev :=
  { d.setRegBit .hbmWinState [e] 1 with winFlush := d.winFlush.set e (base, size) }

/-- HBM_WIN_BASEe with fields BASE and SIZEM1 and VALID as given. -/
def winBaseWord (base sizem1 : Nat) (valid : Bool) : W32 := BitVec.ofNat 32 (base % 1024 + sizem1 % 1024 * 2 ^ 16 + b2n valid * 2 ^ 31)

/-- A write of HBM_WIN_BASEe with VALID 1 (R298, R299); it powers on the dies that back the window (R438). -/
def Dev.winSet (d : Dev) (e base sizem1 : Nat) (boot : Bool) : Dev :=
  let w := d.win e
  if w.busy || w.valid then d.winRefuse e 8 (w.base * 2 ^ 30)
  else match d.winReason { w with base := base, size := sizem1 + 1, valid := true } boot with
    | some why => d.winRefuse e why (base * 2 ^ 30)
    | none => w.dies.foldl Dev.powerOn ((d.setReg .hbmWinBase [e] (winBaseWord base sizem1 true)).winBusy e base (sizem1 + 1))

/-- A write of HBM_WIN_BASEe with VALID 0: clears VALID of a valid entry (R298, R299). -/
def Dev.winClear (d : Dev) (e base sizem1 : Nat) : Dev :=
  let w := d.win e
  if w.busy then d.winRefuse e 8 (w.base * 2 ^ 30)
  else if !w.valid then d.setReg .hbmWinBase [e] (winBaseWord base sizem1 false)
  else if 16 ≤ e && d.instBusy ((e - 16) / 16) then d.winRefuse e 1 (base * 2 ^ 30)
  else (d.setReg .hbmWinBase [e] (winBaseWord base sizem1 false)).winBusy e w.base w.size

/-- A write to a locked register that would change an RWL field: discarded with cause 0x8102 (R8, R467). -/
def Dev.lockedWrite (d : Dev) (addr : Nat) : Dev :=
  d.raise .secErrStatus [] 1 { code := 0x8102, master := 0xF840, access := 0x80, addr := addr, inst := none, die := none }

/-- The write of HBM_WIN_BASEe as the host makes it: a manager entry is RWL (R309, R467). -/
def Dev.winBaseWrite (d : Dev) (e : Nat) (w : W32) : Dev :=
  let base := fld w 9 0
  let sizem1 := fld w 25 16
  if e < 16 && d.locked then
    if winBaseWord base sizem1 (w.getLsbD 31) = d.reg .hbmWinBase [e] then d else d.lockedWrite (RegName.hbmWinBase.addr [e])
  else if w.getLsbD 31 then d.winSet e base sizem1 false else d.winClear e base sizem1

def windowValidSetEffect (e base sizem1 : Nat) (d : Dev) : Dev := d.winBaseWrite e (winBaseWord base sizem1 true)
def windowValidClearEffect (e base sizem1 : Nat) (d : Dev) : Dev := d.winBaseWrite e (winBaseWord base sizem1 false)

/-! ### The end of busy (R299) -/

/-- Something about a line of a range, in GiB, is still in flight or pending. -/
def Dev.rangeActive (d : Dev) (base size : Nat) : Bool :=
  let hit (line : Nat) : Bool := decide (base * 2 ^ 23 ≤ line) && decide (line < (base + size) * 2 ^ 23)
  d.net.any (fun m => hit m.line && m.kind ∈ [.rds, .rdu, .rdx, .rdxn, .wb, .wra, .ata, .red, .inv, .dwn, .rcl, .replyNp, .replyAck, .replyData,
    .grant, .hbmRead, .hbmWrite, .hbmData]) || d.slices.cells.any fun c => c.2.pend.any fun p => hit p.req.line

/-- Write back and invalidate the lines of a range in one slice; none while a copy cannot be taken back (R299). -/
def Dev.flushSlice (d : Dev) (q base size : Nat) : Option Dev :=
  ((d.slice q).lines.cells.filter fun c => decide (base * 2 ^ 23 ≤ c.2.line) && decide (c.2.line < (base + size) * 2 ^ 23)).foldl
    (fun (o : Option Dev) c => o.bind fun d => (d.pullCopies q c.1 false).map fun d1 =>
      let x := (d1.slice q).at c.1
      let d2 := if x.dirty && x.valid then d1.hbmPut q x.line x.loc x.data x.poison else d1
      d2.modSlice q fun s => { s with lines := s.lines.erase c.1 }) (some d)

/-- A die line, on die `i`, that the zero fill of a window writes: one of its backing or, for a correcting window, of its check shadow
(R299, R302), on a channel that has not failed (R307). -/
def Dev.zeroes (d : Dev) (w : Win) (i loc : Nat) : Bool :=
  let inside (a n : Nat) : Bool := decide (a ≤ loc) && decide (loc < a + n)
  (inside (w.doff * 2 ^ 23) (w.backed * 2 ^ 23) || (!w.detecting && inside (124 * 2 ^ 23 + w.doff * 2 ^ 18) (w.backed * 2 ^ 18))) &&
    !d.channelFailed i loc

/-- Zero the backing and, for a correcting window, the check shadow (R299, R302). -/
def Dev.zeroWindow (d : Dev) (w : Win) : Dev :=
  w.dies.foldl (fun d i =>
    { d with
      hbm := d.hbm.clearIf fun a => a / 2 ^ 37 == i && d.zeroes w i (a % 2 ^ 37 / 128)
      hbmPoison := d.hbmPoison.filter fun k _ => !(k / 2 ^ 30 == i && d.zeroes w i (k % 2 ^ 30)) }) d

/-- An entry's flush, and zero fill if it became valid, have ended (R299). -/
def Dev.winEnd (d : Dev) (e : Nat) : Dev :=
  match d.winFlush.find? e with
  | none => d
  | some (base, size) =>
    if d.rangeActive base size || ((d.win e).valid && (d.win e).dies.any d.powering) then d
    else match d.slices.keys.foldl (fun (o : Option Dev) q => o.bind fun d => d.flushSlice q base size) (some d) with
      | none => d
      | some d1 =>
        let w := d1.win e
        let d2 := if w.valid then d1.zeroWindow w else d1
        { d2.clrRegBit .hbmWinState [e] 1 with winFlush := d2.winFlush.erase e }

def windowBusyEndEffect (e : Nat) (d : Dev) : Dev := d.winEnd e

/-! ### SHELF_SET (R266, R272, R324) -/

/-- Every byte of a range lies in valid windows that satisfy `p`. -/
def Dev.covered (d : Dev) (p : Win → Bool) : Nat → Nat → Nat → Bool
  | 0, _, _ => false
  | f + 1, a, n =>
    if n = 0 then true
    else match d.winFind a with
      | none => false
      | some w => p w && (let m := (w.base + w.size) * 2 ^ 30 - a; decide (n ≤ m) || d.covered p f (a + m) (n - m))

/-- Ranges in 64 KiB units of the owner's valid shelves, or of the instance's valid reduction windows, other than `i`. -/
def Dev.shelfRanges (d : Dev) (kind o i : Nat) : List (Nat × Nat) :=
  (List.range (if kind = 0 then 32 else 8)).filterMap fun k =>
    if k = i then none
    else if kind = 0 then
      if d.regBit .ucShCfg [o, k] 31 then some (d.regFld .ucShBase [o, k] 27 0, d.regFld .ucShSize [o, k] 27 0) else none
    else if d.regBit .ucRwCfg [o, k] 31 then some (d.regFld .ucRwBase [o, k] 27 0, d.regFld .ucRwSize [o, k] 27 0) else none

/-- Every slice's sweep for a shelf: its lines become ordinary (R274). -/
def Dev.sweep (d : Dev) (shelf : Nat) : Dev :=
  { d with slices := d.slices.mapVals fun _ s => { s with lines := s.lines.mapVals fun _ x => if x.shelf = some shelf then { x with shelf := none, cls := .ordinary } else x } }

def shelfSetEffect (q : Nat) (d : Dev) : Dev :=
  d.withCmd q 0x30 fun c =>
    let kind := c.n 8 1
    let i := c.n 9 1
    let o := if c.n 0xA 1 = 8 then 8 else d.queueInst q
    let clear := c.n 0xB 1 == 1
    let w := c.n 0xC 4
    let base := c.n 0x10 8
    let size := c.n 0x18 8
    let own (x : Win) : Bool := if o = 8 then decide (x.entry < 16) && !x.mgmt else x.owner == some o
    let quotaOk := kind != 0 || (decide (1 ≤ nfld w 14 8) && decide (nfld w 14 8 ≤ 72))
    let ok := clear || (quotaOk && size != 0 && d.covered own 150 (base * 65536) (size * 65536) && (d.shelfRanges kind o i).all fun r => !rangesMeet base size r.1 r.2)
    if c.phase ≠ 0 then d
    else if !ok then d.finish q 2 0
    else if kind = 0 then
      let cfg := if clear then 0 else 2 ^ 31 + nfld w 1 0 * 2 ^ 8 + nfld w 14 8
      let d1 := ((d.setReg .ucShBase [o, i] (BitVec.ofNat 32 (if clear then 0 else base))).setReg .ucShSize [o, i]
        (BitVec.ofNat 32 (if clear then 0 else size))).setReg .ucShCfg [o, i] (BitVec.ofNat 32 cfg)
      (d1.sweep (32 * o + i)).modCmd q fun x => { x with phase := 1 }
    else
      let cfg := if clear then 0 else 2 ^ 31 + nfld w 5 4 * 2 ^ 4 + nfld w 1 0
      (((d.setReg .ucRwBase [o, i] (BitVec.ofNat 32 (if clear then 0 else base))).setReg .ucRwSize [o, i]
        (BitVec.ofNat 32 (if clear then 0 else size))).setReg .ucRwCfg [o, i] (BitVec.ofNat 32 cfg)).finish q 0 0

/-- Every slice has finished its sweep and the command completes (R274). -/
def shelfSweepDoneEffect (q : Nat) (d : Dev) : Dev := d.withCmd q 0x30 fun c => if c.phase = 1 then d.finish q 0 0 else d

/-! ### The commands -/

section
variable (e : Fin 144) (base sizem1 : Fin 1024) (q : QueueIx) (s : State)

def execWindowValidSet := s.runLive (windowValidSetEffect e base sizem1)
def execWindowValidClear := s.runLive (windowValidClearEffect e base sizem1)
def execWindowBusyEnd := s.runLive (windowBusyEndEffect e)
def execShelfSet := s.runLive (shelfSetEffect q)
def execShelfSweepDone := s.runLive (shelfSweepDoneEffect q)
end

end Sys2Proof.Machine
end

