-- ==== Sys2Proof/Machine/Boot.lean ====
section
/-! DEFINITION. Resets and boot (R458 to R472): what each reset clears, the boot steps as one event, the choice of an image slot, the boot
configuration and the boot lock. -/

namespace Sys2Proof.Machine

/-- A cause of the security core (R475). -/
def Dev.secCause (d : Dev) (code bit addr : Nat) : Dev :=
  d.raise .secErrStatus [] bit { code := code, master := 0xF818, access := 0, addr := addr, inst := none, die := none }

/-! ### What resets clear (R459) -/

/-- Power is gone: of the device the flash with its event log remains, and of the board its pins and latches. -/
def Dev.powerLost (d : Dev) : Dev :=
  { board := { d.board with swOn := false, starting := false, ovExc := false, bootWait := none, booted := none, trimsBad := false, xtalBad := false
                            cables := d.board.cables.mapVals fun _ c => { c with supply := false } }
    flash := d.flash, evlog := d.evlog, out := d.out, free := d.free }

/-- What a device warm reset keeps: the collectors' records, views and counters, device time, HBM, the identity, flash and board. -/
def Dev.warmClear (d : Dev) (last : Nat) : Dev :=
  let kept : Dev :=
    { time := d.time, ticks := d.ticks, timeFrac := d.timeFrac, board := { d.board with bootWait := none, booted := none, trimsBad := false }
      flash := d.flash, evlog := d.evlog, evlogLast := d.evlogLast, reports := d.reports, returns := d.returns
      lineFault := d.lineFault, hbm := d.hbm, hbmPoison := d.hbmPoison, out := d.out, free := d.free
      regs := d.regs.filter fun a _ => decide (0x300000 ≤ a) && decide (a < 0x400000) }
  kept.setReg .secStatus [] (BitVec.ofNat 32 (last + b2n (d.regBit .secStatus [] 29) * 2 ^ 29))

/-! ### Image slots (R470 to R472) -/

def Flash.slot (f : Flash) (b : Bool) : FwSlot := if b then f.b else f.a
def Flash.setSlot (f : Flash) (b : Bool) (x : FwSlot) : Flash := if b then { f with b := x } else { f with a := x }
/-- Flash offset of a slot (R34). -/
def slotBase (b : Bool) : Nat := if b then 0x10000000 else 0x400000
def FwSlot.image (x : FwSlot) (ty : Nat) : Option FwImage := x.imgs.find? (·.ty == ty)
def Dev.setSlotSt (d : Dev) (b : Bool) (st : Nat) : Dev := { d with flash := d.flash.setSlot b { d.flash.slot b with st := st } }

/-- A slot is a candidate: its directory checks and lists one image of each type 0x01 to 0x05. -/
def Dev.candidate (d : Dev) (f : BootFind) (b : Bool) : Bool :=
  !f.bad.contains (b, 0) && [1, 2, 3, 4, 5].all fun ty => ((d.flash.slot b).imgs.filter (·.ty == ty)).length == 1

/-- The slot to try first: a PENDING candidate, otherwise the GOOD candidate with the higher SEQ. -/
def Dev.firstSlot (d : Dev) (f : BootFind) : Option Bool :=
  let can (b : Bool) (st : Nat) : Bool := d.candidate f b && (d.flash.slot b).st == st
  if can false 1 then some false
  else if can true 1 then some true
  else if can false 2 && can true 2 then some (decide (d.flash.a.seq < d.flash.b.seq))
  else if can false 2 then some false
  else if can true 2 then some true
  else none

/-- Try a slot: whether its images verify; the first that fails is cause 0x8101 and fails the slot. A PENDING slot counts as FAILED from the
start. -/
def Dev.trySlot (d : Dev) (f : BootFind) (b : Bool) : Dev × Bool :=
  let x := d.flash.slot b
  let d1 := if x.st = 1 then d.setSlotSt b 3 else d
  match x.imgs.find? fun i => decide (1 ≤ i.ty) && decide (i.ty ≤ 5) && f.bad.contains (b, i.ty) with
  | some i => ((d1.secCause 0x8101 0 (slotBase b + i.off)).setSlotSt b 3, false)
  | none => (d1, true)

/-- The slot that boots, if one does. -/
def Dev.chooseSlot (d : Dev) (f : BootFind) : Dev × Option Bool :=
  match d.firstSlot f with
  | none => (d, none)
  | some b => match d.trySlot f b with
    | (d1, true) => (d1, some b)
    | (d1, false) =>
      if d1.candidate f !b then
        match d1.trySlot f !b with
        | (d2, true) => (d2, some !b)
        | (d2, false) => (d2, none)
      else (d1, none)

/-! ### The boot configuration (R465, R466) -/

/-- A grouping is allowed for an instance count (R354). -/
def groupOk (log2N group : Nat) : Bool := decide (group ≤ 2) && decide (log2N ≤ 3) && (log2N ≤ 1 || (log2N == 2 && 1 ≤ group) || group == 2)

/-- A little-endian field of a boot configuration record. -/
def cfgN (r : List Byte) (o k : Nat) : Nat := leNat ((r.drop o).take k)

/-- The fields of a record but for the windows' backing lie in their ranges. -/
def cfgFieldsOk (r : List Byte) : Bool :=
  let nw := cfgN r 8 1
  let nf := cfgN r 9 1
  let at0 := 0x10 + 16 * nw
  decide (at0 + 8 * nf ≤ r.length) && cfgN r 0 4 == 0x46435A45 && cfgN r 4 2 == 1 && groupOk (cfgN r 6 1) (cfgN r 7 1) &&
    decide (1 ≤ nw) && decide (nw ≤ 16) && decide (nf ≤ 32) && cfgN r 0xA 6 == 0 &&
    ((List.range nw).filter fun i => cfgN r (0x10 + 16 * i + 8) 1 == 1).length == 1 &&
    (List.range nw).all (fun i =>
      let o := 0x10 + 16 * i
      decide (cfgN r o 2 < 1024) && decide (1 ≤ cfgN r (o + 2) 2) && decide (cfgN r (o + 2) 2 ≤ 1024) && decide (cfgN r (o + 4) 1 ≤ 2) &&
        decide (cfgN r (o + 5) 1 ≤ 1) && decide (cfgN r (o + 6) 1 ≤ 7) && decide (cfgN r (o + 7) 1 ≤ 127) && decide (cfgN r (o + 8) 1 ≤ 1) &&
        cfgN r (o + 9) 7 == 0) &&
    (List.range nf).all fun e =>
      let o := at0 + 8 * e
      decide (cfgN r o 2 < 2 ^ 14) && decide (cfgN r (o + 2) 2 < 2 ^ 14) && decide (cfgN r (o + 4) 1 ≤ 2) && cfgN r (o + 5) 3 == 0

/-- HBM_WIN_CFGe from a window entry of a record (R309). -/
def cfgWinWord (mode cls die doff mgmt : Nat) : W32 := BitVec.ofNat 32 (mode + cls * 2 ^ 2 + mgmt * 2 ^ 4 + die * 2 ^ 8 + doff * 2 ^ 16)

/-- Set one window valid; none where a check of R298 refuses it. -/
def Dev.bootWindow (d : Dev) (e base size : Nat) (cfg : W32) : Option Dev :=
  let d1 := d.setReg .hbmWinCfg [e] cfg
  match d1.winReason { d1.win e with base := base, size := size, valid := true } true with
  | some _ => none
  | none => some ((d1.winSet e base (size - 1) true).winEnd e)

/-- Apply a record; none where it is rejected. -/
def Dev.applyConfig (d : Dev) (r : List Byte) : Option Dev :=
  if !cfgFieldsOk r then none
  else
    let nw := cfgN r 8 1
    let d1 := (d.setRegFld .drwCfg [] 1 0 (cfgN r 6 1)).setRegFld .fabCfg [] 1 0 (cfgN r 7 1)
    let d2 := (List.range (cfgN r 9 1)).foldl (fun d e =>
      let o := 0x10 + 16 * nw + 8 * e
      (d.setReg .secRafBase [e] (BitVec.ofNat 32 (2 ^ 31 + cfgN r (o + 4) 1 * 2 ^ 16 + cfgN r o 2))).setReg .secRafLimit [e]
        (BitVec.ofNat 32 (cfgN r (o + 2) 2))) d1
    (List.range nw).foldl (fun (o : Option Dev) i => o.bind fun d =>
      let b := 0x10 + 16 * i
      d.bootWindow i (cfgN r b 2) (cfgN r (b + 2) 2) (cfgWinWord (cfgN r (b + 4) 1) (cfgN r (b + 5) 1) (cfgN r (b + 6) 1) (cfgN r (b + 7) 1) (cfgN r (b + 8) 1)))
      (some d2)

/-- The default configuration: N = 1, GROUP 0, and one window, the management region (R466). -/
def Dev.defaultConfig (d : Dev) : Dev :=
  ((d.bootWindow 0 1008 16 (cfgWinWord 0 0 0 108 1)).getD d).setRegBit .secStatus [] 27

/-- The boot configuration of the booted slot (R466, R471). -/
def Dev.bootConfig (d : Dev) (b : Bool) (bad : Bool) : Dev :=
  match (d.flash.slot b).image 0x10 with
  | none => d.defaultConfig
  | some i =>
    match (if bad then none else d.applyConfig i.body) with
    | some d1 => d1
    | none => (d.secCause 0x8101 0 (slotBase b + i.off)).defaultConfig

/-! ### The boot steps (R460, R461, R467) -/

/-- DAT_FEAT and DAT_DEVOPS: what every compute die whose record was accepted has, whether or not it came up (R240). -/
def Dev.intersect (d : Dev) : Dev :=
  let up := (List.range 8).filter fun i => d.reg .datCap [i, 0] != 0
  let all (f : Nat → W32) : W32 := if up.isEmpty then 0 else up.foldl (fun a i => a &&& f i) (BitVec.allOnes 32)
  ((d.setReg .datFeatLo [] (all fun i => d.reg .datCap [i, 4])).setReg .datFeatHi [] (all fun i => d.reg .datCap [i, 5])).setReg .datDevops []
    (all fun i => BitVec.ofNat 32 (fld (d.reg .datCap [i, 7]) 20 16))

/-- The recovery state: only the management and security domains are ON (R461). -/
def Dev.recover (d : Dev) : Dev := d.stopDevice.setRegBit .secStatus [] 26

/-- Step 6: the compute dies come up, and run at the point that R434 grants with no LAUNCH. -/
def Dev.bootDies (d : Dev) (f : BootFind) : Dev :=
  let none8 : LinkUpFind := { pll := false, record := none, trained := 0 }
  let d1 := (List.range 8).foldl (fun d i => (d.modDie i fun _ => { st := 1 }).linkUp i (f.dies.getD i none8) false) d
  let d2 := d1.intersect
  (List.range 8).foldl Dev.opStart d2

/-! ### Measurements (R464) -/

/-- The encoding of the default configuration (R465, R466). -/
def defaultRecord : List Byte :=
  leBytes 0x46435A45 4 ++ leBytes 1 2 ++ [0, 0, 1, 0] ++ leBytes 0 6 ++ leBytes 1008 2 ++ leBytes 16 2 ++ [0, 0, 0, 108, 1] ++ leBytes 0 7

/-- The locked protection set-up, in offset order. -/
def Dev.lockedWords (d : Dev) : List W32 :=
  (List.range 32).flatMap (fun e => [d.reg .secRafBase [e], d.reg .secRafLimit [e]]) ++ [d.reg .drwCfg [], d.reg .fabCfg []] ++
    (List.range 16).flatMap fun e => [d.reg .hbmWinBase [e], d.reg .hbmWinCfg [e], BitVec.ofNat 32 (b2n (d.win e).valid)]

def wordBytes (ws : List W32) : List Byte := ws.flatMap fun w => leBytes w.toNat 4

/-- The version of the trims record in use; above every version where it is the ROM's (R469). -/
def Dev.trimsUsed (d : Dev) : Nat :=
  if d.board.trimsBad then 2 ^ 32 else if d.regBit .secStatus [] 28 then d.flash.trimsBackup else d.flash.trims

/-- What measurements 8, 9 and 11 measure, and the version of the trims in use. -/
def Dev.measureBytes (d : Dev) (b : Bool) : List (List Byte) :=
  [if d.regBit .secStatus [] 27 then defaultRecord else (((d.flash.slot b).image 0x10).map fun x => x.body).getD [],
   wordBytes d.lockedWords, wordBytes [d.reg .datFeatLo [], d.reg .datFeatHi [], d.reg .datDevops []], leBytes d.trimsUsed 5]

/-- Steps 8 and 9: configuration, ports, and the boot lock; the booted slot is GOOD, and a backup of the trims replaces the primary. -/
def Dev.bootFinish (d : Dev) (b bad refclk : Bool) : Dev :=
  let d1 := d.bootConfig b bad
  let d2 := d1.setRegFld .fabCfg [] 15 15 (b2n refclk)
  let d3 := (List.range 24).foldl Dev.portStart d2
  let d4 := (((d3.setRegBit .secStatus [] 31).setRegBit .secLock [] 0).setRegBit .drwCfg [] 31).setSlotSt b 2
  { d4 with
    measured := d4.measureBytes b
    board := { d4.board with booted := some b, bootWait := none }
    flash := if d4.regBit .secStatus [] 28 then { d4.flash with trims := d4.flash.trimsBackup } else d4.flash }

/-- Step 4: the trims (R469). -/
def Dev.bootTrims (d : Dev) (f : BootFind) : Dev :=
  match f.trims with
  | 0 => d
  | 1 => (d.secCause 0x8105 4 0x20000).setRegBit .secStatus [] 28
  | 2 => let d1 := d.secCause 0x8105 4 0x20000
         { d1 with board := { d1.board with trimsBad := true } }

/-- The boot from step 2 on. A warm reset waits after its HBM step while PERST_N is asserted (R458).
Without the crystal's reference the device does not leave reset (R29). -/
def Dev.bootRun (d : Dev) (f : BootFind) (cold : Bool) : Dev :=
  if !f.xtal then { d with board := { d.board with xtalBad := true } }
  else if !f.layout then (d.secCause 0x8107 6 0).recover
  else
    let d1 := if !cold then d else if f.identity then d.setRegBit .secStatus [] 29 else d.secCause 0x8104 3 0
    match (d1.bootTrims f).chooseSlot f with
    | (d2, none) => d2.recover
    | (d2, some b) =>
      let d3 := d2.bootDies f
      if !cold && d3.board.perst then { d3 with board := { d3.board with bootWait := some (b, f.bad.contains (b, 0x10), f.refclk) } }
      else d3.bootFinish b (f.bad.contains (b, 0x10)) f.refclk

/-- A cold boot: the input controller's latches are reported and cleared (R24, R447, R459), once the device leaves
reset. -/
def Dev.coldBoot (d : Dev) (f : BootFind) : Dev :=
  let d0 := d.powerLost
  let d1 : Dev := { d0 with board := { d0.board with swOn := true, ovTrip := d0.board.ovTrip && !f.xtal, brownOut := d0.board.brownOut && !f.xtal
                                                     cables := d0.board.cables.mapVals fun _ c => { c with supply := c.mated && !c.latched } } }
  let d2 := if d.board.ovTrip && f.xtal then d1.modCause7 0x7C05 0 else d1
  let d3 := if d.board.brownOut && f.xtal then d2.pwrCause 0x7102 1 0 else d2
  d3.bootRun f true

/-- A device warm reset; none while a trip has stopped the device (R458). `last` is SEC_STATUS.LAST. -/
def Dev.warmReset (d : Dev) (last : Nat) (f : BootFind) : Dev :=
  if !d.board.swOn || d.tripped then d else (d.warmClear last).bootRun f false

/-! ### What triggers a reset (R345, R458, R476) -/

def perstNAssertEffect (f : BootFind) (d : Dev) : Dev :=
  if d.board.perst then d else ({ d with board := { d.board with perst := true } } : Dev).warmReset 1 f

def perstNDeassertEffect (d : Dev) : Dev :=
  let d1 : Dev := { d with board := { d.board with perst := false } }
  match d.board.bootWait with
  | some (b, bad, clk) => d1.bootFinish b bad clk
  | none => d1

/-- A write of SEC_RESET: the key in the same write as WARM. -/
def secResetEffect (w : W32) (f : BootFind) (d : Dev) : Dev := if fld w 31 16 = 0x5752 ∧ w.getLsbD 0 then d.warmReset 2 f else d

def securityWatchdogEffect (f : BootFind) (d : Dev) : Dev := d.warmReset 3 f

/-- The host link goes down: cause 0x9204, and the effect of PERST_N. -/
def hostLinkDownEffect (f : BootFind) (d : Dev) : Dev :=
  if !d.regBit .hstLinkStatus [] 0 then d else (d.hstCause 0 0x9204 3 0 0 (some .surpriseDown)).warmReset 1 f

def hotResetEffect (f : BootFind) (d : Dev) : Dev := if !d.regBit .hstLinkStatus [] 0 then d else d.warmReset 1 f

/-! ### The commands -/

section
variable (f : BootFind) (s : State)

def execPerstNAssert := s.run (perstNAssertEffect f)
def execPerstNDeassert := s.run perstNDeassertEffect
def execSecReset (w : W32) (f : BootFind) (s : State) := s.runLive (secResetEffect w f)
def execSecurityWatchdog := s.runOn (securityWatchdogEffect f)
def execHostLinkDown := s.runOn (hostLinkDownEffect f)
def execHotReset := s.runOn (hotResetEffect f)
end

end Sys2Proof.Machine
end

