-- ==== Sys2Proof/Machine/Clamps.lean ====
section
/-! DEFINITION. The commands of clamps: the jig instructions CLP (R184, R218 to R220), the thread instructions CARRIVE,
CADD and CWAIT (R195), the clamp network's root and shadow updates (R221, R224), the ends of waits (R157, R218) and the
watchdog (R148, R223); and the epoch of the bulk network's budgets (R211). -/

namespace Sys2Proof.Machine

/-! ### Arriving, adding and waiting -/

/-- The cause, if any, for which an instruction of bench `b` may not name a clamp: a counter of another context, or a
device ID that is not its own (R219, R220). -/
def Dev.clampCause (d : Dev) (b : Nat) (dev : Bool) (idx : Nat) : Option Nat :=
  if dev then (if d.clampBad b idx then some 0x1503 else none)
  else match (d.bench b).clampOwner.find? idx with
    | some o => if o = (d.bench b).runCtx then none else some 0x1502
    | none => none

/-- The running context owns a counter it names (R219). -/
def Bench.ownCounter (bn : Bench) (idx : Nat) : Bench :=
  if bn.clampOwner.has idx then bn
  else { bn with clampOwner := bn.clampOwner.set idx bn.runCtx, clampVal := bn.clampVal.set idx 0 }

/-- Add to a bench counter at once, or send the amount toward a device ID's root; to a FAILED ID it is discarded
(R218, R219, R221, R224). -/
def Dev.clampAdd (d : Dev) (b : Nat) (dev : Bool) (idx : Nat) (v : W32) : Dev :=
  if dev then
    let i := d.clampPhys ((d.bench b).ctx.prog / 16) idx
    if d.clampFailed i then d
    else d.send { kind := .clampUp, src := .bench b, dst := if d.clampDevScope i then .clampIod else .clampRoot (d.clampRootDie i)
                  v0 := i, v1 := v.toNat }
  else d.modBench b fun bn =>
    let bn1 := bn.ownCounter idx
    { bn1 with clampVal := bn1.clampVal.set idx (bn1.clampVal.getD idx 0 + v) }

/-- A wait begins: a counter is owned; a FAILED ID is cause 0x1504 (R219, R224). -/
def Dev.clampWaitBegin (d : Dev) (b : Nat) (dev : Bool) (idx : Nat) : Option Nat × Dev :=
  if dev then
    (if d.clampFailed (d.clampPhys ((d.bench b).ctx.prog / 16) idx) then some 0x1504 else none, d)
  else (none, d.modBench b (·.ownCounter idx))

/-- The value that a waiter of bench `b` tests: the counter, or the bench's shadow of the ID (R218, R221). -/
def Dev.clampSeen (d : Dev) (b inst : Nat) (dev : Bool) (idx : Nat) : W32 :=
  if dev then (d.bench b).shadow.getD (d.clampPhys inst idx) 0 else (d.bench b).clampVal.getD idx 0

def isClp (sub : Nat) (w : W64) : Bool := majorOf w == 0x20 && fld w 7 6 == sub

def clpArriveEffect (b : Nat) (f : Ecc) (d : Dev) : Dev :=
  d.jigIssue b f (isClp 0) fun w d' =>
    match d'.clampCause b (w.getLsbD 8) (fld w 16 9) with
    | some c => some (d'.killRun b c 0x00 0)
    | none => some ((d'.clampAdd b (w.getLsbD 8) (fld w 16 9) 1).modBench b (·.pcNext 4))

def clpAddEffect (b : Nat) (f : Ecc) (d : Dev) : Dev :=
  d.jigIssue b f (isClp 1) fun w d' =>
    match d'.clampCause b (w.getLsbD 8) (fld w 16 9) with
    | some c => some (d'.killRun b c 0x00 0)
    | none =>
      some ((d'.clampAdd b (w.getLsbD 8) (fld w 16 9) ((d'.bench b).j (fld w 22 18))).modBench b (·.pcNext 4))

def clpWaitEffect (b : Nat) (f : Ecc) (d : Dev) : Dev :=
  d.jigIssue b f (isClp 2) fun w d' =>
    let dev := w.getLsbD 8
    let idx := fld w 16 9
    match d'.clampCause b dev idx with
    | some c => some (d'.killRun b c 0x00 0)
    | none => match d'.clampWaitBegin b dev idx with
      | (some c, d1) => some (d1.killRun b c 0x00 0)
      | (none, d1) => some (d1.modBench b fun bn =>
          { bn.pcNext 4 with wait := .clamp dev idx (bn.j (fld w 22 18)).toNat (w.getLsbD 17), waitAt := d1.cycle (dieOf b) })

/-- The sum of a register's lanes over the threads of an issue. -/
def Issue.laneSum (i : Issue) (v : VReg) : W32 :=
  BitVec.ofNat 32 (((List.range 64).map fun t => if i.mask.testBit t then laneN v 32 t else 0).sum)

/-- CARRIVE: each thread of the cohort adds 1 (R218). -/
def carriveEffect (b : Nat) (slot : Fin 8) (f : Ecc) (d : Dev) : Dev :=
  d.planeSimple b (.group slot) f none (isTctl 8) fun i d' =>
    let dev := i.word.getLsbD 31
    let idx := fld i.word 39 32
    match d'.clampCause b dev idx with
    | some c => d'.threadKill b c 0x00 0 (firstThread i.mask) i
    | none => d'.clampAdd b dev idx (BitVec.ofNat 32 (popCount i.mask 64))

/-- CADD: each thread of the cohort adds its UB (R218). -/
def caddEffect (b : Nat) (slot : Fin 8) (f : Ecc) (vp : Option Nat) (d : Dev) : Dev :=
  d.planeSimple b (.group slot) f vp (isTctl 9) fun i d' =>
    let dev := i.word.getLsbD 31
    let idx := fld i.word 39 32
    match d'.clampCause b dev idx with
    | some c => d'.threadKill b c 0x00 0 (firstThread i.mask) i
    | none => d'.clampAdd b dev idx (i.laneSum (i.src (d'.bench b) (fld i.word 21 17)))

/-- CWAIT: the threads of the cohort wait, their program counters at the instruction (R148, R218). -/
def tctlCwaitEffect (b : Nat) (slot : Fin 8) (f : Ecc) (vp : Option Nat) (d : Dev) : Dev :=
  d.planeSimple b (.group slot) f vp (isTctl 0xA) fun i d' =>
    let dev := i.word.getLsbD 31
    let idx := fld i.word 39 32
    let t := firstThread i.mask
    match d'.clampCause b dev idx with
    | some c => d'.threadKill b c 0x00 0 t i
    | none => match d'.clampWaitBegin b dev idx with
      | (some c, d1) => d1.threadKill b c 0x00 0 t i
      | (none, d1) => d1.modBench b fun bn => bn.modGroup (i.slot.getD 0) fun g =>
          ({ g with
            clampWait := g.clampWait ||| BitVec.ofNat 64 i.mask
            clampAt := ((List.range 64).filter i.mask.testBit).foldl (fun m t => m.set t (d1.cycle (dieOf b))) g.clampAt } : TGroup).jump (BitVec.ofNat 64 i.mask) i.pc

/-! ### The clamp network -/

/-- Up to `k` messages of ID `i`, merged on their way, reach the root, which applies the sum (R221). A double-bit error
discards them and marks the ID FAILED (R224). -/
def clampRootUpdateEffect (i k : Nat) (e : Ecc) (d : Dev) : Dev :=
  let (ms, rest) := takeUpTo (fun m => m.kind == .clampUp && m.v0 == i) k d.net
  match ms with
  | [] => d
  | m :: _ =>
    let die := match m.src with
      | .bench b => dieOf b
      | _ => d.clampRootDie i
    let (go, d1) := Dev.clampEcc { d with net := rest } die i e
    if go then d1.clampApply i (BitVec.ofNat 32 ((ms.map (·.v1)).sum)) else d1

/-- The benches of a clamp node: the 2 × 2 block at (2x, 2y) (R221). -/
def nodeBenches (die node : Nat) : List Nat :=
  let x := 2 * (node % 12)
  let y := 2 * (node / 12)
  [(y, x), (y, x + 1), (y + 1, x), (y + 1, x + 1)].map fun p => die * 576 + p.1 * 24 + p.2

/-- A broadcast of ID `i` reaches a clamp node: its four benches' shadows take the value (R221). -/
def clampShadowUpdateEffect (die node i : Nat) (e : Ecc) (d : Dev) : Dev :=
  if !d.dieRuns die then d
  else match d.clampDown.find? fun x => x.die == die && x.id == i && x.left.getLsbD node with
    | none => d
    | some x =>
      let y := { x with left := x.left &&& ~~~(1#144 <<< node) }
      let down := if y.left = 0 then d.clampDown.erase x else d.clampDown.map fun z => if z = x then y else z
      let (go, d1) := Dev.clampEcc { d with clampDown := down } die i e
      if go then (nodeBenches die node).foldl (fun d b => d.modBench b fun bn => { bn with shadow := bn.shadow.set i x.value }) d1
      else d1

/-! ### The ends of waits -/

/-- Threads of a group whose clamp has reached their targets. -/
def Dev.releasedThreads (d : Dev) (b slot : Nat) (g : TGroup) : W64 :=
  let bn := d.bench b
  BitVec.ofNat 64 (packLanes 1 ((List.range 64).map fun t =>
    b2n (g.clampWait.getLsbD t &&
      let r := bn.threadClamp bn.ctx slot t g
      clampReached (d.clampSeen b (bn.ctx.prog / 16) r.1 r.2.1) r.2.2)))

/-- A waiter is released: the jig core as R157 gives, or the threads of a group whose clamp has reached their targets,
which go on at the next instruction (R218). -/
def clampWaitExitEffect (b : Nat) (slot : Option (Fin 8)) (d : Dev) : Dev :=
  let bn := d.bench b
  if !d.dieRuns (dieOf b) || !bn.running then d
  else match slot with
    | none => match bn.wait with
      | .clamp dev idx t al =>
        if clampReached (d.clampSeen b (bn.ctx.prog / 16) dev idx) (BitVec.ofNat 32 t) then d.exitWait b al else d
      | _ => d
    | some s => match bn.group s with
      | none => d
      | some g =>
        let m := d.releasedThreads b s g
        d.modBench b fun x => x.setGroup s
          { g with
            clampWait := g.clampWait &&& ~~~m
            clampAt := g.clampAt.filter fun t _ => !m.getLsbD t
            pcs := (List.range 64).map fun t => if m.getLsbD t then g.pc t + 8 else g.pc t }

/-- The program counter of the instruction at which a thread waits: a thread at a clamp stands at its CWAIT, one at the barrier has gone
past its BAR (R147, R148, R152). -/
def TGroup.waitPc (g : TGroup) (t : Nat) : Nat := if g.arrived.getLsbD t then g.pc t - 8 else g.pc t

/-- Threads of a group whose barrier or clamp wait has lasted CLP_WDOG.LIMIT cycles (R148); a thread whose clamp has reached its target waits no
longer. -/
def Dev.expiredThreads (d : Dev) (b slot : Nat) (g : TGroup) : W64 :=
  let old (t : Nat) : Bool := decide (t + d.limitOf .clpWdog b ≤ d.cycle (dieOf b))
  (if old g.wdog then g.arrived else 0) ||| (g.clampWait &&& ~~~(d.releasedThreads b slot g) &&&
    BitVec.ofNat 64 (packLanes 1 ((List.range 64).map fun t => b2n (old (g.clampAt.getD t 0)))))

/-- The count at which the oldest wait of the jig, or of a slot's threads, has lasted CLP_WDOG.LIMIT; none where nothing waits. -/
def Dev.clampDue (d : Dev) (b : Nat) (slot : Option Nat) : Option Nat :=
  let bn := d.bench b
  match slot with
  | none => match bn.wait with
    | .clamp _ _ _ _ => some (bn.waitAt + d.limitOf .clpWdog b)
    | _ => none
  | some s => (bn.group s).bind fun g =>
    let waits := g.clampWait &&& ~~~(d.releasedThreads b s g)
    let ts := ((List.range 64).filter fun t => waits.getLsbD t).map fun t => g.clampAt.getD t 0
    ((if g.arrived = 0 then ts else g.wdog :: ts).min?).map (· + d.limitOf .clpWdog b)

/-- The watchdog of a clamp or barrier wait has reached CLP_WDOG.LIMIT (R148, R223). -/
def clampWatchdogExpiryEffect (b : Nat) (slot : Option (Fin 8)) (d : Dev) : Dev :=
  let bn := d.bench b
  if !d.dieRuns (dieOf b) || !bn.running then d
  else match slot with
    | none => match bn.wait with
      | .clamp dev idx t _ =>
        if clampReached (d.clampSeen b (bn.ctx.prog / 16) dev idx) (BitVec.ofNat 32 t) ||
            decide (d.cycle (dieOf b) < bn.waitAt + d.limitOf .clpWdog b) then d
        else d.killRun b 0x1501 0x00 0
      | _ => d
    | some s => match bn.group s with
      | none => d
      | some g =>
        let m := d.expiredThreads b s g
        if m = 0 then d
        else
          let t := firstThread m.toNat
          d.threadKill b 0x1501 0x00 0 t
            { slot := some s, word := 0, pop := { word := 0, base := 0, stride := 0, value := 0, fill := 0 }, vl := 64
              mask := m.toNat, zm := false, pc := g.waitPc t, num := g.num } true

/-! ### Epochs (R211) -/

/-- A die's count comes to the next multiple of 1,024, and every budget counter is set to its class's NET_BUDGET. Benches due to start before
it start first. -/
def epochStartEffect (die : Nat) (d : Dev) : Dev :=
  let c := nextMod (d.cycle die + 1) 1024 0
  if !d.dieRuns die || d.startsBefore die c then d else d.advanceTo die c

/-! ### The commands -/

section
variable (b : BenchIx) (f : Ecc) (s : State)

def execClpArrive := s.runLive (clpArriveEffect b f)
def execClpAdd := s.runLive (clpAddEffect b f)
def execClpWait := s.runLive (clpWaitEffect b f)
def execCarrive (slot : Fin 8) (f : Ecc) (s : State) := s.runLive (carriveEffect b slot f)
def execCadd (slot : Fin 8) (f : Ecc) (vp : Option Nat) (s : State) := s.runLive (caddEffect b slot f vp)
def execTctlCwait (slot : Fin 8) (f : Ecc) (vp : Option Nat) (s : State) := s.runLive (tctlCwaitEffect b slot f vp)
def execClampWaitExit (slot : Option (Fin 8)) (s : State) := s.runLive (clampWaitExitEffect b slot)
end

def execClampRootUpdate (i : Fin 256) (k : Nat) (e : Ecc) (s : State) := s.runLive (clampRootUpdateEffect i k e)
def execClampShadowUpdate (die : DieIx) (node : Fin 144) (i : Fin 256) (e : Ecc) (s : State) :=
  s.runLive (clampShadowUpdateEffect die node i e)
def execEpochStart (die : DieIx) (s : State) := s.runLive (epochStartEffect die)

end Sys2Proof.Machine
end

