-- ==== Sys2Proof/Machine/CpLaunch.lean ====
section
/-! DEFINITION. LAUNCH (R319 to R321): its preparation, the start and the end of its steps, kills, time slicing (R332, R333), the
deadline monitor (R334 to R336), start and kill messages (R216, R321), MARK (R203), and the watchdog of a firmware core (R337). -/

namespace Sys2Proof.Machine

/-- The first die's cycle count at or after the present plus 1,024 that is a multiple of 1,024 (R216). -/
def Dev.startCycle (d : Dev) (die : Nat) : Nat := nextMod (d.cycle die + 1024) 1024 0

/-! ### Time slicing (R332) -/

/-- CP_SLICE in ticks (R338). -/
def Dev.slice1 (d : Dev) : Nat := d.ticksOf .cpSlice

/-- Two programs share a bench. -/
def Dev.shareBench (d : Dev) (p r : Nat) : Bool := (d.ctxsOf p).any fun x => (d.ctxsOf r).any fun y => x.1 == y.1

/-- A LAUNCH of another queue of the instance holds a bench of the program. -/
def Dev.benchHeld (d : Dev) (q prog : Nat) : Bool :=
  (d.queuesOf (d.queueInst q)).any fun r => r != q && match d.launch r with
    | some l => l.owns && d.shareBench l.cur prog
    | none => false

/-- The queues that contend for the benches of a queue's LAUNCH, in ascending order starting after it. -/
def Dev.contenders (d : Dev) (q prog : Nat) : List Nat :=
  let all := (d.queuesOf (d.queueInst q)).filter fun r => r != q && match d.launch r with
    | some l => l.contends && d.shareBench l.cur prog
    | none => false
  all.filter (q < ·) ++ all.filter (· < q)

/-- Visit the contenders in turn: one with b ≤ 0 gains CP_SLICE, and one whose b is then above 0 is granted the benches (R332). -/
def Dev.visit : Nat → Dev → List Nat → List Nat → Dev
  | 0, d, _, _ => d
  | f + 1, d, all, [] => if all.isEmpty then d else Dev.visit f d all all
  | f + 1, d, all, r :: rs =>
    let b := (d.queue r).budget
    let b1 := if b ≤ 0 then b + (d.slice1 : Int) else b
    let d1 := d.modQueue r fun x => { x with budget := b1 }
    if 0 < b1 then d1.modLaunch r fun l => { l with owns := true, contends := false } else Dev.visit f d1 all rs

/-- The benches of a queue's LAUNCH become free: they go to a contender whose own benches no other LAUNCH holds. -/
def Dev.grantBenches (d : Dev) (q prog : Nat) : Dev :=
  let cs := (d.contenders q prog).filter fun r => match d.launch r with
    | some l => !d.benchHeld r l.cur
    | none => false
  let worst := cs.foldl (fun m r => max m (d.queue r).budget.natAbs) 0
  Dev.visit ((cs.length + 1) * (worst / d.slice1 + 3)) d cs cs

/-- A LAUNCH gives its benches up. -/
def Dev.releaseBenches (d : Dev) (q : Nat) (l : Launch) : Dev :=
  if l.owns then (d.modLaunch q fun x => { x with owns := false }).grantBenches q l.cur else d

/-- A queue that gives up benches with b ≤ 0 and a contender gains CP_SLICE (R332). -/
def Dev.yieldGain (d : Dev) (q : Nat) (l : Launch) : Dev :=
  if l.owns && decide ((d.queue q).budget ≤ 0) && !(d.contenders q l.cur).isEmpty then
    d.modQueue q fun x => { x with budget := x.budget + (d.slice1 : Int) }
  else d

/-- At a preemption point a queue with b ≤ 0 and a contender yields (R332). -/
def Dev.preempt (d : Dev) (q : Nat) : Dev :=
  match d.launch q with
  | none => d
  | some l =>
    if !l.atomic && l.owns && decide ((d.queue q).budget ≤ 0) && !(d.contenders q l.cur).isEmpty then
      (d.yieldGain q l).releaseBenches q l
    else d

/-- `n` always-on ticks of the slicer: a queue that holds contended benches spends them from its budget, and overruns in each that
leaves it below 0 (R332, R333). -/
def Dev.spend (n : Nat) (d : Dev) (q : Nat) : Dev :=
  match d.launch q with
  | none => d
  | some l =>
    if l.owns && !(d.contenders q l.cur).isEmpty then
      let b := min (d.queue q).budget (d.slice1 : Int)
      let past := n - b.toNat
      let d1 := d.modQueue q fun x => { x with budget := b - n }
      if past = 0 then d1 else d1.modLaunch q fun x => { x with overrun := x.overrun + past }
    else d

def overrunRaiseEffect (q : Nat) (d : Dev) : Dev :=
  match d.launch q with
  | none => d
  | some l =>
    if l.overRaised ∨ l.overrun ≤ 4 * d.slice1 then d
    else (((d.cpCause q 0x9103 0 0).count .cpOverruns [] 31 0).modLaunch q fun x => { x with overRaised := true }).modCmd q fun c =>
      { c with overrun := true, fault := if c.fault = 0 then 0x9103 else c.fault }

/-! ### Ending a LAUNCH -/

/-- INFO0 of a LAUNCH (R329). -/
def Launch.info (l : Launch) : Nat := l.main % 2 ^ 32 + l.backs % 2 ^ 32 * 2 ^ 32

/-- Writes that a bench context has sent and that have not been performed: in flight or waiting at its bay cache or at a home slice, or on
their way to a fabric peer (R293). -/
def Dev.writesLeft (d : Dev) (b : Nat) : Bool :=
  let w (m : Msg) : Bool := m.src == .bench b && (m.kind == .benchWrite || m.kind == .benchRed || m.kind == .benchAtomic)
  let r (m : Msg) : Bool := m.req == some (.bench b) && (m.kind == .wra || m.kind == .ata || m.kind == .red)
  let f (x : SentFrame) : Bool := match x.owner with
    | .tm k _ => k == b
    | _ => false
  d.net.any (fun m => w m || r m) || (d.bay (bayOf b)).misses.any (fun x => x.waiting.any w) ||
    d.slices.cells.any (fun c => c.2.pend.any fun p => r p.req) ||
    d.peers.cells.any fun c => (c.2.bulk.unacked ++ c.2.bulk.backlog).any f

/-- The contexts of a LAUNCH: those of PROG and of BACKING. -/
def Dev.ctxsAll (d : Dev) (l : Launch) : List (Nat × Nat) :=
  d.ctxsOf l.prog ++ match l.back with
    | some p => d.ctxsOf p
    | none => []

/-- Every write of a LAUNCH has been performed (R293). -/
def Dev.writesDone (d : Dev) (l : Launch) : Bool := (d.ctxsAll l).all fun x => !d.writesLeft x.1

/-- A LAUNCH completes: its benches go to a contender, and its record is written (R329, R332). -/
def Dev.launchOver (d : Dev) (q st f : Nat) (l : Launch) : Dev := ((d.yieldGain q l).releaseBenches q l).finish q st l.info f

/-- A LAUNCH whose contexts are being killed completes once the kill messages are gone and the writes that had left its benches
have been performed (R293, R321). -/
def Dev.launchDrain (d : Dev) (q : Nat) : Dev :=
  match d.launch q with
  | none => d
  | some l => match l.killing with
    | none => d
    | some (st, f) => if d.kills.any (·.q == q) || !d.writesDone l then d else d.launchOver q st f l

/-- Kill messages to the contexts of the present step that have started it and are not at their boundary; benches that have not
started do not start (R321). -/
def Dev.killStep (d : Dev) (q code : Nat) (l : Launch) : Dev :=
  let cs := (d.ctxsOf l.cur).filter fun x => let c := (d.bench x.1).ctxN x.2; !c.idle && !c.killed
  { d with
    starts := d.starts.filter (·.q != q)
    kills := d.kills ++ cs.map fun x => { bench := x.1, ctx := x.2, code := code, q := q } }

/-- A LAUNCH is to end with a status and a fault: its step is abandoned (R321, R336). -/
def Dev.endLaunch (d : Dev) (q st code : Nat) : Dev :=
  match d.launch q with
  | none => d
  | some l =>
    if l.killing.isSome then d
    else ((d.killStep q code l).modLaunch q fun x => { x with killing := some (st, code), contends := false }).launchDrain q

/-- The context that was killed first; the first in placement order of those killed in one tick. -/
def Dev.firstKilled (d : Dev) (cs : List (Nat × Nat)) : Option (Nat × Nat) :=
  cs.foldl (fun o x =>
    let c := (d.bench x.1).ctxN x.2
    if !c.killed then o
    else match o with
      | none => some x
      | some y => if c.killTime < ((d.bench y.1).ctxN y.2).killTime then some x else o) none

/-- After a context of the LAUNCH has been killed the others are too, and it completes with KILLED and the first fault (R321). -/
def launchKillEffect (q : Nat) (d : Dev) : Dev :=
  match d.launch q with
  | none => d
  | some l =>
    if l.killing.isSome then d.launchDrain q
    else match d.firstKilled (d.ctxsOf l.cur) with
      | none => d
      | some x => d.endLaunch q 0x20 ((d.bench x.1).ctxN x.2).killCause

/-- A kill message arrives at a bench: a context that has reached its boundary meanwhile stays (R321). -/
def killMessageEffect (b : Nat) (d : Dev) : Dev :=
  match takeFirst (fun (k : KillMsg) => k.bench == b) d.kills with
  | none => d
  | some (k, rest) =>
    let c := (d.bench b).ctxN k.ctx
    let d1 : Dev := { d with kills := rest }
    (if c.valid && !c.idle && !c.killed then d1.killQuiet b k.ctx k.code else d1).launchDrain k.q

/-! ### LAUNCH (R319, R320) -/

/-- A clamp entry of the packet: root die, scope, index; none where VALID is clear. -/
def Cmd.clampEntry (c : Cmd) (i : Nat) : Option (Nat × Bool × Nat) :=
  let w := c.n (0x30 + 2 * i) 2
  if w.testBit 15 then some (nfld w 11 9, w.testBit 8, nfld w 7 0) else none

def Cmd.clampEntries (c : Cmd) : List (Nat × Bool × Nat) := (List.range 8).filterMap c.clampEntry

/-- The contexts of a program are prepared: the seed with its tile count at zero, the park area of their placement entries, and no kill
remembered (R104, R320). A LAUNCH that a RESUME has queued again was prepared before: its contexts keep what was restored (R326). -/
def Dev.prepare (d : Dev) (prog : Nat) (seed : Option W32) : Dev :=
  match d.slots.find? prog with
  | none => d
  | some s => (d.ctxsOf prog).foldl (fun d x => d.modBench x.1 fun bn => bn.modCtx x.2 fun c =>
      let p := imPlace s.image c.place
      let c1 : BenchCtx := { c with parkBase := p.parkBase, parkSize := p.parkSize, killed := false, killCause := 0, killTime := 0, idle := true }
      match seed with
      | some v => { c1 with srSeed := v, srTile := 0 }
      | none => c1) d

/-- The fields of a LAUNCH packet, with its mark schedule. -/
def Cmd.toLaunch (c : Cmd) (inst clampBase began : Nat) (marks : List Byte) : Launch :=
  { prog := 16 * inst + c.n 8 1, back := if c.n 9 1 = 0xFF then none else some (16 * inst + c.n 9 1), lateMode := c.n 0xA 1
    atomic := c.n 0xB 1 == 1, first := c.n 0x1C 4, steps := c.n 0xC 4, margin := c.n 0x14 4, deadline := c.n 0x18 4, step := c.n 0x1C 4
    clamps := c.clampEntries.map fun e => clampBase + e.2.2
    marks := (List.range (marks.length / 8)).map fun i => (leNat ((marks.drop (8 * i)).take 2), leNat ((marks.drop (8 * i + 4)).take 4))
    began := began, stepT := began }

/-- A LAUNCH that RESUME continues goes on at its next step (R326). -/
def Launch.goOnAt (l : Launch) (k : Option Nat) : Launch :=
  match k with
  | some k => { l with step := k, main := k - l.first }
  | none => l

/-- The broadcasts that the configuration of a LAUNCH's clamp IDs started have ended (R220, R320). -/
def Dev.clampsQuiet (d : Dev) (ids : List Nat) : Bool := !d.clampDown.any fun x => ids.contains x.id

/-- The status that refuses a LAUNCH, if one does (R315, R319). -/
def Dev.launchRefusal (d : Dev) (q : Nat) (c : Cmd) (inst per nMarks : Nat) : Option Nat :=
  let prog := 16 * inst + c.n 8 1
  let back := 16 * inst + c.n 9 1
  let hasBack := c.n 9 1 != 0xFF
  if (hasBack && back == prog) || c.clampEntries.any (fun e => decide (per ≤ e.2.2) || (!e.2.1 && d.instOfDie e.1 != inst)) then some 1
  else if !d.slots.has prog || (hasBack && !d.slots.has back) then some 4
  else if nMarks != 0 && !d.mapped (d.queueWho q) false (c.n 0x20 8) (8 * nMarks) then some 2
  else none

/-- The preparation of a LAUNCH (R320): its contexts, then its clamps. -/
def Dev.launchPrepare (d : Dev) (q : Nat) (c : Cmd) (inst per : Nat) : Dev :=
  let seed := if (d.queue q).resumeAt.isSome then none else some (BitVec.ofNat 32 (c.n 0x10 4))
  let d1 := d.prepare (16 * inst + c.n 8 1) seed
  let d2 := if c.n 9 1 = 0xFF then d1 else d1.prepare (16 * inst + c.n 9 1) seed
  let d3 := c.clampEntries.foldl (fun d e => d.clampConfig (inst * per + e.2.2) e.2.1 e.1 inst) d2
  d3.modCmd q fun x => { x with phase := 1, off := d.ticks }

/-- LAUNCH checks its slots and clamps and prepares once; when the broadcasts of its clamps have ended it reads its mark schedule (R319, R320,
R484). -/
def launchEffect (q : Nat) (d : Dev) : Dev :=
  d.withCmd q 0x11 fun c =>
    let inst := d.queueInst q
    let per := 256 / d.instN
    let nMarks := if c.n 0x20 8 = 0 then 0 else c.n 0x28 2
    let start (d1 : Dev) : Dev :=
      if !d1.clampsQuiet (c.clampEntries.map fun e => inst * per + e.2.2) then d1
      else match d1.cpGather q c 0 (c.n 0x20 8) (8 * nMarks) with
        | (d2, false) => d2
        | (d2, true) =>
          let at0 := (d2.queue q).resumeAt
          (d2.modCmd q fun x =>
            { x with launch := some ((x.toLaunch inst (inst * per) x.off (if nMarks = 0 then [] else x.got)).goOnAt at0) }).modQueue q fun x =>
              { x with resumeAt := none }
    if c.launch.isSome then d
    else if c.phase = 1 then start d
    else match d.launchRefusal q c inst per nMarks with
      | some st => d.finish q st 0
      | none => start (d.launchPrepare q c inst per)

/-! ### Steps (R320) -/

/-- Nothing runs on a bench: it is at a command boundary, or at the one to which a context that has just come in goes without work. -/
def Bench.resting (bn : Bench) : Bool := !bn.running || (bn.workDone && bn.merge.isEmpty)

/-- A bench can start its context `n` from a boundary: the loaded one is this one, or can leave (R57). -/
def Bench.canTake (bn : Bench) (n : Nat) : Bool :=
  bn.resting && (bn.runCtx == n || bn.switchTo.isSome || !bn.ctx.valid || bn.ctx.save ||
    (!bn.mortise.setA.live && !bn.mortise.setB.live && bn.slots.cells.isEmpty))

/-- A LAUNCH stands where QUIESCE can hold it: between steps, an ATOMIC one before its first (R316, R326). -/
def Launch.atPoint (l : Launch) : Bool := !l.running && l.killing.isNone && (!l.atomic || l.step == l.first)

/-- The next step starts: the LAUNCH holds its benches and asks for its operating point, and once its dies are past any change of theirs
and its bays awake and its benches at rest a start message goes to each die of its program (R320, R434 to R436); a bench that another queue's
LAUNCH holds makes this one contend, and one that has switched to its BACKING then gives up the benches of its PROG (R332,
R335). -/
def launchStepStartEffect (q : Nat) (d : Dev) : Dev :=
  match d.launch q with
  | none => d
  | some l0 =>
    let l := { l0 with onBack := l0.switched }
    if l.running || l.killing.isSome || (d.queueStopped q && l.atPoint) || d.kills.any (·.q == q) then d
    else if (!l.owns || l.switched) && d.benchHeld q l.cur then
      let d1 := d.modLaunch q fun _ => { l with owns := false, contends := true, waitT := l.waitT.orElse fun _ => some d.ticks }
      if l.owns then d1.grantBenches q l.prog else d1
    else
      let dies := ((d.ctxsOf l.cur).map fun x => dieOf x.1).eraseDups
      let d1 := (d.modLaunch q fun _ => { l with owns := true, contends := false }).opUpdate
      if dies.any d1.changing || (d1.ctxsOf l.cur).any (fun x => !d1.bayOn (bayOf x.1) || !(d1.bench x.1).canTake x.2) then d1
      else
        let d2 := d1.modLaunch q fun x => { x with running := true, stepT := x.waitT.getD d.ticks, waitT := none }
        { d2 with starts := d2.starts ++ dies.map fun k => { die := k, q := q, cycle := d.startCycle k } }

/-- A start message reaches its die (R216). -/
def startMessageEffect (die q : Nat) (d : Dev) : Dev :=
  { d with starts := modFirst (fun (m : StartMsg) => m.die == die && m.q == q && !m.arrived) (fun m => { m with arrived := true }) d.starts }

/-- A bench's context starts a step: at its entry, j1 holding the step, from a command boundary; another context is switched
out first (R44, R57, R117, R320). One that has been killed, or whose restore kills it, does not start. -/
def Dev.startBench (d : Dev) (k : Nat) (x : Nat × Nat) (f : SwitchFind) : Dev :=
  let (b, n) := x
  let bn := d.bench b
  if (bn.ctxN n).killed then d
  else
    let d1 := if bn.runCtx != n && bn.switchTo.isNone && bn.ctx.valid then d.switchOut b n f.pe f.vp bn.plane.vl else d
    let (go, d2) := if bn.runCtx != n || bn.switchTo.isSome then d1.loadContext b n f.ls else (true, d1)
    if !go then d2
    else d2.modBench b fun y => ({ y with
      running := true, runCtx := n, switchTo := none, ended := false, pc := (bn.ctxN n).entry, wait := .none, jigSb := none
      jregs := y.jregs.set 1 (BitVec.ofNat 32 k) }).modCtx n fun c => { c with idle := false }

/-- The benches that a start message starts, with their contexts. -/
def Dev.startsOf (d : Dev) (m : StartMsg) : List (Nat × Nat) :=
  match d.launch m.q with
  | some l => (d.ctxsOf l.cur).filter fun x => dieOf x.1 == m.die
  | none => []

/-- A start message can be carried out: the die runs, its count has not passed the one named, and its benches are at rest. -/
def Dev.startable (d : Dev) (m : StartMsg) : Bool :=
  d.dieRuns m.die && decide (d.cycle m.die ≤ m.cycle) && (d.startsOf m).all fun x => (d.bench x.1).canTake x.2

/-- What a switch, seal or copy finds on a bench. -/
def findOn (fs : List (BenchIx × SwitchFind)) (b : Nat) : SwitchFind := ((fs.find? fun x => x.1.val == b).map (·.2)).getD {}

/-- At the named count, exactly, every bench of the step on a die starts (R155, R216). -/
def Dev.startNow (d : Dev) (m : StartMsg) (fs : List (BenchIx × SwitchFind)) : Dev :=
  let step := ((d.launch m.q).map fun (l : Launch) => l.step).getD 0
  let d1 := ({ d with starts := d.starts.erase m } : Dev).advanceTo m.die m.cycle
  ((d.startsOf m).foldl (fun d x => d.startBench step x (findOn fs x.1)) d1).modLaunch m.q fun l => { l with ranBack := l.ranBack || l.onBack }

def benchStartEffect (die q : Nat) (fs : List (BenchIx × SwitchFind)) (d : Dev) : Dev :=
  match d.starts.find? fun m => m.die == die && m.q == q && m.arrived with
  | none => d
  | some m => if d.startable m && !d.startsBefore die m.cycle then d.startNow m fs else d

/-- Move a die's count to `c10` tenths of a cycle; benches due to start on the way start at their counts, and the count does not pass a start
that cannot be carried out. -/
def Dev.runTo (d : Dev) (die c10 : Nat) : Dev :=
  let due (m : StartMsg) : Bool := m.die == die && decide (m.cycle * 10 ≤ c10)
  let d1 := (d.starts.filter due).foldl (fun d m => if d.startable m then d.startNow m [] else d) d
  if d1.starts.any fun m => due m && decide (d1.cycle die ≤ m.cycle) then d1 else d1.countTo die c10

/-- Every bench of the step has reached its boundary: the LAUNCH completes, its writes performed, or is at a preemption point (R293, R320,
R326, R332). -/
def launchStepEndEffect (q : Nat) (d : Dev) : Dev :=
  match d.launch q with
  | none => d
  | some l =>
    let cs := d.ctxsOf l.cur
    let last := decide (l.first + l.steps ≤ l.step + 1)
    if !l.running || l.killing.isSome || d.starts.any (·.q == q) || (last && !d.writesDone l) ||
      !cs.all (fun x => let c := (d.bench x.1).ctxN x.2; c.idle && !c.killed) then d
    else
      let l1 : Launch := { l with running := false, step := l.step + 1, arrived := [], lateDone := []
                                  main := if l.onBack then l.main else l.main + 1
                                  backs := if l.onBack then l.backs + 1 else l.backs }
      let d1 := d.modLaunch q fun _ => l1
      if last then d1.launchOver q 0 0 l1 else d1.preempt q

/-! ### Marks and the deadline monitor (R203, R334 to R336) -/

/-- A progress mark reaches the LAUNCH whose step runs on PROG. -/
def Dev.progressMark (d : Dev) (prog n : Nat) : Dev :=
  d.queues.keys.foldl (fun d q => match d.launch q with
    | some l => if l.running && !l.onBack && l.prog == prog && l.marks.any (·.1 == n) then
        d.modLaunch q fun x => { x with arrived := if x.arrived.contains n then x.arrived else x.arrived ++ [n] }
      else d
    | none => d) d

/-- MARK: on its REPORTER an entry's phase mark goes to the power manager and its progress mark to the deadline monitor; an
index beyond the table does nothing (R184, R203). -/
def markEffect (b : Nat) (f : Ecc) (d : Dev) : Dev :=
  d.jigIssue b f (majorOf · == 0x21) fun w d' =>
    let bn := d'.bench b
    let d1 := d'.modBench b (·.pcNext 4)
    some (match d1.slots.find? bn.ctx.prog with
      | none => d1
      | some s => match s.marks[fld w 15 6]? with
        | none => d1
        | some m =>
          if m.reporter ≠ bn.ctx.place then d1
          else
            let d2 : Dev := if m.kind % 2 = 1 then { d1 with phaseMarks := d1.phaseMarks ++ [(bn.ctx.prog, m.op)] } else d1
            if m.kind / 2 % 2 = 1 then d2.progressMark bn.ctx.prog m.progress else d2)

/-- The tick from which the marks of a LAUNCH's present step count: its start, or where it waits for benches, since when (R334, R336). -/
def Launch.stepFrom (l : Launch) : Option Nat := if l.running then some l.stepT else l.waitT

/-- The tick in which entry `m` of a queue's schedule becomes late (R335). -/
def Dev.markDue (d : Dev) (q m : Nat) : Option Nat :=
  (d.launch q).bind fun l => l.stepFrom.bind fun t => (l.marks[m]?).map fun e => t + e.2 + l.margin

/-- Entry `m` of the schedule is late (R335): 0x9104, and the first time with a BACKING a switch. -/
def progressMarkLateEffect (q m : Nat) (d : Dev) : Dev :=
  match d.launch q with
  | none => d
  | some l => match l.marks[m]?, d.markDue q m with
    | some e, some t =>
      if d.ticks < t || l.onBack || l.killing.isSome || l.switched || l.arrived.contains e.1 || l.lateDone.contains m then d
      else
        let d1 := ((d.cpCause q 0x9104 0 0).modLaunch q fun x => { x with lateDone := x.lateDone ++ [m] }).modCmd q fun c =>
          { c with fault := if c.fault = 0 then 0x9104 else c.fault }
        match l.back with
        | none => d1
        | some _ =>
          let d2 := (d1.count .cpDmSwitches [] 31 0).modLaunch q fun x => { x with switched := true }
          if l.lateMode = 0 then d2
          else (d2.killStep q 0x9104 l).modLaunch q fun x => { x with running := false, onBack := true, waitT := none }
    | _, _ => d

/-- The tick in which a queue's LAUNCH meets its DEADLINE (R336). -/
def Dev.deadlineDue (d : Dev) (q : Nat) : Option Nat :=
  (d.launch q).bind fun l => if l.deadline = 0 then none else some (l.began + l.deadline)

/-- DEADLINE has passed since the LAUNCH began (R336). -/
def deadlineExpiryEffect (q : Nat) (d : Dev) : Dev :=
  match d.launch q, d.deadlineDue q with
  | some l, some t => if l.killing.isSome || decide (d.ticks < t) then d else (d.cpCause q 0x9105 0 0).endLaunch q 0x21 0x9105
  | _, _ => d

/-! ### The watchdog of a firmware core (R337) -/

/-- A command is ended from outside with a status and a fault, once fabric operations it has outstanding are over. -/
def Dev.abortCmd (d : Dev) (q st f : Nat) : Dev :=
  match (d.queue q).run with
  | none => d
  | some c =>
    if c.fin.isSome then d
    else if c.launch.isSome then d.endLaunch q st f
    else if c.acks ≠ 0 then (d.giveUpRead q).modCmd q fun x => { x with bad := some (st, f, 0) }
    else (d.giveUpRead q).finish q st (if c.op = 0x20 ∨ c.op = 0x21 then c.off else 0) f

/-- Firmware core `k` restarts; it held the command of the queue given, if any (R337, R364). -/
def cpCoreWatchdogEffect (_k : Nat) (q : Option QueueIx) (d : Dev) : Dev :=
  q.toList.foldl (fun d q => d.abortCmd q 0x23 0x9106)
    (d.raise .cpErrStatus [] 5 { code := 0x9106, master := 0xF820, access := 0, addr := 0, inst := none, die := none })

/-! ### The commands -/

section
variable (q : QueueIx) (s : State)

def execLaunch := s.runLive fun d => (launchEffect q d).opUpdate
def execLaunchStepStart := s.runLive fun d => (launchStepStartEffect q d).opUpdate
def execLaunchStepEnd := s.runLive fun d => (launchStepEndEffect q d).opUpdate
def execOverrunRaise := s.runLive fun d => (overrunRaiseEffect q d).opUpdate
def execLaunchKill := s.runLive fun d => (launchKillEffect q d).opUpdate
def execStartMessage (die : DieIx) (q : QueueIx) (s : State) := s.runLive (startMessageEffect die q)
def execBenchStart (die : DieIx) (x : QueueFinds) (s : State) := s.runLive (benchStartEffect die x.q x.fs)
def execKillMessage (b : BenchIx) (s : State) := s.runLive fun d => (killMessageEffect b d).opUpdate
def execMark (b : BenchIx) (f : Ecc) (s : State) := s.runLive (markEffect b f)
def execCpCoreWatchdog (k : Fin 4) (q : Option QueueIx) (s : State) := s.runLive fun d => (cpCoreWatchdogEffect k q d).opUpdate
end

end Sys2Proof.Machine
end

