-- ==== Sys2Proof/Machine/CpQuiesce.lean ====
section
/-! DEFINITION. SEAL, QUIESCE and RESUME (R326, R327), and the expiry of CP_QUIESCE_TMO. -/

namespace Sys2Proof.Machine

/-! ### What QUIESCE deals with -/

/-- The queues of an instance that QUIESCE stops, in ascending order. -/
def Dev.quiesceQueues (d : Dev) (inst : Nat) : List Nat := (d.queuesOf inst).filter fun q => !d.queueMgr q

/-- The resident contexts of an instance, as bench and number, in ascending order. -/
def Dev.instCtxs (d : Dev) (inst : Nat) : List (Nat × Nat) :=
  d.benches.keys.flatMap fun b => (List.range 4).filterMap fun n =>
    let c := (d.bench b).ctxN n
    if c.valid && c.prog / 16 == inst then some (b, n) else none

/-- A queue whose LAUNCH stands between two of its steps (R326). -/
def Dev.launchHeld (d : Dev) (q : Nat) : Bool :=
  match d.launch q with
  | some l => l.atPoint
  | none => false

/-! ### SEAL (R109, R326) -/

/-- A context is the one loaded on its bench, at rest. -/
def Bench.loaded (bn : Bench) (n : Nat) : Bool := bn.runCtx == n && bn.switchTo.isNone && !bn.running

/-- Seal a context: one that is switched out has been sealed already, and one without a save area has nowhere to be sealed to. A live set
with a parity error kills it (R109, R112). -/
def Dev.sealCtx (fs : List (BenchIx × SwitchFind)) (d : Dev) (x : Nat × Nat) : Dev :=
  let bn := d.bench x.1
  if !bn.loaded x.2 || !(bn.ctxN x.2).save then d
  else match d.sealParity x.1 ((findOn fs x.1).pe.map fun o => o.val) with
    | some d1 => d1
    | none => d.modBench x.1 (·.sealSets)

/-- A context holds a live glue-up set on its bench. -/
def Dev.ctxLive (d : Dev) (x : Nat × Nat) : Bool :=
  let bn := d.bench x.1
  bn.loaded x.2 && (bn.mortise.setA.live || bn.mortise.setB.live)

/-- A LAUNCH of a program runs: it holds its benches, or its contexts are being killed. One that only waits for benches does not (DESIGN CHOICE,
log 77). -/
def Dev.progRuns (d : Dev) (prog : Nat) : Bool :=
  (d.queuesOf (prog / 16)).any fun q => match d.launch q with
    | some l => (l.prog == prog || l.back == some prog) && (l.running || l.owns || l.killing.isSome)
    | none => false

def sealEffect (q : Nat) (fs : List (BenchIx × SwitchFind)) (d : Dev) : Dev :=
  d.withCmd q 0x50 fun c =>
    let prog := 16 * d.queueInst q + c.n 8 1
    if d.progRuns prog then d.finish q 7 0
    else if !d.slots.has prog then d.finish q 4 0
    else (((d.ctxsOf prog).filter d.ctxLive).foldl (Dev.sealCtx fs) d).finish q 0 0

/-! ### The record (R327) -/

/-- MRT_CTXSTn of a context (R113). -/
def BenchCtx.ctxst (c : BenchCtx) : Nat :=
  let m := if c.chain then c.chainM - 1 else 0
  let n := if c.chain then c.chainN - 1 else 0
  b2n c.liveA + 2 * b2n c.liveB + 4 * b2n c.chain + 8 * b2n (c.chain && c.chainStream) + 16 * b2n c.nextSet + 128 * m + 4096 * n

/-- A context's state as MRT_CTXSTn holds it (R111). -/
def BenchCtx.setCtxst (c : BenchCtx) (v : Nat) : BenchCtx :=
  let chain := v.testBit 2
  { c with
    liveA := v.testBit 0, liveB := v.testBit 1, chain := chain, chainStream := chain && v.testBit 3, nextSet := v.testBit 4
    chainM := if chain then nfld v 11 7 + 1 else 0
    chainN := if chain then nfld v 16 12 + 1 else 0 }

/-- The next step of a LAUNCH held between steps. -/
def Dev.nextStep (d : Dev) (q : Nat) : Nat :=
  match d.launch q with
  | some l => l.step
  | none => 0xFFFFFFFF

def Dev.queueEntry (d : Dev) (q : Nat) : List Byte :=
  leBytes q 4 ++ leBytes (d.cqHead q) 4 ++ leBytes (d.queueDone q) 4 ++ leBytes (d.nextStep q) 4

def Dev.ctxEntry (d : Dev) (x : Nat × Nat) : List Byte :=
  let c := (d.bench x.1).ctxN x.2
  leBytes x.1 2 ++ leBytes x.2 1 ++ leBytes (c.prog % 16) 1 ++ leBytes c.srSeed.toNat 4 ++ leBytes c.srTile.toNat 4 ++ leBytes c.ctxst 4

/-- The whole partition of a context. -/
def Dev.ctxPart (d : Dev) (x : Nat × Nat) : List Byte :=
  let bn := d.bench x.1
  let c := bn.ctxN x.2
  bn.tile.readBytes c.base (c.partSize * 65536)

def Dev.quiesceRecord (d : Dev) (inst : Nat) (dump : Bool) : List Byte :=
  let qs := d.quiesceQueues inst
  let cs := d.instCtxs inst
  leBytes inst 1 ++ leBytes (b2n dump) 1 ++ leBytes qs.length 2 ++ leBytes cs.length 4 ++ leBytes d.time 8 ++ leBytes 0 48 ++
    qs.flatMap d.queueEntry ++ cs.flatMap d.ctxEntry ++ (if dump then cs.flatMap d.ctxPart else [])

def Dev.quiesceSize (d : Dev) (inst : Nat) (dump : Bool) : Nat :=
  64 + 16 * (d.quiesceQueues inst).length + 16 * (d.instCtxs inst).length +
    (if dump then ((d.instCtxs inst).map fun x => ((d.bench x.1).ctxN x.2).partSize * 65536).sum else 0)

/-! ### QUIESCE (R326) -/

/-- SECDED as a context's partition is copied for a record (R42, R327); a finding outside it is none. -/
def Dev.dumpEcc (fs : List (BenchIx × SwitchFind)) (d : Dev) (x : Nat × Nat) : Dev :=
  let c := (d.bench x.1).ctxN x.2
  let e := (findOn fs x.1).ls
  if c.base ≤ e.off ∧ e.off < c.base + c.partSize * 65536 then (d.tileEcc x.1 e.off 0x68 e.e).2 else d

/-- Every queue is idle or has its LAUNCH held: the contexts are sealed and the record is written. -/
def Dev.quiesceDone (d : Dev) (q inst size : Nat) (dump : Bool) (space a : Nat) (fs : List (BenchIx × SwitchFind)) : Dev :=
  let d0 := (d.instCtxs inst).foldl (Dev.sealCtx fs) d
  let d1 := if dump then (d.instCtxs inst).foldl (Dev.dumpEcc fs) d0 else d0
  let bs := d1.quiesceRecord inst dump
  let mark (x : Dev) : Dev := { x with quiesced := if x.quiesced.contains inst then x.quiesced else x.quiesced ++ [inst] }
  if space = 1 then ((mark d1).hostWrite (d.queueFn q) a bs false).finish q 0 size
  else match d1.cpWriteAll (d.queueWho q) q a bs with
    | none => d.fillWaits 0 a bs.length
    | some d2 => (mark d2).finish q 0 size

def quiesceEffect (q : Nat) (fs : List (BenchIx × SwitchFind)) (d : Dev) : Dev :=
  d.withCmd q 0x51 fun c =>
    let inst := c.n 8 1
    let dump := c.n 9 1 == 1
    let size := d.quiesceSize inst dump
    if c.phase = 0 then
      if c.n 0x18 8 < size then d.finish q 5 size
      else if c.n 0xA 1 = 0 ∧ !d.mapped (d.queueWho q) true (c.n 0x10 8) size then d.finish q 2 0
      else ((d.quiesceQueues inst).foldl (fun d r => d.setRegBit .cpQstate [r] 2) d).modCmd q fun x => { x with phase := 1, off := d.ticks }
    else if (d.quiesceQueues inst).all fun r => d.queueIdle r || d.launchHeld r then
      d.quiesceDone q inst size dump (c.n 0xA 1) (c.n 0x10 8) fs
    else d

/-- The tick in which a QUIESCE that waits has done so for CP_QUIESCE_TMO. -/
def Dev.quiesceDue (d : Dev) (q : Nat) : Option Nat :=
  (d.queue q).run.bind fun c => if c.op = 0x51 ∧ c.phase = 1 then some (c.off + d.ticksOf .cpQuiesceTmo) else none

/-- CP_QUIESCE_TMO has passed: what still runs has its contexts killed and completes with ABORTED. -/
def quiesceTimeoutEffect (q : Nat) (d : Dev) : Dev :=
  d.withCmd q 0x51 fun c =>
    if (d.quiesceDue q).any (d.ticks < ·) || c.phase != 1 then d
    else ((d.quiesceQueues (c.n 8 1)).filter fun r => !(d.queueIdle r || d.launchHeld r)).foldl (fun d r => d.abortCmd r 0x22 0) d

/-! ### RESUME (R326) -/

/-- The context entries of a record stand for exactly the resident contexts, in order. -/
def Dev.recordMatches (d : Dev) (inst : Nat) (recd : List Byte) : Bool :=
  let nq := leNat ((recd.drop 2).take 2)
  let nc := leNat ((recd.drop 4).take 4)
  let cs := d.instCtxs inst
  nc == cs.length && cs.zipIdx.all fun x =>
    let o := 64 + 16 * nq + 16 * x.2
    leNat ((recd.drop o).take 2) == x.1.1 && leNat ((recd.drop (o + 2)).take 1) == x.1.2 &&
      leNat ((recd.drop (o + 3)).take 1) == ((d.bench x.1.1).ctxN x.1.2).prog % 16

/-- A context's entry is written back; the sets of the one loaded on its bench come back from its save area (R110, R111). -/
def Dev.resumeCtx (d : Dev) (x : Nat × Nat) (e part : List Byte) : Dev :=
  d.modBench x.1 fun bn =>
    let c := bn.ctxN x.2
    let bn1 : Bench := if part.isEmpty then bn else { bn with tile := bn.tile.writeBytes c.base part }
    let bn2 := bn1.modCtx x.2 fun c =>
      ({ c with srSeed := BitVec.ofNat 32 (leNat ((e.drop 4).take 4)), srTile := BitVec.ofNat 32 (leNat ((e.drop 8).take 4)) } : BenchCtx).setCtxst
        (leNat ((e.drop 12).take 4))
    if bn2.loaded x.2 && c.save then bn2.restoreSets x.2 else bn2

/-- Every context in order, its partition following those before it. -/
def Dev.resumeCtxs (recd : List Byte) : Dev → Nat → Nat → List (Nat × Nat) → Dev
  | d, _, _, [] => d
  | d, o, po, x :: xs =>
    let n := if recd.getD 1 0 = 1 then ((d.bench x.1).ctxN x.2).partSize * 65536 else 0
    Dev.resumeCtxs recd (d.resumeCtx x ((recd.drop o).take 16) ((recd.drop po).take n)) (o + 16) (po + n) xs

/-- A queue's entry is written back: a stopped LAUNCH goes on at its next step, and one that the queue no longer holds is fetched
again to do so. -/
def Dev.resumeQueue (d : Dev) (inst : Nat) (e : List Byte) : Dev :=
  let q := leNat (e.take 2)
  let hd := leNat ((e.drop 4).take 4) % 2 ^ 23
  let dn := leNat ((e.drop 8).take 4) % 2 ^ 23
  let k := leNat ((e.drop 12).take 4)
  if !(d.quiesceQueues inst).contains q then d
  else
    let d1 := (d.setRegFld .cpQhead [q] 22 0 hd).setRegFld .cpQdone [q] 22 0 dn
    if k = 0xFFFFFFFF then d1
    else if (d.launch q).isSome then d1.modLaunch q fun l => { l with step := k }
    else (d1.setRegFld .cpQhead [q] 22 0 dn).modQueue q fun x => { x with resumeAt := some k }

/-- The record is there: it is checked, and everything is written back. -/
def Dev.resumeAll (d : Dev) (q inst : Nat) (recd : List Byte) : Dev :=
  if !d.recordMatches inst recd then d.finish q 8 0
  else
    let nq := leNat ((recd.drop 2).take 2)
    let nc := leNat ((recd.drop 4).take 4)
    let d1 := Dev.resumeCtxs recd d (64 + 16 * nq) (64 + 16 * nq + 16 * nc) (d.instCtxs inst)
    let d2 := (List.range nq).foldl (fun d i => d.resumeQueue inst ((recd.drop (64 + 16 * i)).take 16)) d1
    let d3 := (d2.quiesceQueues inst).foldl (fun d r => d.clrRegBit .cpQstate [r] 2) d2
    ({ d3 with quiesced := d3.quiesced.filter (· != inst) } : Dev).finish q 0 0

/-- How many bytes of a record there are to gather: its header tells, and partitions only for contexts that match. -/
def Dev.recordNeed (d : Dev) (inst : Nat) (got : List Byte) : Nat :=
  let nq := leNat ((got.drop 2).take 2)
  let nc := leNat ((got.drop 4).take 4)
  let cs := d.instCtxs inst
  if got.length < 64 ∨ nc ≠ cs.length then 64
  else
    let n := 64 + 16 * nq + 16 * nc
    if got.length < n then n
    else if got.getD 1 0 = 1 ∧ d.recordMatches inst got then n + (cs.map fun x => ((d.bench x.1).ctxN x.2).partSize * 65536).sum
    else n

/-- Gather a record part by part. -/
def Dev.gatherRecord (q inst space a : Nat) : Nat → Dev → Dev
  | 0, d => d
  | f + 1, d => match (d.queue q).run with
    | none => d
    | some c =>
      let need := d.recordNeed inst c.got
      if need ≤ c.got.length then d.resumeAll q inst c.got
      else if space = 0 ∧ !d.mapped (d.queueWho q) false a need then d.finish q 2 0
      else match d.cpGather q c space a need with
        | (d1, false) => d1
        | (d1, true) => Dev.gatherRecord q inst space a f d1

def resumeEffect (q : Nat) (d : Dev) : Dev :=
  d.withCmd q 0x52 fun c => Dev.gatherRecord q (c.n 8 1) (c.n 0xA 1) (c.n 0x10 8) 4 d

/-! ### The commands -/

section
variable (q : QueueIx) (s : State)

def execSeal (x : QueueFinds) (s : State) := s.runLive (sealEffect x.q x.fs)
def execQuiesce (x : QueueFinds) (s : State) := s.runLive (quiesceEffect x.q x.fs)
def execResume := s.runLive (resumeEffect q)
end

end Sys2Proof.Machine
end

