-- ==== Sys2Proof/Machine/Drawers.lean ====
section
/-! DEFINITION. Drawers (R358 to R360), instance resets (R361, R362), and what of SR-IOV and function level reset starts them (R343 to
R345). -/

namespace Sys2Proof.Machine

/-! ### Rings (R359) -/

def drwTail (up : Bool) : RegName := if up then .drwUpTail else .drwDnTail
def drwHead (up : Bool) : RegName := if up then .drwUpHead else .drwDnHead
def drwSlot (up : Bool) : RegName := if up then .drwUpSlot else .drwDnSlot

def Dev.ringTail (d : Dev) (k : Nat) (up : Bool) : Nat := d.regFld (drwTail up) [k] 4 0
def Dev.ringHead (d : Dev) (k : Nat) (up : Bool) : Nat := d.regFld (drwHead up) [k] 4 0
/-- Messages in a ring whose indices are given. -/
def ringCount (tail head : Nat) : Nat := (tail + 32 - head) % 32

/-- A cause of the drawers (R365); `bit` is its place in DRW_ERR_STATUS of drawer `k`. -/
def Dev.drwCause (d : Dev) (k code bit addr : Nat) : Dev :=
  d.raise .drwErrStatus [k] bit { code := code, master := 0xF848, access := 0x80, addr := addr, inst := some k, die := none }

/-- The vector of a direction's consumer: the instance for the down direction, the manager for the up direction. -/
def Dev.ringSignal (d : Dev) (k : Nat) (toManager : Bool) : Dev := if toManager then d.msixEvent 0 (1 + k) else d.msixEvent (k + 1) 1

/-- The producer writes TAIL. -/
def Dev.tailWrite (d : Dev) (k : Nat) (up : Bool) (v : Nat) : Dev :=
  if 16 < ringCount v (d.ringHead k up) then d.drwCause k 0x9301 0 ((drwTail up).addr [k])
  else (d.setRegFld (drwTail up) [k] 4 0 v).ringSignal k up

/-- The consumer writes HEAD; freeing a slot of a full ring sends the producer's vector. -/
def Dev.headWrite (d : Dev) (k : Nat) (up : Bool) (v : Nat) : Dev :=
  let n := ringCount (d.ringTail k up) (d.ringHead k up)
  if n < ringCount v (d.ringHead k up) then d.drwCause k 0x9301 0 ((drwHead up).addr [k])
  else
    let d1 := d.setRegFld (drwHead up) [k] 4 0 v
    if n = 16 ∧ ringCount v (d.ringHead k up) ≠ 0 then d1.ringSignal k (!up) else d1

/-- The consumer holds a slot. -/
def Dev.slotHeld (d : Dev) (k : Nat) (up : Bool) (i : Nat) : Bool :=
  let hd := d.ringHead k up
  (List.range (ringCount (d.ringTail k up) hd)).any fun j => (hd + j) % 16 == i

/-- The producer writes word `w` of slot `i`. -/
def Dev.slotWrite (d : Dev) (k : Nat) (up : Bool) (i w : Nat) (v : W32) : Dev :=
  if d.slotHeld k up i then d.drwCause k 0x9302 1 ((drwSlot up).addr [k, i, w]) else d.setReg (drwSlot up) [k, i, w] v

def drawerTailWriteEffect (k : Nat) (up : Bool) (v : Nat) (d : Dev) : Dev := d.tailWrite k up v
def drawerHeadWriteEffect (k : Nat) (up : Bool) (v : Nat) (d : Dev) : Dev := d.headWrite k up v
def drawerSlotWriteEffect (k : Nat) (up : Bool) (i w : Nat) (v : W32) (d : Dev) : Dev := d.slotWrite k up i w v

/-! ### Instance reset (R361, R362) -/

/-- Queues of an instance other than manager queues. -/
def Dev.ownQueues (d : Dev) (k : Nat) : List Nat := (d.queuesOf k).filter fun q => !d.queueMgr q

/-- Registers of a queue's block (R338). -/
def queueReg (q a : Nat) : Bool :=
  ([.cpQbaseLo, .cpQbaseHi, .cpQcfg, .cpQtail, .cpQhead, .cpQdone, .cpQcbaseLo, .cpQcbaseHi, .cpQstate, .cpQbudget] : List RegName).any fun r => r.addr [q] == a

/-- What the fabric still does for the commands of a queue is nobody's from now on (R362). -/
def FabOwner.without (q : Nat) : FabOwner → FabOwner
  | .queue p s => if p = q then .none else .queue p s
  | o => o
def Stream.without (q : Nat) (s : Stream) : Stream :=
  let f := List.map fun x : SentFrame => { x with owner := x.owner.without q }
  { s with unacked := f s.unacked, backlog := f s.backlog }
def Dev.fabWithout (d : Dev) (q : Nat) : Dev :=
  { d with
    peers := d.peers.mapVals fun _ x => { x with bulk := x.bulk.without q, clamp := x.clamp.without q }
    fabReads := d.fabReads.mapVals fun _ r => { r with owner := r.owner.without q } }

/-- A queue as it is after a reset: nothing fetched or running, every register at its reset value. -/
def Dev.queueReset (d : Dev) (q : Nat) : Dev :=
  let d1 := (d.giveUpRead q).fabWithout q
  ({ d1 with
    queues := d.queues.erase q
    starts := d.starts.filter (·.q != q)
    kills := d.kills.filter (·.q != q) } : Dev).resetRegs (queueReg q)

/-- A clamp ID of the instance is clear: its registers, its broadcasts and its shadows. -/
def Dev.clampClear (d : Dev) (i : Nat) : Dev :=
  { (d.setReg .clpIdcfg [i] 0).setReg .clpIdval [i] 0 with
    clampDown := d.clampDown.filter (·.id != i)
    net := d.net.filter fun (m : Msg) => !(m.kind == MsgKind.clampUp && m.v0 == i)
    benches := d.benches.mapVals fun _ b => { b with shadow := b.shadow.erase i } }

/-- A shelf and a reduction window of the instance are clear (R274). -/
def Dev.shelfClear (d : Dev) (k i : Nat) : Dev :=
  (((d.setReg .ucShBase [k, i] 0).setReg .ucShSize [k, i] 0).setReg .ucShCfg [k, i] 0).sweep (32 * k + i)
def Dev.redClear (d : Dev) (k i : Nat) : Dev := ((d.setReg .ucRwBase [k, i] 0).setReg .ucRwSize [k, i] 0).setReg .ucRwCfg [k, i] 0

/-- The open book-match windows of an instance, those with a commit, a restore or an open in progress apart. -/
def Dev.mirOpenOf (d : Dev) (k : Nat) (busy : Bool) : List Nat :=
  d.mirrors.keys.filter fun w => w / 64 == k && d.mirState w != 0 && (d.mirState w == 1 || d.mirState w == 3 || d.mirState w == 4) == busy

/-- The rings are empty, the down notices and their pending bits clear (R362). -/
def Dev.drawerClear (d : Dev) (k : Nat) : Dev :=
  let d1 := ((((d.setReg .drwDnTail [k] 0).setReg .drwDnHead [k] 0).setReg .drwUpTail [k] 0).setReg .drwUpHead [k] 0).setReg .drwDnPend [k] 0
  (List.range 3).foldl (fun d t => (List.range 16).foldl (fun d w => d.setReg .drwDnNotice [k, t, w] 0) d) d1

/-- What an instance reset does (R362): contexts, commands and program slots, queue registers, clamp IDs, shelves and reduction
windows, book-match windows, drawer, fault view, quiesced state; the grants of operating points follow the LAUNCHes it ends (R434). -/
def Dev.instReset (d : Dev) (k : Nat) : Dev :=
  let d1 := (List.range 16).foldl (fun d s => d.dropProgram (16 * k + s)) d
  let d2 : Dev := { d1 with slots := d1.slots.filter fun p _ => p / 16 != k, quiesced := d1.quiesced.filter (· != k) }
  let d3 := (d2.ownQueues k).foldl Dev.queueReset d2
  let per := 256 / d.instN
  let d4 := (List.range per).foldl (fun d i => d.clampClear (k * per + i)) d3
  let d5 := (List.range 32).foldl (fun d i => d.shelfClear k i) d4
  let d6 := (List.range 8).foldl (fun d i => d.redClear k i) d5
  let d7 := (d6.mirOpenOf k false).foldl Dev.mirClose d6
  let d8 := fcClasses.foldl (fun d c => d.fcZero (.view k) c) (d7.drawerClear k)
  ((d8.setRegBit .drwInstStatus [k] 0).setRegBit .drwInstCtl [k] 0).opUpdate

def Dev.instBusyReset (d : Dev) (k : Nat) : Bool := d.regBit .drwInstStatus [k] 0

/-- A queue of the instance has CP_QSTATE.IDLE clear (R361). -/
def Dev.instWork (d : Dev) (k : Nat) : Bool := (d.ownQueues k).any fun q => !d.queueIdle q

/-- A reset that proceeds whatever is in flight; one that runs already is not started again. -/
def Dev.instForce (d : Dev) (k : Nat) : Dev := if d.instN ≤ k || d.instBusyReset k then d else d.instReset k

/-- A manager's write of DRW_INST_CTL with RESET (R361). -/
def Dev.instCtl (d : Dev) (k : Nat) (force : Bool) : Dev :=
  if d.instN ≤ k || d.instBusyReset k then d
  else if d.instWork k && !d.quiesced.contains k && !force then
    (d.setRegBit .drwInstStatus [k] 1).drwCause k 0x9303 2 (RegName.drwInstCtl.addr [k])
  else d.instReset k

def instanceResetEffect (k : Nat) (force : Bool) (d : Dev) : Dev := d.instCtl k force

/-- An instance reset ends, once no book-match window of the instance has a commit, open or restore in progress (R362, R413). -/
def instanceResetDoneEffect (k : Nat) (d : Dev) : Dev :=
  if !d.instBusyReset k || !(d.mirOpenOf k true).isEmpty then d
  else
    let d1 := (d.mirOpenOf k false).foldl Dev.mirClose d
    let d2 := ((d1.clrRegBit .drwInstStatus [k] 0).clrRegBit .drwInstCtl [k] 0).count .drwInstStatus [k] 31 16
    (d2.modFn (k + 1) fun f => { f with flr := false }).notice false k 2 0 0 0

/-! ### SR-IOV and function level reset (R343 to R345) -/

/-- The steps of R345 for an instance up to its hold, which lasts HST_FLR_HOLD (R352); requests of the function that wait are discarded. -/
def Dev.vfFlr (d : Dev) (k : Nat) : Dev :=
  ({ d with hostWait := d.hostWait.filter (·.fn != k + 1) }.modFn (k + 1) fun f => { f with flr := true, flrEnd := d.ticks + min 0x2625A0 (d.reg .hstFlrHold []).toNat }).notice true k 0 0 0 0

def vfEnableSetEffect (d : Dev) : Dev := { d with vfEnable := true }

/-- Clearing VF Enable resets every instance whose virtual function was enabled (R344). -/
def Dev.vfClear (d : Dev) : Dev :=
  let ks := (List.range 8).filter d.vfOn
  ks.foldl Dev.vfFlr { d with vfEnable := false }

def vfEnableClearEffect (d : Dev) : Dev := d.vfClear
def numvfsWriteEffect (v : Nat) (d : Dev) : Dev := if d.vfEnable then d else { d with numVfs := min v d.instN }

/-- Function level reset of virtual function `k` + 1. -/
def vfFlrEffect (k : Nat) (d : Dev) : Dev := if d.vfOn k && !(d.fn (k + 1)).flr then d.vfFlr k else d

/-- The tick in which the hold of an FLR in progress ends: at once with no command running (R345). -/
def Dev.flrDue (d : Dev) (k : Nat) : Option Nat :=
  if (d.fn (k + 1)).flr then some (if d.instWork k then (d.fn (k + 1)).flrEnd else d.ticks) else none

/-- The hold of an FLR has ended: the instance reset starts. -/
def flrHoldExpiryEffect (k : Nat) (d : Dev) : Dev := if (d.flrDue k).all (d.ticks < ·) then d else d.instForce k

/-- Function level reset of the physical function, whose capabilities hold the BARs and Memory Space Enable of the virtual functions (R341,
R343). -/
def pfFlrEffect (d : Dev) : Dev :=
  let d1 := (((List.range 512).filter fun q => d.queueMgr q).foldl Dev.queueOff d).vfClear
  let d2 : Dev := { d1 with
    numVfs := 0
    heldMsgs := d1.heldMsgs.filter (·.1 != 0)
    hostWait := d1.hostWait.filter (·.fn != 0)
    msix := d1.msix.filter fun k _ => 2048 ≤ k }
  (List.range 8).foldl (fun d k => d.modFn (k + 1) fun x => { x with bar2 := 10, memEn := false, bar0 := 0, bar2Base := 0 }) (d2.setFn 0 {})

/-! ### The commands -/

section
variable (k : Fin 8) (up : Bool) (s : State)

def execDrawerTailWrite (v : Fin 32) (s : State) := s.runLive (drawerTailWriteEffect k up v)
def execDrawerHeadWrite (v : Fin 32) (s : State) := s.runLive (drawerHeadWriteEffect k up v)
def execDrawerSlotWrite (i w : Fin 16) (v : W32) (s : State) := s.runLive (drawerSlotWriteEffect k up i w v)
def execInstanceReset (force : Bool) (s : State) := s.runLive (instanceResetEffect k force)
def execInstanceResetDone := s.runLive (instanceResetDoneEffect k)
def execVfEnableSet := s.runLive vfEnableSetEffect
def execVfEnableClear := s.runLive vfEnableClearEffect
def execNumvfsWrite (v : BitVec 16) (s : State) := s.runLive (numvfsWriteEffect v.toNat)
def execVfFlr := s.runLive (vfFlrEffect k)
def execPfFlr := s.runLive pfFlrEffect
end

end Sys2Proof.Machine
end

