-- ==== Sys2Proof/Machine/FabFrames.lean ====
section
/-! DEFINITION. Frames that arrive (R377 to R381, R383, R386, R388, R416): the checks on arrival, the sequence check, and what each opcode
does at its target or requester. -/

namespace Sys2Proof.Machine

/-! ### Checks on arrival (R377, R382) -/

/-- Opcodes that only a peer with SYSTEM set may use (R374). -/
def systemOnly (op : Nat) : Bool := op ∈ [0x04, 0x05, 0x06, 0x08, 0x20, 0x21]

/-- A frame is dropped with cause 0x6203. -/
def Dev.frameDrop (d : Dev) (p : Nat) (f : Frame) : Dev := d.fabCause (d.instOfPort p) f.src 0x6203 8 0x70 0

/-- The checks that follow link retry: the peer entry of the source, if the frame passes them. -/
def Dev.frameChecks (d : Dev) (p : Nat) (find : FrameFind) (f : Frame) : Dev × Option Nat :=
  let inst := d.instOfPort p
  if find = .version then (d.frameDrop p f, none)
  else if !d.regBit .fabDevid [inst] 31 || f.dst != d.ownId inst then (d.frameDrop p f, none)
  else match d.findPeer inst f.src with
    | none => (d.frameDrop p f, none)
    | some i =>
      if systemOnly f.op && !d.peerSystem i then (d.frameDrop p f, none)
      else if find = .crc then (d.frameDrop p f, none)
      else (d, some i)

/-- Where a received LSEQ stands on a link-retry port: 0 next in order, 1 a repetition, 2 a gap. -/
def lseqOrder (exp l : Nat) : Nat := if l % 256 = exp then 0 else if (exp + 256 - l % 256) % 256 < 128 then 1 else 2

/-- A frame arrives on a port: the source's peer entry if it is to be acted on. LACK and LNAK carry no sequence of their own. -/
def Dev.frameIn (d : Dev) (p : Nat) (find : FrameFind) (f : Frame) : Dev × Option Nat :=
  let x := d.port p
  if x.st ≠ 3 then (d, none)
  else match find with
    | .fec => (((d.portCause p 0x6105 4).count .fabCeCount [] 31 16).sendLnak p, none)
    | .fcs => (d.sendLnak p, none)
    | .etype => (d, none)
    | _ =>
      if !x.direct || f.op = 0x33 || f.op = 0x34 then d.frameChecks p find f
      else match lseqOrder x.lseqExp f.lseq with
        | 0 => ((d.setPort p { x with lseqExp := (x.lseqExp + 1) % 256 }).sendLack p).frameChecks p find f
        | 1 => (d.sendLack p, none)
        | _ => (d.sendLnak p, none)

/-- A sequenced frame from peer `i` (R383): in order it is accepted and performed, and then its acknowledgement counts; a
repetition is discarded and acknowledged again; one beyond is dropped with a NAK. While it cannot be performed yet, it has not
been received. -/
def Dev.seqIn (d : Dev) (i : Nat) (f : Frame) (perform : Dev → Option Dev) : Option Dev :=
  let c := clampStream f.op
  let s := (d.peer i).stream c
  if f.seq = s.expected then
    let d1 := d.modPeer i fun p => p.setStream c { s with expected := (s.expected + 1) % 2 ^ 32, ackDue := true, ackAt := if s.ackDue then s.ackAt else d.ticks }
    (perform d1).map fun d2 => d2.ackTo i c f.ack
  else if seqLe f.seq s.expected then some ((d.ackTo i c f.ack).sendAck i c)
  else some (d.sendNak i c)

/-- The read that an answer belongs to. -/
def Dev.readOf (d : Dev) (i tag : Nat) : Option FabRead :=
  match d.fabReads.find? tag with
  | some r => if r.peer = i then some r else none
  | none => none

/-- A frame that cannot be performed yet waits for device memory: at its own address, or where a read of the mirror engine goes (R269). -/
def Dev.frameWait (d : Dev) (i : Nat) (f : Frame) : Dev :=
  if f.op = 0x03 then
    match d.readOf i f.tag with
    | some r => match r.owner with
      | .mirror w => d.mirWaits w
      | _ => d
    | none => d
  else d.fillWaits (9 + i % 16) (nfld f.laddr 39 0) (max f.len f.data.length)

/-- A sequenced frame arrives on a port. -/
def Dev.frameSeq (d : Dev) (p : Nat) (find : FrameFind) (f : Frame) (perform : Nat → Dev → Option Dev) : Dev :=
  match d.frameIn p find f with
  | (d1, none) => d1
  | (d1, some i) => (d1.seqIn i f (perform i)).getD (d.frameWait i f)

/-- A frame that no sequence protects arrives on a port. -/
def Dev.framePlain (d : Dev) (p : Nat) (find : FrameFind) (f : Frame) (act : Nat → Dev → Dev) : Dev :=
  match d.frameIn p find f with
  | (d1, none) => d1
  | (d1, some i) => act i d1

/-! ### Refusals (R379) -/

/-- The target refuses a request: REFUSED takes the place of its acknowledgement. -/
def Dev.refuseFrame (d : Dev) (i : Nat) (f : Frame) (st : Nat) : Dev :=
  let inst := d.instOfPeer i
  let a := nfld f.laddr 39 0
  let d1 :=
    if st = 1 then d.report { code := 0x3101, master := fabMaster f.src, access := 0x70, addr := a, inst := some inst, die := none }
    else d.fabCause inst f.src 0x6202 7 0x70 a
  d1.sendSeq i { op := 0x07, src := d.ownId inst, dst := f.src, laddr := f.seq, tag := st } .none (some f.seq)

/-- What refuses an access of a target range: unmapped, or read-only for a write. -/
def Dev.targetRefusal (d : Dev) (i : Nat) (f : Frame) (wr : Bool) (n : Nat) : Option Nat :=
  let who : Who := .inst (d.instOfPeer i)
  let a := nfld f.laddr 39 0
  if !d.mapped who false a n then some 1 else if wr && !d.mapped who true a n then some 2 else none

/-! ### WRITE, READ_REQ, RED, ATOMIC at the target (R378, R380, R381) -/

/-- A write to a line whose home is fenced is discarded (R249). -/
def Dev.fabHomeLost (d : Dev) (die a : Nat) : Dev :=
  d.raise .datErrStatus [die] 7 { code := 0x5108, master := 0xF850 + die, access := 0x70, addr := a, inst := none, die := none }

/-- Write bytes at their home slices, line by line; `poison` stores them poisoned. None while a line is busy. -/
def Dev.fabPut (who : Who) (poison : Bool) : Nat → Dev → Nat → List Byte → Option Dev
  | 0, d, _, _ => some d
  | f + 1, d, a, bs =>
    match bs with
    | [] => some d
    | _ =>
      let k := min bs.length (128 - a % 128)
      match d.access who a with
      | none => Dev.fabPut who poison f d (a + k) (bs.drop k)
      | some l => match d.cohWrite l a (linePut (a % 128) (bs.take k)) (beRange (a % 128) k) poison with
        | .wait => none
        | .lost => Dev.fabPut who poison f (d.fabHomeLost l.die a) (a + k) (bs.drop k)
        | .ok d1 _ _ => Dev.fabPut who poison f d1 (a + k) (bs.drop k)

/-- WRITE. -/
def Dev.writeFrame (f : Frame) (i : Nat) (d : Dev) : Option Dev :=
  match d.targetRefusal i f true f.data.length with
  | some st => some (d.refuseFrame i f st)
  | none => Dev.fabPut (.inst (d.instOfPeer i)) f.poison (lineBound f.data.length) d (nfld f.laddr 39 0) f.data

/-- A run of bytes that is answered in one frame: where it starts, its bytes, whether it is a poisoned line. -/
structure RspRun where
  off : Nat
  data : List Byte
  poison : Bool
deriving DecidableEq, Repr

/-- Read a range line by line, poisoned lines in runs of their own (R380). -/
def Dev.fabGet (who : Who) : Nat → Dev → Nat → Nat → Nat → List RspRun → Option (Dev × List RspRun)
  | 0, d, _, _, _, rs => some (d, rs)
  | fuel + 1, d, a, off, n, rs =>
    if n = 0 then some (d, rs)
    else
      let k := min n (128 - a % 128)
      let put (bs : List Byte) (bad : Bool) : List RspRun :=
        match rs.getLast? with
        | some r => if !bad && !r.poison then rs.dropLast ++ [{ r with data := r.data ++ bs }] else rs ++ [⟨off, bs, bad⟩]
        | none => [⟨off, bs, bad⟩]
      match d.access who a with
      | none => Dev.fabGet who fuel d (a + k) (off + k) (n - k) rs
      | some l => match d.cohRead l a with
        | .wait => none
        | .lost => Dev.fabGet who fuel (d.fabHomeLost l.die a) (a + k) (off + k) (n - k) (put (List.replicate k 0) true)
        | .ok d1 ln poison => Dev.fabGet who fuel d1 (a + k) (off + k) (n - k) (put (ln.slice (a % 128) k) poison)

/-- READ_REQ: READ_RSP frames in address order. -/
def Dev.readReq (f : Frame) (i : Nat) (d : Dev) : Option Dev :=
  match d.targetRefusal i f false f.len with
  | some st => some (d.refuseFrame i f st)
  | none =>
    let inst := d.instOfPeer i
    (Dev.fabGet (.inst inst) (lineBound f.len) d (nfld f.laddr 39 0) 0 f.len []).map fun r =>
      r.2.foldl (fun d x => d.sendSeq i
        { op := 0x03, poison := x.poison, src := d.ownId inst, dst := f.src, laddr := f.laddr + x.off, len := x.data.length, tag := f.tag, data := x.data }
        .none (some f.seq)) r.1

/-- Reduce bytes into their lines (R267): none while a line is busy, and none inside for a line that is poisoned. -/
def Dev.fabReduce (who : Who) (op ty : Nat) : Nat → Dev → Nat → List Byte → Option (Option Dev)
  | 0, d, _, _ => some (some d)
  | f + 1, d, a, bs =>
    match bs with
    | [] => some (some d)
    | _ =>
      let k := min bs.length (128 - a % 128)
      match d.access who a with
      | none => Dev.fabReduce who op ty f d (a + k) (bs.drop k)
      | some l => match d.cohReduce l a op ty (linePut (a % 128) (bs.take k)) (beRange (a % 128) k) with
        | .wait => none
        | .lost => Dev.fabReduce who op ty f (d.fabHomeLost l.die a) (a + k) (bs.drop k)
        | .ok d1 _ poison => if poison then some none else Dev.fabReduce who op ty f d1 (a + k) (bs.drop k)

/-- RED. Its alias gives operation and type (R373). -/
def Dev.redFrame (f : Frame) (i : Nat) (d : Dev) : Option Dev :=
  let a := nfld f.laddr 39 0
  let al := fabAlias f.laddr
  let n := f.data.length
  match d.targetRefusal i f true n with
  | some st => some (d.refuseFrame i f st)
  | none =>
    if al = 0 ∨ 10 ≤ al ∨ a % reduceBytes (aliasTy al) ≠ 0 ∨ n % reduceBytes (aliasTy al) ≠ 0 then some (d.refuseFrame i f 3)
    else match Dev.fabReduce (.inst (d.instOfPeer i)) (aliasOp al) (aliasTy al) (lineBound n) d a f.data with
      | none => none
      | some none => some (d.refuseFrame i f 4)
      | some (some d1) => some (d1.collRed (d.instOfPeer i) f.src a n)

/-- ATOMIC, answered with the old value. -/
def Dev.atomicFrame (f : Frame) (i : Nat) (d : Dev) : Option Dev :=
  let inst := d.instOfPeer i
  let a := nfld f.laddr 39 0
  let n (o : Nat) : Nat := leNat ((f.data.drop o).take 4)
  let fn := n 0 % 256
  if f.len ≠ 16 ∨ a % 4 ≠ 0 ∨ fn < 0x10 ∨ 0x1C < fn then some (d.refuseFrame i f 6)
  else match d.targetRefusal i f true 4 with
    | some st => some (d.refuseFrame i f st)
    | none => match d.access (.inst inst) a with
      | none => some (d.refuseFrame i f 1)
      | some l =>
        let x := if fn = 0x1C then n 8 else n 4
        match d.cohAtomic l a fn (a % 128) x (n 4) with
        | .wait => none
        | .lost => some (d.fabHomeLost l.die a)
        | .ok d1 v poison =>
          if poison then some (d.refuseFrame i f 4)
          else some (d1.sendSeq i { op := 0x06, src := d.ownId inst, dst := f.src, laddr := f.laddr, len := 4, tag := f.tag
                                    data := leBytes (v.toNat % 2 ^ 32) 4 } .none (some f.seq))

/-! ### Answers at the requester -/

/-- Bytes for a tile-mover read land in local store; poisoned ones kill its context (R306, R380). -/
def Dev.tmData (d : Dev) (b id row off : Nat) (bs : List Byte) (poison last : Bool) (a : Nat) : Dev :=
  let bn := d.bench b
  match bn.tm.find? (·.id == id) with
  | none => d
  | some t =>
    if poison then d.kill b t.ctx 0x3205 0x40 a
    else
      let bn1 := bn.lsWrite (tmAt (spaceOff t.dst) t.dstStride row off) bs
      d.setBench b (if last then (bn1.modTm id fun t => { t with reads := t.reads - 1 }).tmFinish id else bn1).fenceCheck

/-- READ_RSP: part or all of a read's bytes. -/
def Dev.readRsp (f : Frame) (i : Nat) (d : Dev) : Option Dev :=
  match d.readOf i f.tag with
  | none => some d
  | some r =>
    let off := r.off + (f.laddr + 2 ^ 44 - r.laddr) % 2 ^ 44
    let n := f.data.length
    let last := r.len - n == 0
    let d1 : Dev := { d with
      fabReads := if last then d.fabReads.erase f.tag
        else d.fabReads.set f.tag { r with len := r.len - n, laddr := f.laddr + n, off := off + n } }
    match r.owner with
    | .tm b id => some (d1.tmData b id r.row off f.data f.poison last (d.peerDev i * 2 ^ 44 + f.laddr))
    | .queue q seq =>
      let d2 := d1.cpData q seq off f.data f.poison
      some (if last then d2.cpAck q seq 0 else d2)
    | .repair id => some (if f.poison then d1.repairEnd id false else d1.repairGot id r.row off f.data)
    | .mirror w => d1.mirGot w r.row off f.data f.poison
    | _ => some d1

/-- ATOMIC_RSP: the old value. -/
def Dev.atomicRspFrame (f : Frame) (i : Nat) (d : Dev) : Option Dev :=
  match d.readOf i f.tag with
  | none => some d
  | some r => match r.owner with
    | .queue q seq => some (({ d with fabReads := d.fabReads.erase f.tag } : Dev).modCmd q fun c =>
        if c.seq = seq then { c with acks := c.acks - 1, old := some (leNat (f.data.take 4)) } else c)
    | _ => some d

/-- What a refusal does to what the frame was sent for. -/
def Dev.sentRefused (d : Dev) (i st : Nat) (x : SentFrame) : Dev :=
  let inst := d.instOfPeer i
  let a := d.peerDev i * 2 ^ 44 + x.frame.laddr
  match x.owner with
  | .tm b id => match (d.bench b).tm.find? (·.id == id) with
    | some t => d.kill b t.ctx 0x6204 0x71 a
    | none => d
  | .queue q seq => match (d.queue q).run with
    | none => d
    | some c =>
      if c.seq ≠ seq then d
      else
        let d1 := d.raise .fabErrStatus [] 9 { code := 0x6204, master := 0xF820, access := 0x71, addr := a, inst := d.queueCharge q, die := none }
        let status := if c.op = 0x22 && st == 5 then 0x31 else 0x22
        if x.frame.op = 0x08 then d1.modCmd q fun c => { c with bad := if c.bad.isNone then some (status, 0x6204, st) else c.bad }
        else d1.cpBad q seq status 0x6204 st
  | .mirror w => (d.fabCause inst (d.peerDev i) 0x6204 9 0x71 a).mirBroken w 0xA106
  | .repair id => (d.fabCause inst (d.peerDev i) 0x6204 9 0x71 a).repairEnd id false
  | _ => d.fabCause inst (d.peerDev i) 0x6204 9 0x71 a

/-- The owner of a refused request: that of the read whose request it was, or of the frame. -/
def Dev.refusedFrame (d : Dev) (x : SentFrame) : SentFrame :=
  if x.frame.op = 0x02 then match d.fabReads.find? x.frame.tag with
    | some r => { x with owner := r.owner }
    | none => { x with owner := .none }
  else x

/-- REFUSED: the request that it names fails, and a waiting frame takes its place in the window (R379, R383). -/
def Dev.refusedGot (f : Frame) (i : Nat) (d : Dev) : Option Dev :=
  let s := (d.peer i).bulk
  let seq := f.laddr % 2 ^ 32
  match s.unacked.find? (·.frame.seq == seq) with
  | none => some d
  | some x0 =>
    let x := d.refusedFrame x0
    let d1 : Dev := { d with
      fabReads := if x.frame.op = 0x02 ∨ x.frame.op = 0x05 then d.fabReads.erase x.frame.tag else d.fabReads }
    let d2 := d1.modPeer i fun p =>
      { p with bulk := { p.bulk with unacked := p.bulk.unacked.filter (·.frame.seq != seq) }, expiries := 0 }
    some ((d2.sentRefused i f.tag x).pump i false (s.backlog.length + 1))

/-! ### COLL, mirror and clamp frames -/

/-- COLL: READY or DONE of a chunk (R388). -/
def Dev.collFrame (f : Frame) (i : Nat) (d : Dev) : Option Dev :=
  match d.collGot (d.instOfPeer i) (f.laddr % 2 ^ 32) f.tag f.src (f.laddr / 2 ^ 32) with
  | some d1 => some d1
  | none => some (d.refuseFrame i f 5)

/-- MIRROR_WRITE: whole lines of the book (R416). -/
def Dev.mirrorWriteFrame (f : Frame) (i : Nat) (d : Dev) : Option Dev :=
  match d.targetRefusal i f true f.data.length with
  | some st => some (d.refuseFrame i f st)
  | none => Dev.fabPut (.inst (d.instOfPeer i)) false (lineBound f.data.length) d (nfld f.laddr 39 0) f.data

/-- The EPOCH that a header line seals, or 0 (R416). -/
def headerEpoch (bs : List Byte) : Nat :=
  let n (o k : Nat) : Nat := leNat ((bs.drop o).take k)
  ({ st0 := n 0x20 1, ep0 := n 0x18 8, st1 := n 0x30 1, ep1 := n 0x28 8 } : BookSides).epoch

/-- MIRROR_COMMIT: the header line is written after everything earlier, and confirmed (R416). -/
def Dev.mirrorCommitFrame (f : Frame) (i : Nat) (d : Dev) : Option Dev :=
  let inst := d.instOfPeer i
  match d.targetRefusal i f true f.data.length with
  | some st => some (d.refuseFrame i f st)
  | none => (Dev.fabPut (.inst inst) false (lineBound f.data.length) d (nfld f.laddr 39 0) f.data).map fun d1 =>
      d1.sendSeq i { op := 0x12, src := d.ownId inst, dst := f.src, laddr := headerEpoch f.data, tag := f.tag } .none (some f.seq)

/-- MIRROR_CONFIRM (R417). -/
def Dev.mirrorConfirm (f : Frame) (i : Nat) (d : Dev) : Option Dev :=
  match d.confirmFor (d.instOfPeer i) i f.tag f.laddr with
  | some w => some (d.confirmed w)
  | none => some d

/-- CLAMP_UP: a sum on its way to the root device (R386). -/
def Dev.clampUpFrame (f : Frame) (i : Nat) (d : Dev) : Option Dev :=
  let k := clampDataId f.data
  let v := clampDataVal f.data
  if 256 ≤ k ∨ !d.xclp k then some d
  else if d.xclpRoot k then
    if !d.clampValid k then some (d.fabCause (d.instOfPeer i) f.src 0x6302 12 0x70 0) else some (d.clampApply k v)
  else if d.clampFailed k then some d
  else some (d.sendClamp (d.instOfPeer i) (d.xclpParent k) 0x20 k v)

/-- CLAMP_DOWN: the new value (R386). -/
def Dev.clampDownFrame (f : Frame) (i : Nat) (d : Dev) : Option Dev :=
  let k := clampDataId f.data
  let v := clampDataVal f.data
  if 256 ≤ k ∨ !d.xclp k || d.xclpRoot k then some d
  else
    let d1 := if d.clampValid k && !d.clampFailed k then d.clampTake k v else d
    some ((d.xclpKids k).foldl (fun d c => d.sendClamp (d.instOfPeer i) c 0x21 k v) d1)

/-! ### The rows -/

section
variable (p : Nat) (find : FrameFind) (f : Frame) (d : Dev)

def writeFrameEffect : Dev := d.frameSeq p find { f with op := 0x01 } (Dev.writeFrame { f with op := 0x01 })
def readReqEffect : Dev := d.frameSeq p find { f with op := 0x02 } (Dev.readReq { f with op := 0x02 })
def readRspEffect : Dev := d.frameSeq p find { f with op := 0x03 } (Dev.readRsp { f with op := 0x03 })
def redFrameEffect : Dev := d.frameSeq p find { f with op := 0x04 } (Dev.redFrame { f with op := 0x04 })
def atomicFrameEffect : Dev := d.frameSeq p find { f with op := 0x05 } (Dev.atomicFrame { f with op := 0x05 })
def atomicRspEffect : Dev := d.frameSeq p find { f with op := 0x06 } (Dev.atomicRspFrame { f with op := 0x06 })
def refusedEffect : Dev := d.frameSeq p find { f with op := 0x07 } (Dev.refusedGot { f with op := 0x07 })
def collEffect : Dev := d.frameSeq p find { f with op := 0x08 } (Dev.collFrame { f with op := 0x08 })
def mirrorWriteEffect : Dev := d.frameSeq p find { f with op := 0x10 } (Dev.mirrorWriteFrame { f with op := 0x10 })
def mirrorCommitFrameEffect : Dev := d.frameSeq p find { f with op := 0x11 } (Dev.mirrorCommitFrame { f with op := 0x11 })
def mirrorConfirmEffect : Dev := d.frameSeq p find { f with op := 0x12 } (Dev.mirrorConfirm { f with op := 0x12 })
def clampUpEffect : Dev := d.frameSeq p find { f with op := 0x20 } (Dev.clampUpFrame { f with op := 0x20 })
def clampDownEffect : Dev := d.frameSeq p find { f with op := 0x21 } (Dev.clampDownFrame { f with op := 0x21 })

/-- ACK: TAG tells the stream. -/
def ackEffect : Dev := d.framePlain p find { f with op := 0x30 } fun i d => d.ackTo i (f.tag == 1) f.ack
/-- NAK: the sender goes back to its oldest unacknowledged frame. -/
def nakEffect : Dev := d.framePlain p find { f with op := 0x31 } fun i d => (d.ackTo i (f.tag == 1) f.ack).resend i (f.tag == 1)
def resyncEffect : Dev := d.framePlain p find { f with op := 0x32 } fun i d => d.resyncGot i
def lackEffect : Dev := d.framePlain p find { f with op := 0x33 } fun _ d => d.lackGot p (f.lseq % 256)
def lnakEffect : Dev := d.framePlain p find { f with op := 0x34 } fun _ d => d.replayFrom p (f.lseq % 256)
end

section
variable (p : PortIx) (find : FrameFind) (f : Frame) (s : State)

def execWriteFrame := s.runLive (writeFrameEffect p find f)
def execReadReq := s.runLive (readReqEffect p find f)
def execReadRsp := s.runLive (readRspEffect p find f)
def execRedFrame := s.runLive (redFrameEffect p find f)
def execAtomicFrame := s.runLive (atomicFrameEffect p find f)
def execAtomicRsp := s.runLive (atomicRspEffect p find f)
def execRefused := s.runLive (refusedEffect p find f)
def execColl := s.runLive (collEffect p find f)
def execMirrorWrite := s.runLive (mirrorWriteEffect p find f)
def execMirrorCommitFrame := s.runLive (mirrorCommitFrameEffect p find f)
def execMirrorConfirm := s.runLive (mirrorConfirmEffect p find f)
def execClampUp := s.runLive (clampUpEffect p find f)
def execClampDown := s.runLive (clampDownEffect p find f)
def execAck := s.runLive (ackEffect p find f)
def execNak := s.runLive (nakEffect p find f)
def execResync := s.runLive (resyncEffect p find f)
def execLack := s.runLive (lackEffect p find f)
def execLnak := s.runLive (lnakEffect p find f)
end

end Sys2Proof.Machine
end

