-- ==== Sys2Proof/Machine/FabTime.lean ====
section
/-! DEFINITION. Time synchronisation over the fabric (R387). -/

namespace Sys2Proof.Machine

/-! ### Messages -/

/-- The payload of a time message: seconds (6 bytes) and nanoseconds (4 bytes) of device time, then the sender's depth. -/
def Dev.tsData (d : Dev) : List Byte :=
  leBytes (d.time / 1000000000) 6 ++ leBytes (d.time % 1000000000) 4 ++ leBytes (d.regFld .fabTsStatus [] 15 8) 1 ++ leBytes 0 5

/-- The time and the depth that a message carries, in nanoseconds. -/
def tsTime (bs : List Byte) : Nat := leNat (bs.take 6) * 1000000000 + leNat ((bs.drop 6).take 4)
def tsDepth (bs : List Byte) : Nat := leNat ((bs.drop 10).take 1)

/-- Send a time message to the partner of a DIRECT port. -/
def Dev.tsSend (d : Dev) (p op : Nat) : Dev :=
  d.putOnPort p { op := op, src := d.ownId (d.instOfPort p), dst := (d.port p).partnerId, len := 16, data := d.tsData }

/-- Time sync is enabled. -/
def Dev.tsEn (d : Dev) : Bool := d.regBit .fabTsCfg [] 30
def Dev.tsGm (d : Dev) : Bool := d.regBit .fabTsCfg [] 31

/-- The parent that a follower uses: PARENT0, or PARENT1 while PARENT0 is not UP. -/
def Dev.tsParent (d : Dev) : Option (Nat × Bool) :=
  let use (v : Nat) (p : Nat) : Bool := d.regBit .fabTsCfg [] v && (d.port p).st == 3
  let p0 := d.regFld .fabTsCfg [] 4 0
  let p1 := d.regFld .fabTsCfg [] 12 8
  if use 5 p0 then some (p0, false) else if use 13 p1 then some (p1, true) else none

/-- A message from the parent, over a DIRECT port, counts. -/
def Dev.tsFrom (d : Dev) (p : Nat) : Bool :=
  d.tsEn && !d.tsGm && (d.port p).direct && match d.tsParent with
    | some (q, _) => q == p
    | none => false

/-! ### Offset and lock -/

/-- The cause of time sync. -/
def Dev.tsCause (d : Dev) : Dev :=
  d.raise .fabErrStatus [] 11 { code := 0x6301, master := 0xF8A0, access := 0, addr := 0, inst := none, die := none }

/-- A follower is `off` nanoseconds behind its parent, and its offset from it is the negative of that: the first one is taken whole; after that 4 in a row beyond 20 ns lose the lock and 8 in
a row within 10 ns regain it. -/
def Dev.tsOffset (d : Dev) (off : Int) (depth : Nat) (using1 : Bool) : Dev :=
  let d1 := ((d.setReg .fabTsOffset [] (BitVec.ofInt 32 (-off))).setRegFld .fabTsStatus [] 15 8 (min 255 (depth + 1))).setRegFld .fabTsStatus [] 1 1
    (b2n using1)
  if !d.tsStepped then ({ d1 with tsStepped := true, time := ((d.time : Int) + off).toNat, tsBad := 0, tsGood := 0 } : Dev).setRegBit .fabTsStatus [] 0
  else
    let bad := if 20 < off.natAbs then d.tsBad + 1 else 0
    let good := if off.natAbs ≤ 10 then d.tsGood + 1 else 0
    let d2 : Dev := { d1 with tsBad := bad, tsGood := good }
    if d.regBit .fabTsStatus [] 0 then
      if 4 ≤ bad then ({ d2 with tsBad := 0, tsGood := 0 } : Dev).clrRegBit .fabTsStatus [] 0 |>.tsCause else d2
    else if 8 ≤ good then ({ d2 with tsBad := 0 } : Dev).setRegBit .fabTsStatus [] 0
    else d2

/-! ### The rows -/

/-- TS_SYNC: the follower notes when it came, `sub` nanoseconds into the tick. -/
def tsSyncEffect (p : Nat) (find : FrameFind) (f : Frame) (sub : Nat) (d : Dev) : Dev :=
  d.framePlain p find { f with op := 0x40 } fun _ d => if d.tsFrom p then d.modPort p fun x => { x with syncAt := some (d.time + sub) } else d

/-- TS_FOLLOW: the time at which the TS_SYNC left its sender. -/
def tsFollowEffect (p : Nat) (find : FrameFind) (f : Frame) (d : Dev) : Dev :=
  d.framePlain p find { f with op := 0x41 } fun _ d =>
    match d.tsParent, (d.port p).syncAt with
    | some (_, using1), some t =>
      if d.tsFrom p then
        (d.modPort p fun x => { x with syncAt := none }).tsOffset ((tsTime f.data : Int) + (d.port p).delay - t) (tsDepth f.data) using1
      else d
    | _, _ => d

/-- TS_PDREQ is answered. -/
def tsPdreqEffect (p : Nat) (find : FrameFind) (f : Frame) (d : Dev) : Dev :=
  d.framePlain p find { f with op := 0x42 } fun _ d => if (d.port p).direct then d.tsSend p 0x43 else d

/-- TS_PDRESP gives the link delay: half the time since the request left. -/
def tsPdrespEffect (p : Nat) (find : FrameFind) (f : Frame) (sub : Nat) (d : Dev) : Dev :=
  d.framePlain p find { f with op := 0x43 } fun _ d =>
    match (d.port p).pdSent with
    | some t => d.modPort p fun x => { x with delay := (d.time + sub - t) / 2, pdSent := none }
    | none => d

/-- The tick in which time messages are due again: every 125 µs. -/
def Dev.tsDue (d : Dev) : Option Nat := if d.tsEn then some (d.tsAt + 6250) else none

/-- Every 125 µs: TS_SYNC, TS_FOLLOW and TS_PDREQ on each DIRECT port. -/
def tsSyncIntervalEffect (d : Dev) : Dev :=
  if d.tsDue.all (d.ticks < ·) then d
  else (List.range 24).foldl (fun d p =>
    if (d.port p).direct && (d.port p).st == 3 then
      (((d.tsSend p 0x40).tsSend p 0x41).tsSend p 0x42).modPort p fun x => { x with pdSent := some d.time }
    else d) { d with tsAt := d.ticks }

section
variable (p : PortIx) (find : FrameFind) (f : Frame) (s : State)

def execTsSync (sub : Fin 20) (s : State) := s.runLive (tsSyncEffect p find f sub)
def execTsFollow := s.runLive (tsFollowEffect p find f)
def execTsPdreq := s.runLive (tsPdreqEffect p find f)
def execTsPdresp (sub : Fin 20) (s : State) := s.runLive (tsPdrespEffect p find f sub)
end

end Sys2Proof.Machine
end

