-- ==== Sys2Proof/Machine/Faults.lean ====
section
/-! DEFINITION. The commands of the fault collectors (R394, R398, R402). -/

namespace Sys2Proof.Machine

/-- The first `n` reports on their way reach the collectors in one always-on tick (R398). -/
def faultReportEffect (n : Nat) (d : Dev) : Dev :=
  ({ d with reports := d.reports.drop n } : Dev).collect (d.reports.take n)

/-- After a line fault a source's errors count from reports alone (R394). -/
def Dev.lineFaulted (d : Dev) (m : Nat) : Dev :=
  if (homeClass m).isNone then d
  else { d.fcOwn m 0xE01 none with lineFault := if d.lineFault.contains m then d.lineFault else d.lineFault ++ [m] }

/-- A line pair reads invalid on two consecutive ticks: the line fault of a source, or of a die's forwarding path (R394, R408). -/
def linePairInvalidEffect (src : LineSrc) (d : Dev) : Dev :=
  match src with
  | .source m => d.lineFaulted m
  | .path i => d.setRegBit .fcDieSum [] (8 + i)

/-- A report has arrived from a source whose pair was clear and has not asserted within 2 µs (R394). -/
def lineAssertTimeoutEffect (m : Nat) (d : Dev) : Dev := d.lineFaulted m

/-- A report is awaited: its source's pair has asserted with it. -/
def Dev.awaited (d : Dev) (r : Report) : Bool := r.seen.isSome && !d.lineFault.contains r.master

/-- The tick in which a pair has been asserted for 2 µs with no report. -/
def Dev.reportDue (d : Dev) : Option Nat := (d.reports.find? d.awaited).map fun r => r.raisedAt + 101

/-- The oldest report of a source whose pair has just asserted is lost on its way (R394). -/
def reportLostTimeoutEffect (d : Dev) : Dev :=
  if d.reportDue.all (d.ticks < ·) then d
  else match takeFirst d.awaited d.reports with
    | none => d
    | some (r, rest) => ({ d with reports := rest } : Dev).fcOwn r.master 0xE03 r.inst

/-- A pair has read valid for 16 consecutive ticks (R394). -/
def linePairValidAgainEffect (m : Nat) (d : Dev) : Dev := { d with lineFault := d.lineFault.filter (· != m) }

/-- Software clears a record (R402). -/
def faultRecordClearEffect (b : RecBlock) (c : Fin 10) (d : Dev) : Dev :=
  match b with
  | .dev => d.fcClear .dev (c + 1)
  | .die i => d.fcClear (.die i) (c + 1)
  | .view k => d.fcClear (.view k) (c + 1)

def execFaultReport (n : Nat) (s : State) := s.runOn (faultReportEffect n)
def execLinePairInvalid (src : LineSrc) (s : State) := s.runOn (linePairInvalidEffect src)
def execLineAssertTimeout (m : Fin 65536) (s : State) := s.runOn (lineAssertTimeoutEffect m)
def execLinePairValidAgain (m : Fin 65536) (s : State) := s.runOn (linePairValidAgainEffect m)
def execFaultRecordClear (b : RecBlock) (c : Fin 10) (s : State) := s.runLive (faultRecordClearEffect b c)

end Sys2Proof.Machine
end

