-- ==== Sys2Proof/Machine/SliceCache.lean ====
section
/-! DEFINITION. The commands of the slices: the requests RDS to RED (R256 to R261, R265 to R270), the reduction unit, snoop
replies, and the fills of lines from HBM (R257, R269, R275). -/

namespace Sys2Proof.Machine

/-! ### Findings of the arrays (R275) -/

/-- A bay cache that owns a line has bytes that its home slice has not: the line is M, or its write-back has begun. -/
def Dev.ownerNewer (d : Dev) (y line : Nat) : Bool :=
  ((d.bay y).get line).any (·.st == .m) || (d.bay y).wbs.any (·.line == line) || d.dataComing y line

/-- The effect on the line looked up of what a slice's arrays show. -/
def Dev.sliceFind (d : Dev) (q line loc : Nat) (e : ArrEcc) : Dev :=
  let s := d.slice q
  let pa := line * 128
  match e with
  | .ok => d
  | .tagFix => (d.sliceCause q 0x2504 3 0x51 pa).count .ucSlCeCount [q] 31 16
  | .tagLost => (d.sliceCause q 0x2505 4 0x51 pa).fenceDie (q / 16) 0x2505
  | .data1 => match s.find loc with
    | none => d
    | some k => if (s.at k).valid then (d.sliceCause q 0x2501 0 0x51 pa).count .ucSlCeCount [q] 15 0 else d
  | .data2 => match s.find loc with
    | none => d
    | some k =>
      let x := s.at k
      let newer := match x.dir with
        | .x y => d.ownerNewer y x.line
        | _ => false
      if !x.valid then d
      else if x.dirty && !newer then
        (d.sliceCause q 0x2503 2 0x51 pa).modSlice q fun t => { t with lines := t.lines.set k { x with poison := true } }
      else
        ((d.sliceCause q 0x2502 1 0x51 pa).modSlice q fun t => { t with lines := t.lines.set k { x with valid := false, dirty := false } }).count .ucSlCeCount [q] 15 0

/-! ### Requests -/

/-- The first request of a kind in flight for a slice is looked up and taken up (R257, R258); while the pending table is full
it stays at the port (R252). -/
def Dev.sliceTake (d : Dev) (q : Nat) (kind : MsgKind) (e : ArrEcc) : Dev :=
  if (d.die (q / 16)).st ≠ 2 then d
  else match d.recv fun m => m.kind == kind && m.dst == .slice q with
    | none => d
    | some (m, d1) =>
      if 128 ≤ (d1.slice q).pend.length then d
      else
        let d2 := d1.sliceFind q m.line m.loc e
        if (d2.die (q / 16)).st ≠ 2 then d2.fenceMsg (q / 16) m else (d2.arrive q m).getD d

/-- A request of an IOD agent for a line whose home is this slice (R254, R256); an unmapped address is cause 0x3101 (R294). -/
def Dev.sliceFromIod (d : Dev) (q k line : Nat) (kind : MsgKind) (e : ArrEcc) : Dev :=
  match d.access .core (line * 128) with
  | none => d.report { code := 0x3101, master := 0xF820 + k, access := 0x51, addr := line * 128, inst := none, die := none }
  | some l =>
    let m : Msg := { kind := kind, src := .iod k, dst := .slice q, line := line, loc := l.x / 128, acc := 0x51 }
    if homeSlice l.die l.x ≠ q then d
    else if (d.die (q / 16)).st ≠ 2 then
      (d.raise .datErrStatus [q / 16] 7
        { code := 0x5108, master := 0xF850 + q / 16, access := 0x51, addr := line * 128, inst := none, die := none }).deliver q m 0
        { line := line, loc := l.x / 128, poison := true } false
    else if 128 ≤ (d.slice q).pend.length then d
    else
      let d2 := d.sliceFind q line m.loc e
      if (d2.die (q / 16)).st ≠ 2 then d2 else (d2.arrive q m).getD d

/-- RDS: a read that keeps a shared copy, from a bay cache or an IOD agent (R257). -/
def rdsEffect (q : Nat) (e : ArrEcc) (iod : Option (Fin 25)) (line : Nat) (d : Dev) : Dev :=
  match iod with
  | none => d.sliceTake q .rds e
  | some k => d.sliceFromIod q k line .rds e
/-- RDU: a read by an IOD agent that keeps no copy (R257). -/
def rduEffect (q : Nat) (e : ArrEcc) (k line : Nat) (d : Dev) : Dev := d.sliceFromIod q k line .rdu e
def rdxEffect (q : Nat) (e : ArrEcc) (d : Dev) : Dev := d.sliceTake q .rdx e
def rdxnEffect (q : Nat) (e : ArrEcc) (d : Dev) : Dev := d.sliceTake q .rdxn e
def wbEffect (q : Nat) (e : ArrEcc) (d : Dev) : Dev := d.sliceTake q .wb e
def wraEffect (q : Nat) (e : ArrEcc) (d : Dev) : Dev := d.sliceTake q .wra e
def ataEffect (q : Nat) (e : ArrEcc) (d : Dev) : Dev := d.sliceTake q .ata e

/-- RED: a reduce-into joins its line's queue; one that covers part of an element is not applied and kills its issuer (R267, R268). -/
def redEffect (q : Nat) (e : ArrEcc) (d : Dev) : Dev :=
  match d.recv fun m => m.kind == .red && m.dst == .slice q with
  | none => d
  | some (m, d1) =>
    if (d.die (q / 16)).st = 2 ∧ reduceWhole (m.ty % 4) m.be = false then d1.killIssuer m 0x1703 0x52 (m.line * 128)
    else d.sliceTake q .red e

/-- The reduction unit applies the oldest reduce-into that is ready, and acknowledges it; on a poisoned line it is not
performed (R267, R268, R270). -/
def reductionApplyEffect (q : Nat) (d : Dev) : Dev :=
  if (d.die (q / 16)).st ≠ 2 then d
  else match (d.slice q).pend.find? (·.phase == .apply) with
    | none => d
    | some p =>
      let m := p.req
      match (d.slice q).find m.loc with
      | none => d
      | some k =>
        let x := (d.slice q).at k
        let d1 := d.modSlice q fun s => { s with pend := s.pend.filter (·.id != p.id) }
        let d2 := if x.poison then
            (d1.sliceCause q 0x2506 5 0x52 (m.line * 128)).send { m.reply .writeAck (.slice q) with poison := true, code := 0x2506 }
          else
            (((d1.mirMark (m.line * 128)).modSlice q fun s =>
              { s with
                lines := s.lines.set k { x with data := reduceLine (m.ty / 4) (m.ty % 4) x.data m.data m.be, dirty := true, used := s.tick + 1 }
                tick := s.tick + 1 }).count .ucSlReds [q] 31 0).send (m.reply .writeAck (.slice q))
        (d2.countHit q p.hbm).kick q m.loc

/-! ### Replies and fills -/

/-- A reply NP, ACK or DATA arrives at the slice (R257, R259). -/
def snoopReplyEffect (q : Nat) (d : Dev) : Dev :=
  if (d.die (q / 16)).st ≠ 2 then d
  else match d.recv fun m => (m.kind == .replyNp || m.kind == .replyAck || m.kind == .replyData) && m.dst == .slice q with
    | none => d
    | some (m, d1) => d1.snoopReplied q m

/-- HBM data arrives for an allocated line and the request that waits is served (R257, R270). -/
def sliceHbmFillEffect (q : Nat) (d : Dev) : Dev :=
  if (d.die (q / 16)).st ≠ 2 then d
  else match d.recv fun m => m.kind == .hbmData && m.dst == .slice q with
    | none => d
    | some (m, d1) =>
      match (d1.slice q).pend.find? fun p => p.req.loc == m.loc && (match p.phase with
          | .fill _ => true
          | _ => false) with
      | none => d1
      | some p => match (d1.slice q).find m.loc with
        | none => d1
        | some k =>
          ((d1.modSlice q fun s => { s with lines := s.lines.set k { s.at k with data := m.data, poison := m.poison, valid := true } }).setPhase
            q p.id .waiting).kick q m.loc

/-- A fill that waits for an eligible way is considered again (R269). -/
def sliceFillWaitRetryEffect (q : Nat) (d : Dev) : Dev :=
  if (d.die (q / 16)).st ≠ 2 then d
  else
    let can (p : SPend) : Bool := p.phase == .noWay && match d.winFind (p.req.line * 128) with
      | some w => (d.choosePlace q p.req.loc w (p.req.line * 128)).isSome
      | none => true
    match (d.slice q).pend.find? can with
    | none => d
    | some p => (d.setPhase q p.id .waiting).kick q p.req.loc

/-! ### The commands -/

section
variable (q : SliceIx) (e : ArrEcc) (s : State)

def execRds (iod : Option (Fin 25)) (line : Fin 8589934592) (s : State) := s.runLive (rdsEffect q e iod line)
def execRdu (k : Fin 25) (line : Fin 8589934592) (s : State) := s.runLive (rduEffect q e k line)
def execRdx := s.runLive (rdxEffect q e)
def execRdxn := s.runLive (rdxnEffect q e)
def execWb := s.runLive (wbEffect q e)
def execWra := s.runLive (wraEffect q e)
def execAta := s.runLive (ataEffect q e)
def execRed := s.runLive (redEffect q e)
def execReductionApply := s.runLive (reductionApplyEffect q)
def execSnoopReply := s.runLive (snoopReplyEffect q)
def execSliceHbmFill := s.runLive (sliceHbmFillEffect q)
def execSliceFillWaitRetry := s.runLive (sliceFillWaitRetryEffect q)
end

end Sys2Proof.Machine
end

