-- ==== Sys2Proof/Machine/Hbm.lean ====
section
/-! DEFINITION. The commands of the HBM controllers (R302 to R307): reads and writes of lines with their check cache, refresh,
scrubbing, retraining and channel failure. -/

namespace Sys2Proof.Machine

/-! ### Reads and writes (R304, R305) -/

/-- The device line number of a die line of the same window: lines of a check group lie in the same 256-byte columns of one
pseudo-channel, so the device address is found from the window. -/
def Win.lineOfLoc (w : Win) (die loc : Nat) : Nat :=
  let x := loc * 128 - w.doff * 2 ^ 30
  let o := match w.mode with
    | 0 => x
    | 1 => (x >>> 12) <<< 13 + (if die = w.die then 0 else 4096) + nfld x 11 0
    | _ => (x >>> 12) <<< 15 + die * 4096 + nfld x 11 0
  (w.base * 2 ^ 30 + o) / 128

/-- An uncorrectable line: repaired from its mirror if one can, and then not reported; otherwise delivered poisoned (R304, R424). -/
def Dev.uncorrectable (d : Dev) (q line loc : Nat) (correcting : Bool) : Dev :=
  let code := if correcting then 0x3203 else 0x3204
  match d.repairable (line * 128) with
  | some w => d.repairStart w q line loc code true
  | none => (d.ueCause q code line).deliverPoison q line loc

/-- A check line that is uncorrectable is rebuilt from its data lines, an event; those that fail their own read, but for the line that is
being accessed, are repaired from their mirror or stored poisoned (R304, R424). -/
def Dev.checkRebuild (d : Dev) (q line loc : Nat) (bad : List (Fin 32)) : Dev :=
  ((bad.map fun i => (checkData (checkLoc loc)).getD i.val 0).filter (· != loc)).foldl (fun d x =>
    let ln := match d.winFind (line * 128) with
      | some w => w.lineOfLoc (q / 16) x
      | none => line
    match d.repairable (ln * 128) with
    | some w => d.repairStart w q ln x 0x3203 false
    | none => (d.ueCause q 0x3203 ln).hbmPut q ln x (d.hbmLine (q / 16) x) true) (d.hbmCause q 0x3207 5 0x58 (line * 128))

/-- The line that is being accessed is among those that fail their read as its check line is rebuilt. -/
def ownLineBad (loc : Nat) (bad : List (Fin 32)) : Bool := bad.any fun i => (checkData (checkLoc loc)).getD i.val 0 == loc

/-- A line's check line is to be fetched: the window is correcting and the check cache does not hold it (R303). -/
def Dev.checkFetched (d : Dev) (q line loc : Nat) : Bool := d.correcting line && !(d.slice q).hasCheck (checkLoc loc)

/-- The data of a completed read goes to the slice. -/
def Dev.hbmDeliver (d : Dev) (q line loc : Nat) (l : Line) : Dev :=
  d.send { kind := .hbmData, src := .slice q, dst := .slice q, line := line, loc := loc, data := l }

/-- The first read of a controller that no earlier write of its line precedes completes (R304). A detecting window delivers
what its code misses as decoded, which is a free value (R302). -/
def hbmReadEffect (q : Nat) (f : HbmFind) (d : Dev) : Dev :=
  let die := q / 16
  if (d.die die).st ≠ 2 then d
  else
    let first (m : Msg) : Bool := m.kind == .hbmRead && m.dst == .slice q &&
      !((d.net.takeWhile (· != m)).any fun x => x.kind == .hbmWrite && x.dst == .slice q && x.loc == m.loc)
    match d.recv first with
    | none => d
    | some (m, d1) =>
      let cor := d1.correcting m.line
      let fetched := d1.checkFetched q m.line m.loc
      let d2 := d1.checkUse q m.line m.loc false
      let l := d2.hbmLine die m.loc
      if d2.channelFailed die m.loc then d2.deliverPoison q m.line m.loc
      else if d2.hbmBad die m.loc then (d2.count .hbmCtPoisonRd [q] 31 0).deliverPoison q m.line m.loc
      else match f with
        | .ok => d2.hbmDeliver q m.line m.loc l
        | .single => ((d2.hbmCause q 0x3201 0 0x58 (m.line * 128)).count .hbmCtCeCount [q] 15 0).hbmDeliver q m.line m.loc l
        | .symbol =>
          if cor then ((d2.hbmCause q 0x3202 1 0x58 (m.line * 128)).count .hbmCtCeCount [q] 31 16).hbmDeliver q m.line m.loc l
          else d2.tickFree.hbmDeliver q m.line m.loc (Config.freeLine d2.free 0)
        | .uncorrectable => d2.uncorrectable q m.line m.loc cor
        | .checkLine bad =>
          if !fetched then d2.hbmDeliver q m.line m.loc l
          else
            let d3 := d2.checkRebuild q m.line m.loc bad
            if ownLineBad m.loc bad then d3.uncorrectable q m.line m.loc true else d3.hbmDeliver q m.line m.loc l

/-- The first write of a controller that no earlier read of its line precedes updates the line, poisoned or not, and its check
word in the check cache (R303 to R305); a failed channel discards it (R307). `bad`, if there is one, are the data lines that fail
their read as the check line that the write fetches is uncorrectable: the line that is written is reported and then written. -/
def hbmWriteEffect (q : Nat) (bad : Option (List (Fin 32))) (d : Dev) : Dev :=
  let die := q / 16
  if (d.die die).st ≠ 2 then d
  else
    let first (m : Msg) : Bool := m.kind == .hbmWrite && m.dst == .slice q &&
      !((d.net.takeWhile (· != m)).any fun x => x.kind == .hbmRead && x.dst == .slice q && x.loc == m.loc)
    match d.recv first with
    | none => d
    | some (m, d1) =>
      let d2 := match bad with
        | none => d1
        | some b =>
          if d1.channelFailed die m.loc || !d1.checkFetched q m.line m.loc then d1
          else
            let d2 := d1.checkRebuild q m.line m.loc b
            if ownLineBad m.loc b then d2.ueCause q 0x3203 m.line else d2
      d2.hbmPut q m.line m.loc m.data m.poison

/-! ### Events outside the schedule (R307) -/

/-- Per-bank refresh: it lengthens the accesses it meets and changes nothing else. -/
def hbmRefreshEffect (_q : Nat) (d : Dev) : Dev := d

/-- Device index of the stack of a controller (R4, R297). -/
def stackOf (q : Nat) : Nat := 2 * (q / 16) + q % 16 / 8

/-- ECS has found `n` errors on a controller's channels; past the threshold cause 0x3208 is raised once (R307). -/
def hbmEcsEffect (q n : Nat) (d : Dev) : Dev :=
  if (d.die (q / 16)).st ≠ 2 then d
  else
    let lim := d.regFld .hbmCtEcsThr [q] 15 0
    let old := d.regFld .hbmCtEcs [q] 15 0
    let d1 := d.count .hbmCtEcs [q] 15 0 n
    if lim ≠ 0 ∧ old ≤ lim ∧ lim < d1.regFld .hbmCtEcs [q] 15 0 then d1.hbmCause q 0x3208 6 0x5A (stackOf q) else d1

/-- A channel of a controller is marked failed (R307). -/
def Dev.failChannel (d : Dev) (q k : Nat) : Dev :=
  (d.setRegBit .hbmCtStatus [q] (8 + k)).hbmCause q 0x3206 4 0x5A (stackOf q)

/-- 1 ms in ticks, which two retrainings of a stack are at least apart (R307). -/
def retrainGap : Nat := 50000

/-- A periodic retraining of channel `k` of controller `q` has run; one that a parity error's took the place of does not (R307). -/
def hbmRetrainEffect (q k : Nat) (ok : Bool) (d : Dev) : Dev :=
  let st := d.hbmStacks.getD (stackOf q) {}
  let soon := match st.last with
    | some t => decide (d.ticks < t + retrainGap)
    | none => false
  if (d.die (q / 16)).st != 2 || soon then d
  else if st.skip then { d with hbmStacks := d.hbmStacks.set (stackOf q) { st with skip := false } }
  else
    let d1 := ({ d with hbmStacks := d.hbmStacks.set (stackOf q) { last := some d.ticks, skip := false } } : Dev).count .hbmCtRetrain [q] 15 0
    if ok then d1 else d1.failChannel q k

/-- A command/address parity error: an immediate retraining of the channel in place of the stack's next periodic one; the
second within 1 ms marks the channel failed (R307). -/
def caParityErrorEffect (q k : Nat) (ok : Bool) (d : Dev) : Dev :=
  let st := d.hbmStacks.getD (stackOf q) {}
  let soon := match st.last with
    | some t => decide (d.ticks < t + retrainGap)
    | none => false
  if (d.die (q / 16)).st ≠ 2 then d
  else if soon then d.failChannel q k
  else
    let d1 : Dev := { d with hbmStacks := d.hbmStacks.set (stackOf q) { last := some d.ticks, skip := true } }
    let d2 := (d1.count .hbmCtRetrain [q] 31 16).count .hbmCtRetrain [q] 15 0
    if ok then d2 else d2.failChannel q k

/-! ### The commands -/

section
variable (q : SliceIx) (s : State)

def execHbmRead (f : HbmFind) (s : State) := s.runLive (hbmReadEffect q f)
def execHbmWrite (x : WriteFind) (s : State) := s.runLive (hbmWriteEffect x.q x.bad)
def execHbmRefresh := s.runLive (hbmRefreshEffect q)
def execHbmEcs (n : Nat) (s : State) := s.runLive (hbmEcsEffect q n)
def execHbmRetrain (k : Fin 4) (ok : Bool) (s : State) := s.runLive (hbmRetrainEffect q k ok)
def execCaParityError (k : Fin 4) (ok : Bool) (s : State) := s.runLive (caParityErrorEffect q k ok)
end

end Sys2Proof.Machine
end

