-- ==== Sys2Proof/Machine/Host.lean ====
section
/-! DEFINITION. Host accesses to device memory through BAR2 (R290, R291, R341, R342), malformed requests and link errors (R350), and the functions'
power states, BAR sizes and vectors (R339, R341, R347). -/

namespace Sys2Proof.Machine

/-- The rights of a function's requests (R342). -/
def fnWho (f : Nat) : Who := if f = 0 then .manager else .inst (f - 1)
/-- The instance charged with a function's requests (R400). -/
def fnCharge (f : Nat) : Option Nat := if f = 0 then none else some (f - 1)

/-- A function answers requests to its BARs: it exists and no function level reset of it runs (R344, R345). -/
def Dev.barOn (d : Dev) (f : Nat) : Bool := d.fnOn f && !(d.fn f).flr

/-- An access through BAR2 meets an unmapped address: cause 0x3101, advisory in AER (R342, R350). -/
def Dev.hostUnmapped (d : Dev) (f access a : Nat) : Dev :=
  (d.report { code := 0x3101, master := 0xF840, access := access, addr := a, inst := fnCharge f, die := none }).aer f .unsupported true

/-- An access of the host meets a fenced home (R249). -/
def Dev.hostHomeLost (d : Dev) (die access a : Nat) : Dev :=
  d.raise .datErrStatus [die] 7 { code := 0x5108, master := 0xF850 + die, access := access, addr := a, inst := none, die := none }

/-- Lines of a host read as they are taken: none while one is busy; otherwise the bytes, whether one was poisoned, and the
first fenced home met with its address. -/
def Dev.hostGet (who : Who) : Nat → Dev → Nat → Nat → List Byte → Bool → Option (Nat × Nat) →
    Option (Dev × List Byte × Bool × Option (Nat × Nat))
  | 0, d, _, _, got, bad, lost => some (d, got, bad, lost)
  | f + 1, d, a, n, got, bad, lost =>
    if n = 0 then some (d, got, bad, lost)
    else
      let k := min n (128 - a % 128)
      match d.access who a with
      | none => some (d, got, bad, lost)
      | some l => match d.cohRead l a with
        | .wait => none
        | .lost => Dev.hostGet who f d (a + k) (n - k) (got ++ List.replicate k 0xFF) bad (lost.orElse fun _ => some (l.die, a))
        | .ok d1 ln p => Dev.hostGet who f d1 (a + k) (n - k) (got ++ ln.slice (a % 128) k) (bad || p) lost

/-- A read of BAR2 at offset `a`, which is the device physical address (R341, R342, R351). It waits for the posted writes that its function
has sent before it, and while a line of it is busy (R258, R291). -/
def hostBar2ReadEffect (f a n : Nat) (d : Dev) : Dev :=
  if d.writesWait f then d.hostHold (.read f a n)
  else if !d.barOn f then d.emit (.completion f 1 false [])
  else if 2 ^ (30 + (d.fn f).bar2) < a + n then d
  else if !d.mapped (fnWho f) false a n then (d.hostUnmapped f 0x60 a).emit (.completion f 1 false [])
  else match Dev.hostGet (fnWho f) (lineBound n) d a n [] false none with
    | none => (d.fillWaits 1 a n).hostHold (.read f a n)
    | some (d1, bs, bad, lost) =>
      let ep := List.replicate n (0xFF : Byte)
      match lost with
      | some (die, x) => (d1.hostHomeLost die 0x60 x).emit (.completion f 0 true ep)
      | none =>
        if bad then (d1.hstCause f 0x9207 6 0x60 a (some .internal)).emit (.completion f 0 true ep)
        else d1.emit (.completion f 0 false bs)

/-- The part of a posted write that lies in one line, performed as WRA at its home; it waits behind an earlier one of its line and while
the line is busy (R258, R291). -/
def Dev.hostPutLine (d : Dev) (f a : Nat) (bs : List Byte) (ep : Bool) : Dev :=
  if d.hostWait.any (HostReq.isWriteAt f (a / 128)) then d.hostHold (.write f a bs ep)
  else match d.access (fnWho f) a with
    | none => d.hostUnmapped f 0x61 a
    | some l => match d.cohWrite l a (linePut (a % 128) bs) (beRange (a % 128) bs.length) ep with
      | .wait => (d.fillWait 1 a).hostHold (.write f a bs ep)
      | .lost => d.hostHomeLost l.die 0x61 a
      | .ok d1 _ _ => d1

/-- The lines of a posted write; the first argument bounds them. -/
def Dev.hostPut (f : Nat) (ep : Bool) : Nat → Dev → Nat → List Byte → Dev
  | 0, d, _, _ => d
  | n + 1, d, a, bs =>
    if bs.isEmpty then d
    else
      let k := min bs.length (128 - a % 128)
      Dev.hostPut f ep n (d.hostPutLine f a (bs.take k) ep) (a + k) (bs.drop k)

/-- A posted write of BAR2 (R342, R351). -/
def hostBar2WriteEffect (f a : Nat) (bs : List Byte) (ep : Bool) (d : Dev) : Dev :=
  if !d.barOn f || decide (2 ^ (30 + (d.fn f).bar2) < a + bs.length) then d
  else if !d.mapped (fnWho f) false a bs.length then d.hostUnmapped f 0x61 a
  else if !d.mapped (fnWho f) true a bs.length then d.hstCause f 0x9205 4 0x61 a (some .unsupported)
  else
    let d1 := Dev.hostPut f ep (lineBound bs.length) d a bs
    if ep then d1.hstCause f 0x9203 2 0x61 a (some .poisonedTlp) else d1

/-- An AtomicOp of BAR2: `op` 0 FetchAdd, 1 Swap, 2 CAS, of `size` bytes (R339, R342). It waits as a read does. -/
def hostAtomicopEffect (f a size op x compare : Nat) (d : Dev) : Dev :=
  let ur (d : Dev) : Dev := d.emit (.completion f 1 false [])
  if d.writesWait f then d.hostHold (.atomic f a size op x compare)
  else if !d.barOn f then ur d
  else if 2 ^ (30 + (d.fn f).bar2) < a + size then d
  else match d.access (fnWho f) a with
    | none => ur (d.hostUnmapped f 0x62 a)
    | some l =>
      if l.ro then ur (d.hstCause f 0x9205 4 0x62 a (some .unsupported))
      else if size ≠ 4 ∨ a % 4 ≠ 0 then ur (d.hstCause f 0x9208 7 0x62 a (some .unsupported))
      else
        let fn := if op = 0 then 0x10 else if op = 1 then 0x1B else 0x1C
        match d.cohAtomic l a fn (a % 128) (if op = 2 then compare else x) x with
        | .wait => (d.fillWait 1 a).hostHold (.atomic f a size op x compare)
        | .lost => (d.hostHomeLost l.die 0x62 a).emit (.completion f 0 true (List.replicate 4 0xFF))
        | .ok d1 v poison =>
          if poison then (d1.hstCause f 0x9207 6 0x62 a (some .internal)).emit (.completion f 0 true (List.replicate 4 0xFF))
          else d1.emit (.completion f 0 false (leBytes (v.toNat % 2 ^ 32) 4))

/-- A malformed TLP, discarded, or an unsupported request, completed with UR where it is `nonPosted` (R350). -/
def malformedTlpEffect (f : Nat) (malformed nonPosted : Bool) (d : Dev) : Dev :=
  let d1 := d.hstCause f 0x9208 7 0 0 (some (if malformed then .malformed else .unsupported))
  if !malformed && nonPosted then d1.emit (.completion f 1 false []) else d1

/-! ### Configuration (R341, R347) -/

/-- A change of BAR2 size takes effect only while Memory Space Enable is clear; the virtual functions have one size. -/
def bar2ResizeEffect (f log2 : Nat) (d : Dev) : Dev :=
  if (d.fn f).memEn then d
  else if f = 0 then d.modFn 0 fun x => { x with bar2 := log2 }
  else (List.range 8).foldl (fun d k => d.modFn (k + 1) fun x => { x with bar2 := log2 }) d

def d3hotEntryEffect (f : Nat) (d : Dev) : Dev := d.modFn f fun x => { x with d3 := true }
def d0ReturnEffect (f : Nat) (d : Dev) : Dev := (d.modFn f fun x => { x with d3 := false }).releaseHeld f

/-- A pending vector that is masked no longer sends its one message. -/
def Dev.vecRelease (d : Dev) (f v : Nat) : Dev :=
  let x := d.vec f v
  if x.pend && !x.mask && !(d.fn f).msixMask && (d.fn f).msixEn && d.fnOn f then
    let d1 := d.setVec f v { x with pend := false }
    if (d.fn f).d3 then { d1 with heldMsgs := d1.heldMsgs ++ [(f, .event v)] } else d1.emit (.msix f x.addr x.data)
  else d

/-- A vector's mask bit is cleared. -/
def Dev.vecUnmask (d : Dev) (f v : Nat) : Dev := (d.setVec f v { d.vec f v with mask := false }).vecRelease f v
/-- The function's mask bit is cleared. -/
def Dev.fnUnmask (d : Dev) (f : Nat) : Dev :=
  ((d.msix.keys.filter fun k => k / 2048 == f).map (· % 2048)).foldl (fun d v => d.vecRelease f v) (d.modFn f fun x => { x with msixMask := false })

/-- A vector, or where `v` is none the whole function, is unmasked. -/
def msixUnmaskEffect (f : Nat) (v : Option (Fin 2048)) (d : Dev) : Dev :=
  match v with
  | some v => if v < d.vecCount f then d.vecUnmask f v else d
  | none => d.fnUnmask f

/-! ### The link (R339, R350) -/

/-- The data link layer comes up at 2^`width` lanes and rate `speed` + 1; without Flit mode at most at 32.0 GT/s. -/
def hostLinkUpEffect (width speed : Nat) (flit : Bool) (d : Dev) : Dev :=
  if d.board.perst || (!flit && decide (5 < speed + 1)) then d
  else d.setReg .hstLinkStatus [] (BitVec.ofNat 32 (2 ^ width * 2 ^ 16 + (speed + 1) * 2 ^ 8 + b2n flit * 2 ^ 4 + 1))

/-- A corrected error of the link: counted as an FEC correction, or as a replay or receiver error. -/
def linkCorrectableErrorEffect (e : LinkErr) (d : Dev) : Dev :=
  let a : AerErr := match e with
    | .fec | .receiver => .receiver
    | .replayTimer => .replayTimer
    | .badTlp => .badTlp
    | .badDllp => .badDllp
  (d.hstCause 0 0x9201 0 0 0 (some a)).count .hstCeCount [] (if e = .fec then 31 else 15) (if e = .fec then 16 else 0)

/-! ### The commands -/

section
variable (f : FnIx) (s : State)

def execHostBar2Read (a : BitVec 44) (n : Fin 4097) (s : State) := s.runAsk f (hostBar2ReadEffect f a.toNat n)
def execHostBar2Write (a : BitVec 44) (bs : List Byte) (ep : Bool) (s : State) := s.runLive (hostBar2WriteEffect f a.toNat bs ep)
def execHostAtomicop (a : BitVec 44) (size : Fin 17) (op : Fin 3) (x compare : W32) (s : State) :=
  s.runAsk f (hostAtomicopEffect f a.toNat size op x.toNat compare.toNat)
def execMalformedTlp (malformed nonPosted : Bool) (s : State) := s.runLive (malformedTlpEffect f malformed nonPosted)
def execBar2Resize (log2 : Fin 11) (s : State) := s.runLive (bar2ResizeEffect f log2)
def execD3hotEntry := s.runLive (d3hotEntryEffect f)
def execD0Return := s.runLive (d0ReturnEffect f)
def execMsixUnmask (v : Option (Fin 2048)) (s : State) := s.runLive (msixUnmaskEffect f v)
def execHostLinkUp (width : Fin 5) (speed : Fin 7) (flit : Bool) (s : State) := s.runOn (hostLinkUpEffect width speed flit)
def execLinkCorrectableError (e : LinkErr) (s : State) := s.runLive (linkCorrectableErrorEffect e)
end

end Sys2Proof.Machine
end

