-- ==== Sys2Proof/Machine/Manage.lean ====
section
/-! DEFINITION. The management header J5 and the test access header J6 (R26 to R28): I3C address assignment, PLDM, SPDM (R463, R464), debug unlock
(R474) and firmware update (R473). A reply is `OutMsg.mgmt` with its kind and the data that the manual gives it. -/

namespace Sys2Proof.Machine

/-- Kinds of reply beside the response codes of SPDM: what a test access port's instruction and data registers shift out, the I3C
provisional ID, and PLDM. -/
def kIr : Nat := 0x101
def kDr : Nat := 0x100
def kPid : Nat := 0x110
def kSensor : Nat := 0x120
def kEvent : Nat := 0x121
def kFru : Nat := 0x122
def kUpdate : Nat := 0x123

def Dev.reply (d : Dev) (kind : Nat) (bs : List Byte) : Dev := d.emit (.mgmt kind bs)

/-- The recovery state answers only FRU data and firmware update (R461). -/
def Dev.recovering (d : Dev) : Bool := d.regBit .secStatus [] 26

/-! ### J6 (R28) -/

/-- A test access port is live: the IOD's, and that of a compute die that is powered and not fenced. -/
def Dev.tapLive (d : Dev) (t : Nat) : Bool := t == 0 || (d.die (t - 1)).st == 1 || (d.die (t - 1)).st == 2

/-- Load an instruction: what the instruction register captured shifts out, and one that the port does not offer acts as BYPASS, 0. -/
def Dev.tap (d : Dev) (t i : Nat) : Dev :=
  let live := d.tapLive t
  ({ d with taps := d.taps.set t (if live then i else 0) } : Dev).reply kIr [if live then 0x01 else 0x05]

def bypassEffect (t : Nat) (d : Dev) : Dev := d.tap t 0
/-- IDCODE: the identification code of stepping B0. -/
def idcodeEffect (t : Nat) (d : Dev) : Dev :=
  let d1 := d.tap t 1
  if d.tapLive t then d1.reply kDr (leBytes (if t = 0 then 0x1E824C4B else 0x1E824C49) 4) else d1
def samplePreloadEffect (t : Nat) (d : Dev) : Dev := d.tap t 2
/-- EXTEST acts as BYPASS once the boot lock is taken. -/
def extestEffect (t : Nat) (d : Dev) : Dev := d.tap t (if d.regBit .secStatus [] 31 then 0 else 3)
/-- A debug instruction acts as BYPASS until the unlock is granted. -/
def debugInstructionEffect (t : Nat) (d : Dev) : Dev := d.tap t (if d.regBit .secStatus [] 30 then 4 else 0)

/-! ### I3C and PLDM (R27, R36) -/

/-- ENTDAA: the provisional ID, whose low 32 bits are those of the serial number; its upper 16 bits are a free value. -/
def entdaaEffect (a : Nat) (d : Dev) : Dev :=
  (({ d with i3cAddr := some a } : Dev).reply kPid (leBytes Config.serial.toNat 4 ++ [Config.freeByte d.free 0, Config.freeByte d.free 1])).tickFree

/-- A sensing point's reading, or the oldest event not yet read. -/
def pldmPlatformRequestEffect (x : PldmAsk) (d : Dev) : Dev :=
  if d.recovering then d
  else match x with
    | .sensor n => d.reply kSensor (leBytes (d.reg .pwrSens [n]).toNat 4)
    | .event => match d.pldm with
      | [] => d.reply kEvent []
      | e :: rest => ({ d with pldm := rest } : Dev).reply kEvent (leBytes e.1 2 ++ leBytes e.2 2)

/-- The ordering code in ASCII. -/
def orderingCode : List Byte := [0x4D, 0x59, 0x4D, 0x2D, 0x45, 0x5A, 0x38, 0x2D, 0x31, 0x54, 0x2D, 0x4C, 0x43]

/-- The ordering code, the stepping and the serial number. -/
def pldmFruRequestEffect (d : Dev) : Dev := d.reply kFru (orderingCode ++ [0x10] ++ leBytes Config.serial.toNat 8)

/-- MGMT_ALERT_N is low (R26, R31, R461), and THERM_TRIP_N (R454). -/
def Dev.alertLow (d : Dev) : Bool := d.on && (!d.pldm.isEmpty || d.recovering)
def Dev.tripLow (d : Dev) : Bool := d.board.swOn && d.tripped

/-- J1 outputs held low (R20): CLKREQ_N whenever the always-on domain is powered, WAKE_N never. -/
def Dev.clkreqLow (d : Dev) : Bool := d.board.swOn
def Dev.wakeLow (_d : Dev) : Bool := false

/-! ### SPDM (R463, R464) -/

/-- An ERROR response. -/
def Dev.spdmError (d : Dev) (code : Byte) : Dev := d.reply 0x7F [code]

/-- Serve a request that arrived over Data Object Exchange or over J5: Busy while one of the other transport is being served. -/
def Dev.spdm (d : Dev) (doe busy : Bool) (f : Dev → Dev) : Dev :=
  if d.recovering || (doe && !d.live) then d else if busy then d.spdmError 0x03 else f d

/-- The identity key is there. -/
def Dev.identity (d : Dev) : Bool := d.regBit .secStatus [] 29

/-- A signature over what the reply says: 64 bytes that depend on the key and on chance. -/
def Dev.signature (d : Dev) : List Byte := (List.range 64).map (Config.freeByte d.free)

def certChain : List Byte := (List.range (Config.certLen % 16385)).map Config.certByte

def getVersionEffect (doe busy : Bool) (d : Dev) : Dev := d.spdm doe busy fun d => d.reply 0x04 [0x12]
/-- CERT_CAP, CHAL_CAP, and MEAS_CAP with signatures. -/
def getCapabilitiesEffect (doe busy : Bool) (d : Dev) : Dev := d.spdm doe busy fun d => d.reply 0x61 (leBytes 0x16 4)

/-- A negotiation: which of SM2_P256 and SM3_256 the requester offers. -/
def negotiateAlgorithmsEffect (doe busy sm2 sm3h : Bool) (d : Dev) : Dev := d.spdm doe busy fun d =>
  if !sm2 && !sm3h then d.spdmError 0x01 else ({ d with spdmAlgs := some (sm2, sm3h) } : Dev).reply 0x63 [BitVec.ofNat 8 (b2n sm2), BitVec.ofNat 8 (b2n sm3h)]

/-- The digest of the chain in certificate slot 0. -/
def getDigestsEffect (doe busy : Bool) (d : Dev) : Dev := d.spdm doe busy fun d => d.reply 0x01 (sm3 certChain)

/-- Part of the certificate chain; another slot has none. -/
def getCertificateEffect (doe busy : Bool) (slot off n : Nat) (d : Dev) : Dev := d.spdm doe busy fun d =>
  if !d.identity then d.spdmError 0x05 else if slot ≠ 0 then d.spdmError 0x01 else d.reply 0x02 ((certChain.drop off).take n)

def challengeEffect (doe busy : Bool) (d : Dev) : Dev := d.spdm doe busy fun d =>
  if !d.identity then d.spdmError 0x05 else (d.reply 0x03 (sm3 certChain ++ d.signature)).tickFree

/-- Measurement `i`: an SM3 digest. -/
def Dev.measurement (d : Dev) (i : Nat) : List Byte :=
  let seq := match d.board.booted with
    | some b => (d.flash.slot b).seq
    | none => 0
  match i with
  | 7 => (List.range 32).map (Config.imageDigest 7 (leNat (d.measured.getD 3 [])))
  | 8 => sm3 (d.measured.getD 0 [])
  | 9 => sm3 (d.measured.getD 1 [])
  | 10 => sm3 [if d.regBit .secStatus [] 30 then 1 else 0]
  | 11 => sm3 (d.measured.getD 2 [])
  | _ => (List.range 32).map (Config.imageDigest i seq)

/-- Index 0 asks how many there are, 1 to 11 for one of them, 0xFF for all. -/
def getMeasurementsEffect (doe busy : Bool) (i : Nat) (signed : Bool) (d : Dev) : Dev := d.spdm doe busy fun d =>
  if signed && !d.identity then d.spdmError 0x05
  else if 11 < i ∧ i ≠ 0xFF then d.spdmError 0x01
  else
    let body := if i = 0 then [11] else if i = 0xFF then (List.range 11).flatMap fun k => d.measurement (k + 1) else d.measurement i
    if signed then (d.reply 0x60 (body ++ d.signature)).tickFree else d.reply 0x60 body

/-! ### Debug unlock (R474) -/

/-- A fresh nonce, which cancels the one before. -/
def debugNonceRequestEffect (d : Dev) : Dev :=
  if d.recovering then d
  else (({ d with nonce := some d.free } : Dev).reply 0x7E ((List.range 32).map (Config.freeByte d.free))).tickFree

/-- A token, whose signature over the serial number and the pending nonce verifies or not. -/
def debugTokenEffect (good : Bool) (d : Dev) : Dev :=
  if d.recovering then d
  else
    let d1 : Dev := { d with nonce := none }
    if good && d.nonce.isSome then d1.setRegBit .secStatus [] 30 else d1.secCause 0x8106 5 0

/-! ### Firmware update (R473) -/

/-- The slot that an update writes: the one that did not boot; slot A where none has. -/
def Dev.updateSlot (d : Dev) : Bool :=
  match d.board.booted with
  | some b => !b
  | none => false

/-- The SVN of a type in the booted slot. -/
def Dev.bootedSvn (d : Dev) (ty : Nat) : Nat :=
  match d.board.booted with
  | some b => (((d.flash.slot b).image ty).map fun x => x.svn).getD 0
  | none => 0

/-- Write an image of the slot under update, whose STATE is EMPTY meanwhile and whose SEQ follows the booted slot's. -/
def Dev.putImage (d : Dev) (b fresh : Bool) (x : FwImage) : Dev :=
  let seq := match d.board.booted with
    | some o => (d.flash.slot o).seq + 1
    | none => (d.flash.slot b).seq
  let old := if fresh then [] else ((d.flash.slot b).imgs.filter fun y => y.ty != x.ty)
  { d with flash := d.flash.setSlot b { seq := seq % 2 ^ 32, st := 0, imgs := old ++ [x] } }

/-- A component arrives, is written and verified, trims to their backup copy first; the reply is a PLDM completion code: 0x80 no update in progress, 0x81 one in progress. -/
def firmwareUpdateComponentEffect (c : Component) (d : Dev) : Dev :=
  let b := d.updateSlot
  if d.recovering && d.regBit .secErrStatus [] 6 then d.reply kUpdate [0x01]
  else if c.start && d.update.isSome then d.reply kUpdate [0x81]
  else if !c.start && d.update.isNone then d.reply kUpdate [0x80]
  else if !(c.ty ∈ [1, 2, 3, 4, 5, 0x10, 0x20]) then d.reply kUpdate [0x01]
  else if !c.good || c.svn < d.bootedSvn c.ty then
    let d1 : Dev := { d with
      update := some (d.update.getD { slot := b })
      flash := if c.ty = 0x20 ∧ !c.good then { d.flash with trimsBackup := c.svn } else d.flash }
    (d1.secCause 0x8101 0 (slotBase b + c.off)).reply kUpdate [0x01]
  else
    let u := d.update.getD { slot := b }
    let d1 : Dev := { d with update := some { u with got := u.got ++ [c.ty] } }
    let d2 : Dev :=
      if c.ty = 0x20 then { d1 with flash := { d1.flash with trims := c.svn, trimsBackup := c.svn } }
      else d1.putImage b (u.got.all (· == 0x20)) { ty := c.ty, off := c.off, size := c.size, svn := c.svn, body := if c.ty = 0x10 then c.body else [] }
    d2.reply kUpdate [0x00]

/-- ActivateFirmware: what the package does not carry is copied from the booted slot, and the new slot is PENDING. -/
def activateFirmwareEffect (d : Dev) : Dev :=
  match d.update with
  | none => d.reply kUpdate [0x80]
  | some u =>
    let x := d.flash.slot u.slot
    let fresh := u.got.all (· == 0x20)
    let mine := if fresh then [] else x.imgs
    let more := match d.board.booted with
      | some o => (d.flash.slot o).imgs.filter fun y => !(mine.any fun z => z.ty == y.ty)
      | none => []
    let seq := match d.board.booted with
      | some o => (d.flash.slot o).seq + 1
      | none => x.seq
    if fresh && !u.got.isEmpty then ({ d with update := none } : Dev).reply kUpdate [0x00]
    else ({ d with update := none, flash := d.flash.setSlot u.slot { seq := seq % 2 ^ 32, st := 1, imgs := mine ++ more } } : Dev).reply kUpdate [0x00]

/-! ### The commands -/

section
variable (t : Fin 9) (doe busy : Bool) (s : State)

def execBypass := s.runOn (bypassEffect t)
def execIdcode := s.runOn (idcodeEffect t)
def execSamplePreload := s.runOn (samplePreloadEffect t)
def execExtest := s.runOn (extestEffect t)
def execDebugInstruction := s.runOn (debugInstructionEffect t)
def execEntdaa (a : Fin 128) (s : State) := s.runOn (entdaaEffect a)
def execPldmPlatformRequest (x : PldmAsk) (s : State) := s.runOn (pldmPlatformRequestEffect x)
def execPldmFruRequest := s.runOn pldmFruRequestEffect
def execGetVersion := s.runOn (getVersionEffect doe busy)
def execGetCapabilities := s.runOn (getCapabilitiesEffect doe busy)
def execNegotiateAlgorithms (sm2 sm3h : Bool) (s : State) := s.runOn (negotiateAlgorithmsEffect doe busy sm2 sm3h)
def execGetDigests := s.runOn (getDigestsEffect doe busy)
def execGetCertificate (slot : Fin 8) (off n : Fin 65536) (s : State) := s.runOn (getCertificateEffect doe busy slot off n)
def execChallenge := s.runOn (challengeEffect doe busy)
def execGetMeasurements (i : Fin 256) (signed : Bool) (s : State) := s.runOn (getMeasurementsEffect doe busy i signed)
def execDebugNonceRequest := s.runOn debugNonceRequestEffect
def execDebugToken (good : Bool) (s : State) := s.runOn (debugTokenEffect good)
def execFirmwareUpdateComponent (c : Component) (s : State) := s.runOn (firmwareUpdateComponentEffect c)
def execActivateFirmware := s.runOn activateFirmwareEffect
end

end Sys2Proof.Machine
end

