-- ==== Sys2Proof/Machine/Module.lean ====
section
/-! DEFINITION. The module (R22 to R32): its input switch, bus pin and power-disable pin, the cables' supplies, coolant and board sensors, and the
reset of the management island (R458). -/

namespace Sys2Proof.Machine

def Dev.modBoard (d : Dev) (f : Board → Board) : Dev := { d with board := f d.board }

/-! ### The input switch (R24 to R26, R447) -/

/-- Both start conditions hold: the 20 ms of the start delay begin (R24); not while PWR_DIS is high (R26). -/
def Dev.startCheck (d : Dev) : Dev :=
  if d.board.mated && d.board.risen && !d.board.swOn && !d.board.pwrDis then d.modBoard fun b => { b with starting := true } else d

/-- The switch opens: all device state is lost. -/
def Dev.switchOpen (d : Dev) : Dev := if d.board.swOn then d.powerLost else d.modBoard fun b => { b with starting := false }

def inputRiseAboveTurnOnEffect (d : Dev) : Dev := (d.modBoard fun b => { b with risen := true }).startCheck
def busPrsntMateEffect (d : Dev) : Dev := (d.modBoard fun b => { b with mated := true }).startCheck
def inputSwitchCloseDelayEffect (f : BootFind) (d : Dev) : Dev := if d.board.starting then d.coldBoot f else d

/-- Above 63 V: cause 0x7C04 once per excursion. -/
def inputOverVoltageWarningEffect (d : Dev) : Dev :=
  if d.board.ovExc then d else (d.modBoard fun b => { b with ovExc := true }).modCause7 0x7C04 0
def overVoltageWarningEndEffect (d : Dev) : Dev := (d.modBoard fun b => { b with ovExc := false }).modCauseEnd 0x7C04

/-- Above 66 V the switch opens, and OV_TRIP latches. -/
def inputOverVoltageDisconnectEffect (d : Dev) : Dev := if d.board.swOn then d.switchOpen.modBoard fun b => { b with ovTrip := true } else d

/-- BUS_PRSNT_N breaks: the switch opens (R25). -/
def busPrsntBreakEffect (d : Dev) : Dev := d.switchOpen.modBoard fun b => { b with mated := false }
def pwrDisAssertEffect (d : Dev) : Dev := d.switchOpen.modBoard fun b => { b with pwrDis := true }
def pwrDisReleaseEffect (d : Dev) : Dev := if d.board.pwrDis then (d.modBoard fun b => { b with pwrDis := false }).startCheck else d

/-- Below 46 V the switch opens and the event is latched; it closes again only once the input has risen above 53.0 V (R24, R447). -/
def brownOutEffect (d : Dev) : Dev :=
  let on := d.board.swOn
  d.switchOpen.modBoard fun b => { b with risen := false, brownOut := b.brownOut || on }

/-- A management island reset keeps all that R459 names, and whatever it does not name. -/
def mgmtRstEffect (d : Dev) : Dev := d

/-! ### Cables (R22) -/

def Dev.cable (d : Dev) (j : Nat) : Cable := d.board.cables.getD j {}
def Dev.setCable (d : Dev) (j : Nat) (c : Cable) : Dev := d.modBoard fun b => { b with cables := b.cables.set j c }

/-- The connector, 2 or 3, of a fabric port (R21). -/
def Dev.portConnector (d : Dev) (p : Nat) : Nat := 2 + p * (48 / d.portCount) / 24

/-- A cable is mated: its supply switches on, and ports that its lane order had kept out train again (R22, R369). -/
def cableMateEffect (j : Nat) (d : Dev) : Dev :=
  let c := d.cable j
  let d1 := d.setCable j { c with mated := true, supply := d.board.swOn && !c.latched }
  if d.live then
    (List.range 24).foldl (fun d p => if d.portConnector p = j ∧ (d.port p).st = 1 ∧ (d.port p).why = 2 then d.portStart p else d) d1
  else d1

/-- A cable is removed: its supply switches off, and an overload no longer holds it off. -/
def cableRemoveEffect (j : Nat) (d : Dev) : Dev := d.setCable j {}

/-- CBL_3V3 reaches its current limit; the access type gives the connector. -/
def cableSupplyOverloadEffect (j : Nat) (d : Dev) : Dev :=
  let c := d.cable j
  if c.supply then (d.setCable j { c with supply := false, latched := true }).modCause7 0x7C06 j else d

/-! ### Coolant and board (R32) -/

/-- A module cause that has not asserted yet. -/
def Dev.modCauseOnce (d : Dev) (code : Nat) : Dev := if d.modCauses.contains code then d else d.modCause7 code 0

def coolantLeakEffect (d : Dev) : Dev := d.modCauseOnce 0x7C01

/-- A reading of a module point, which raises the point's cause where it is over that cause's limit. DESIGN CHOICE (log 76): a point that has
failed raises none of the causes of this section; the manual says only that it is ignored for throttle and trip (R453). -/
def Dev.modSensed (d : Dev) (n code : Nat) (t : BitVec 16) (hot : Bool) : Dev :=
  let d1 := d.sensed n t
  if hot && !d1.sensFailed n then d1.modCauseOnce code else d1

/-- The inlet sensor has been above 40 °C for 1 s. -/
def coolantInletHotEffect (t : BitVec 16) (d : Dev) : Dev := d.modSensed 568 0x7C02 t (decide (320 < t.toInt))
/-- Outlet minus inlet has been above 40 K for 1 s. -/
def coolantRiseHighEffect (t : BitVec 16) (d : Dev) : Dev := d.modSensed 569 0x7C03 t (decide (320 < d.coolantRise t))
/-- A regulator, J4, flash or J1 sensor, `k` from 0 in the order of R31, exceeds 100 °C. -/
def moduleBoardHotEffect (k : Nat) (t : BitVec 16) (d : Dev) : Dev := d.modSensed (570 + k) 0x7C07 t (decide (800 < t.toInt))

/-! ### The commands -/

section
variable (t : BitVec 16) (s : State)

def execInputRiseAboveTurnOn := s.run inputRiseAboveTurnOnEffect
def execBusPrsntMate := s.run busPrsntMateEffect
def execInputSwitchCloseDelay (f : BootFind) (s : State) := s.run (inputSwitchCloseDelayEffect f)
def execInputOverVoltageWarning := s.runOn inputOverVoltageWarningEffect
def execOverVoltageWarningEnd := s.runOn overVoltageWarningEndEffect
def execInputOverVoltageDisconnect := s.run inputOverVoltageDisconnectEffect
def execBusPrsntBreak := s.run busPrsntBreakEffect
def execPwrDisAssert := s.run pwrDisAssertEffect
def execPwrDisRelease := s.run pwrDisReleaseEffect
def execBrownOut := s.run brownOutEffect
def execMgmtRst := s.runOn mgmtRstEffect
def execCableMate (j : Bool) (s : State) := s.run (cableMateEffect (if j then 3 else 2))
def execCableRemove (j : Bool) (s : State) := s.run (cableRemoveEffect (if j then 3 else 2))
def execCableSupplyOverload (j : Bool) (s : State) := s.runOn (cableSupplyOverloadEffect (if j then 3 else 2))
def execCoolantLeak := s.runOn coolantLeakEffect
def execCoolantInletHot := s.runOn (coolantInletHotEffect t)
def execCoolantRiseHigh := s.runOn (coolantRiseHighEffect t)
def execModuleBoardHot (k : Fin 6) (t : BitVec 16) (s : State) := s.runOn (moduleBoardHotEffect k t)
end

end Sys2Proof.Machine
end

