-- ==== Sys2Proof/Machine/HostConfig.lean ====
section
/-! DEFINITION. The configuration space of the functions (R339 to R343, R347 to R349): what the functions are and support, what its
fields hold, and its writes. The table has no row for a configuration read: `Dev.cfgValue` is what one returns. -/

namespace Sys2Proof.Machine

/-! ### What the link and the functions support (R339) -/

/-- Rates in tenths of GT/s, and widths in lanes. -/
def hostRates : List Nat := [25, 50, 80, 160, 320, 640, 1280]
def hostWidths : List Nat := [16, 8, 4, 2, 1]
/-- Widths that L0p moves between; the device runs at a width with no other effect that it has. -/
def l0pWidths : List Nat := [16, 8, 4, 2]
/-- Non-posted requests of the device outstanding at most. -/
def hostTags : Nat := 1024

/-- The capabilities that a function may advertise. -/
inductive HostCap where
  | pciExpress | powerManagement | msix | flit | l0p | flr | atomicCompleter32 | aer | ari | sriov | resizableBar | vfResizableBar | doe
deriving DecidableEq, Repr

/-- The capabilities that function `f` advertises; no other is supported (R339, R341, R343 to R347). -/
def fnCaps (f : Nat) : List HostCap :=
  [.pciExpress, .powerManagement, .msix, .flr, .atomicCompleter32, .aer, .ari] ++
    if f = 0 then [.flit, .l0p, .sriov, .resizableBar, .vfResizableBar, .doe] else []

/-! ### What the fields hold (R340, R341, R343) -/

/-- Fields of a function's configuration space. -/
inductive CfgField where
  | vendorId | deviceId | revisionId | classCode | subsystemVendorId | subsystemId
  | bar (i : Fin 6)
  | maxPayload | maxReadRequest | completionTimeout | enableRelaxedOrdering | memorySpaceEnable
  | aerMasked (e : AerErr) | aerSeverityFatal (e : AerErr)
  | initialVfs | totalVfs | numVfs | firstVfOffset | vfStride | vfDeviceId | supportedPageSizes | vfMigration | vfEnable
deriving DecidableEq, Repr

/-- BAR `i` of a function: the address that the host has given it above the bits of its type, 64-bit and for BAR2 prefetchable; BAR4 and BAR5
are not implemented (R341). A virtual function's are those of the SR-IOV capability. -/
def Dev.barWord (d : Dev) (f i : Nat) : Nat :=
  let x := d.fn f
  let size0 := if f = 0 then 2 ^ 26 else 2 ^ 20
  let a0 := x.bar0 / size0 * size0
  let a2 := x.bar2Base / 2 ^ (30 + x.bar2) * 2 ^ (30 + x.bar2)
  match i with
  | 0 => a0 % 2 ^ 32 + 0x4
  | 1 => a0 / 2 ^ 32
  | 2 => a2 % 2 ^ 32 + 0xC
  | 3 => a2 / 2 ^ 32
  | _ => 0

/-- What a field of function `f` holds. The SR-IOV fields are the physical function's. -/
def Dev.cfgValue (d : Dev) (f : Nat) (x : CfgField) : Nat :=
  match x with
  | .vendorId => 0x1F6D
  | .deviceId => if f = 0 then 0x4C38 else 0x4C39
  | .revisionId => fld (d.reg .secStep []) 7 0
  | .classCode => 0x120000
  | .subsystemVendorId => 0x1F6D
  | .subsystemId => 0x0001
  | .bar i => d.barWord f i
  | .maxPayload => (d.fn f).mps
  | .maxReadRequest => (d.fn f).mrrs
  | .completionTimeout => (d.fn f).cto
  | .enableRelaxedOrdering => b2n (d.fn f).roEn
  | .memorySpaceEnable => b2n (d.fn f).memEn
  | .aerMasked e => b2n ((d.fn f).aerMask.contains e)
  | .aerSeverityFatal e => b2n ((d.fn f).aerFatal.contains e)
  | .initialVfs | .totalVfs => if f = 0 then d.instN else 0
  | .numVfs => if f = 0 then d.numVfs else 0
  | .firstVfOffset | .vfStride => if f = 0 then 1 else 0
  | .vfDeviceId => if f = 0 then 0x4C39 else 0
  | .supportedPageSizes => if f = 0 then 0x1FF else 0
  | .vfMigration => 0
  | .vfEnable => if f = 0 then b2n d.vfEnable else 0

/-! ### Writes -/

/-- A write of a bit of a function's configuration space; the virtual functions share Memory Space Enable (R341, R347, R348, R350). -/
def Dev.cfgWrite (d : Dev) (f : Nat) (b : CfgBit) (v : Bool) : Dev :=
  if !d.fnOn f then d
  else match b with
    | .memEn =>
      if f = 0 then d.modFn 0 fun x => { x with memEn := v }
      else (List.range 8).foldl (fun d k => d.modFn (k + 1) fun x => { x with memEn := v }) d
    | .msixEn => d.modFn f fun x => { x with msixEn := v }
    | .msixMask => if v then d.modFn f fun x => { x with msixMask := true } else d.fnUnmask f
    | .roEn => d.modFn f fun x => { x with roEn := v }
    | .aerMask e => d.modFn f fun x => { x with aerMask := (x.aerMask.filter (· != e)) ++ (if v then [e] else []) }
    | .aerFatal e =>
      if e.correctable then d else d.modFn f fun x => { x with aerFatal := (x.aerFatal.filter (· != e)) ++ (if v then [e] else []) }

/-- A write of a number of a function's configuration space: a size beyond those supported is not taken, and the virtual functions have one
BAR0 and one BAR2 (R339, R341, R349). -/
def Dev.cfgNumWrite (d : Dev) (f : Nat) (x : CfgNum) (v : Nat) : Dev :=
  let all (g : HostFn → HostFn) : Dev := if f = 0 then d.modFn 0 g else (List.range 8).foldl (fun d k => d.modFn (k + 1) g) d
  if !d.fnOn f then d
  else match x with
    | .maxPayload => if h : v < 3 then d.modFn f fun y => { y with mps := ⟨v, h⟩ } else d
    | .maxReadRequest => if h : v < 6 then d.modFn f fun y => { y with mrrs := ⟨v, h⟩ } else d
    | .completionTimeout => d.modFn f fun y => { y with cto := v }
    | .bar0 => all fun y => { y with bar0 := v }
    | .bar2 => all fun y => { y with bar2Base := v }

end Sys2Proof.Machine
end

