-- ==== Sys2Proof/Machine/RegLive.lean ====
section
/-! DEFINITION. What registers read as: the stored value, with the fields that show the present state of the device in their place
(R61, R85, R113, R133, R153, R227, R250, R278, R309, R338, R366, R391, R408, R457, R476). -/

namespace Sys2Proof.Machine

/-- Bit `i` of the answer for each `i` below `n`. -/
def bitMask (n : Nat) (p : Nat → Bool) : Nat := (List.range n).foldl (fun m i => m + b2n (p i) * 2 ^ i) 0

/-! ### Bench windows (R61, R85, R113, R133, R153, R227) -/

def benchIdWord (b : Nat) : W32 :=
  BitVec.ofNat 32 (b % 576 % 24 + b % 576 / 24 * 2 ^ 8 + dieOf b * 2 ^ 13 + b * 2 ^ 16)

def Bench.statusWord (bn : Bench) (w : W32) : W32 :=
  setFld (setFld (setFld w 7 4 (bitMask 4 fun n => (bn.ctxN n).valid)) 2 2 (b2n bn.running)) 1 0 (if bn.running then bn.runCtx else 0)

def BenchCtx.partWord (c : BenchCtx) : W32 :=
  if c.valid then BitVec.ofNat 32 (c.partBase + c.partSize * 2 ^ 4 + c.gen % 16 * 2 ^ 12 + b2n c.save * 2 ^ 30 + 2 ^ 31)
  else BitVec.ofNat 32 (c.gen % 16 * 2 ^ 12)

def BenchCtx.istrWord (c : BenchCtx) : W32 :=
  if c.valid then BitVec.ofNat 32 (c.istrBase + c.istrSize * 2 ^ 8 + 2 ^ 31) else 0

/-- A stationary register is loading. -/
def Stationary.loading (s : Stationary) : Bool := s.load.isSome

/-- MRT_STATUS (R85). -/
def Bench.mrtStatusWord (bn : Bench) : W32 :=
  let m := bn.mortise
  BitVec.ofNat 32 (min 7 m.queue.length + b2n (m.head.isSome || m.s0.loading || m.s1.loading || m.setA.phase == .drain || m.setB.phase == .drain) * 2 ^ 3 +
    b2n bn.ctx.chain * 2 ^ 4 + b2n m.s0.ready * 2 ^ 5 + b2n m.s1.ready * 2 ^ 6 + b2n (m.setA.phase != .idle) * 2 ^ 7 +
    b2n (m.setB.phase != .idle) * 2 ^ 8 + b2n m.region.isSome * 2 ^ 9 + m.air % 4 * 2 ^ 10)

/-- PLN_STATUS (R133). -/
def Bench.plnStatusWord (bn : Bench) : W32 :=
  BitVec.ofNat 32 (bn.plane.queue.length % 16 + b2n (!bn.plane.pends.isEmpty || bn.slots.cells.any (!·.2.atoms.isEmpty)) * 2 ^ 4 + b2n bn.ofWaits * 2 ^ 5 +
    bn.outfeed.length % 16 * 2 ^ 6 + bn.plane.vl % 128 * 2 ^ 10)

/-- TGR_STATUS (R153). -/
def Bench.tgrStatusWord (bn : Bench) : W32 :=
  BitVec.ofNat 32 (bitMask 8 bn.slots.has + bitMask 8 (fun s => bn.moves.any (·.slot == s)) * 2 ^ 8 + bn.groups.cells.length % 128 * 2 ^ 16)

def BenchCtx.parkWord (c : BenchCtx) : W32 :=
  if c.valid && c.parkSize != 0 then BitVec.ofNat 32 (c.parkBase % 1024 + c.parkSize % 1024 * 2 ^ 16 + 2 ^ 31) else 0

/-- CLP_STATUS (R227). -/
def Bench.clpStatusWord (bn : Bench) : W32 :=
  match bn.wait with
  | .clamp dev idx _ _ => BitVec.ofNat 32 (idx % 256 + b2n dev * 2 ^ 8 + 2 ^ 9)
  | _ => 0

/-- The counters from `base` up that context `n` owns (R227). -/
def Bench.ownWord (bn : Bench) (n base : Nat) : W32 := BitVec.ofNat 32 (bitMask 32 fun i => bn.clampOwner.find? (base + i) == some n)

/-! ### The other blocks -/

/-- Lines of a slice that a shelf satisfying `p` holds (R278). -/
def Dev.shelfLines (d : Dev) (q : Nat) (p : Nat → Bool) : Nat :=
  ((d.slice q).lines.cells.filter fun c => match c.2.shelf with
    | some s => p s
    | none => false).length

/-- UC_SHQ_COUNT for the shelf and slice that UC_SHQ_SEL names; a slice of a die that is not UP reads 0 (R278, R479). -/
def Dev.shqCount (d : Dev) : Nat :=
  let o := d.regFld .ucShqSel [] 28 25
  let die := d.regFld .ucShqSel [] 10 8
  if 8 < o ∨ (d.die die).st ≠ 2 then 0
  else d.shelfLines (16 * die + d.regFld .ucShqSel [] 3 0) (· == 32 * o + d.regFld .ucShqSel [] 24 20)

/-- The capability record of the I/O die (R238, R240): KIND 2, FEATURES 0, reserved bytes zero, the CRC computed. -/
def iodRecord : List Byte :=
  let body := leBytes 0x52435A45 4 ++ leBytes 1 2 ++ leBytes 1 2 ++ [(2 : Byte)] ++ (List.range 7).map (fun i => Config.iodByte (9 + i)) ++
    leBytes 0 8 ++ (List.range 10).map (fun i => Config.iodByte (0x18 + i)) ++ leBytes 0 6 ++
    (List.range 16).map (fun i => Config.iodByte (0x28 + i)) ++ leBytes 0 4
  body ++ leBytes (crc32 body) 4

/-- CP_STATUS: the quiesced instances, and the four firmware cores (R338). -/
def Dev.cpStatusWord (d : Dev) : W32 := BitVec.ofNat 32 (15 + bitMask 8 d.quiesced.contains * 2 ^ 4)

/-- CP_PSTATE of slot `s` of instance `i` (R338). -/
def Dev.pstateWord (d : Dev) (i s : Nat) : W32 :=
  match d.slots.find? (16 * i + s) with
  | some p => BitVec.ofNat 32 (p.contexts % 2 ^ 15 + b2n (d.slotBusy i s) * 2 ^ 30 + 2 ^ 31)
  | none => 0

/-- FAB_PORTp_STATUS (R391). -/
def Dev.portWord (d : Dev) (p : Nat) : W32 :=
  let x := d.port p
  BitVec.ofNat 32 (x.st + b2n x.direct * 2 ^ 4 + b2n x.activeCbl * 2 ^ 5 + (if x.direct then x.partnerPort % 32 else 0) * 2 ^ 8)

/-- Fabric lane domain `j`, 0 for lanes 0 to 23 on J2, 1 for lanes 24 to 47 on J3, is ON while a port on it is not DISABLED (R437). -/
def Dev.laneDomOn (d : Dev) (j : Nat) : Bool :=
  (List.range d.portCount).any fun p => (d.port p).st != 0 && 2 * p / d.portCount == j

/-- PWR_IOD_DOM, domains in the order of R437, two bits each. -/
def Dev.iodDomWord (d : Dev) : W32 :=
  BitVec.ofNat 32 (2 + 2 * 2 ^ 2 + 2 * 2 ^ 4 + b2n (!d.board.perst) * 2 * 2 ^ 6 + b2n (d.laneDomOn 0) * 2 * 2 ^ 8 + b2n (d.laneDomOn 1) * 2 * 2 ^ 10 +
    2 * 2 ^ 12 + 2 * 2 ^ 14)

/-- PWR_STATUS (R457). -/
def Dev.pwrStatusWord (d : Dev) : W32 :=
  BitVec.ofNat 32 (b2n d.pwr.energy.isSome + b2n (d.pwr.supply != 0) * 2 + b2n d.tripped * 4)

/-- The thermal cap is lowering the die's grant (R452, R457). -/
def Dev.thermLowers (d : Dev) (die : Nat) : Bool :=
  let lim := min (d.opReq die) (d.opCap die)
  let l1 := match d.pwr.dipCap.find? die with
    | some c => min lim c.1
    | none => lim
  decide (d.opGrant die < d.opPick l1)

/-- PWR_DIEd_LIM with the triggers that are active (R457). -/
def Dev.limWord (d : Dev) (die : Nat) : W32 :=
  BitVec.ofNat 32 (d.limLevel die + b2n (d.pwr.supply != 0) * 2 ^ 8 + b2n (d.pwr.curWarn || d.pwr.curLimit) * 2 ^ 9 + b2n d.pwr.energy.isSome * 2 ^ 10 +
    b2n (!(d.thermOf die).isEmpty) * 2 ^ 11 + b2n (!(d.failedOf die).isEmpty) * 2 ^ 12 + b2n (d.thermLowers die) * 2 ^ 13)

/-- SEC_FW: the slot booted, its SEQ, and whether the other one is PENDING (R470, R476). -/
def Dev.fwWord (d : Dev) : W32 :=
  let b := d.board.booted.getD false
  let mine := if b then d.flash.b else d.flash.a
  let other := if b then d.flash.a else d.flash.b
  BitVec.ofNat 32 (b2n b + b2n (other.st == 1) * 2 + mine.seq % 2 ^ 24 * 2 ^ 8)

/-- DRW_INST_STATUS with the fields that the instance count and SR-IOV give (R353, R366). -/
def Dev.instStatusWord (d : Dev) (k : Nat) : W32 :=
  let w := d.reg .drwInstStatus [k]
  if d.instN ≤ k then w
  else setFld (setFld (setFld w 9 7 (8 / d.instN * k)) 6 4 (8 / d.instN - 1)) 2 2 (b2n (d.vfOn k))

/-- The classes whose records a block holds (R408). -/
def Dev.pendWord (d : Dev) (b : FcBlock) : W32 := BitVec.ofNat 32 (bitMask 11 fun c => c != 0 && d.fcValid b c)

/-! ### Every register -/

/-- What register `r` at indices `ix` reads as. -/
def Dev.regLive (d : Dev) (r : RegName) (ix : List Nat) : W32 :=
  let w := d.reg r ix
  let i := ix.headD 0
  let j := (ix.drop 1).headD 0
  match r with
  | .bchId => benchIdWord i
  | .bchSplit => BitVec.ofNat 32 (d.bench i).split
  | .bchStatus => (d.bench i).statusWord w
  | .bchSbStat => setFld w 6 0 (d.bench i).sb.length
  | .bchPart => ((d.bench i).ctxN j).partWord
  | .bchIstr => ((d.bench i).ctxN j).istrWord
  | .mrtStatus => (d.bench i).mrtStatusWord
  | .mrtSrSeed => ((d.bench i).ctxN j).srSeed
  | .mrtSrTile => ((d.bench i).ctxN j).srTile
  | .mrtCtxst => BitVec.ofNat 32 ((d.bench i).ctxN j).ctxst
  | .plnStatus => (d.bench i).plnStatusWord
  | .tgrStatus => (d.bench i).tgrStatusWord
  | .tgrPark => ((d.bench i).ctxN j).parkWord
  | .clpStatus => (d.bench i).clpStatusWord
  | .clpOwnLo => (d.bench i).ownWord j 0
  | .clpOwnHi => (d.bench i).ownWord j 32
  | .clpCtr => (d.bench i).clampVal.getD j 0
  | .datState => setFld w 2 0 (d.die i).st
  | .datCtl => setFld w 0 0 (b2n ((d.die i).st == 3))
  | .datClkStatus => setFld w 1 0 3
  | .datIodcap => BitVec.ofNat 32 (leNat ((iodRecord.drop (4 * i)).take 4))
  | .ucSlStatus => BitVec.ofNat 32 ((d.slice i).pend.length % 256)
  | .ucSlShlines => BitVec.ofNat 32 (d.shelfLines i fun _ => true)
  | .ucShqCount => BitVec.ofNat 32 d.shqCount
  | .hbmWinState => setFld w 0 0 (b2n (d.regBit .hbmWinBase [i] 31 && !w.getLsbD 1))
  | .hbmCtStatus => setFld w 0 0 (b2n ((d.die (i / 16)).st == 2))
  | .cpStatus => d.cpStatusWord
  | .cpPstate => d.pstateWord i j
  | .cpQstate => d.qstateLive i
  | .cpQbudget => BitVec.ofInt 32 (d.queue i).budget
  | .fcDevPend => d.pendWord .dev
  | .fcDiePend => d.pendWord (.die i)
  | .fcViewPend => d.pendWord (.view i)
  | .fcDieSum => setFld w 7 0 (bitMask 8 fun k => fcClasses.any (d.fcValid (.die k)))
  | .fcRcv => setFld w 27 24 (d.rcvRecent i)
  | .fabPortStatus => d.portWord i
  | .fabPeerId => setFld (setFld w 29 28 (d.peer i).st) 21 20 (d.peer i).bulk.slot
  | .drwInstStatus => d.instStatusWord i
  | .pwrStatus => d.pwrStatusWord
  | .pwrEbucket => BitVec.ofNat 32 (min 6000 (d.pwr.bucket / 10000000))
  | .pwrIodDom => d.iodDomWord
  | .pwrDieOp => if d.board.trimsBad then setFld w 18 16 0 else w
  | .pwrDieLim => d.limWord i
  | .secOrder => BitVec.ofNat 32 (leNat ((orderingCode.drop (4 * i)).take 4))
  | .secSerialLo => BitVec.ofNat 32 Config.serial.toNat
  | .secSerialHi => BitVec.ofNat 32 (Config.serial.toNat / 2 ^ 32)
  | .secFw => d.fwWord
  | _ => w

end Sys2Proof.Machine
end

