-- ==== Sys2Proof/Machine/Registers.lean ====
section
/-! DEFINITION. Host accesses to BAR0 (R342, R346, R468, R477 to R483): where an offset leads in each function, what a read returns and
clears, and what a write does to each register (R8, R9, R467). -/

namespace Sys2Proof.Machine

/-- What a BAR0 offset of a function is: a register, by its offset in the physical function; a word of the MSI-X table or of its
pending-bit array; or reserved. `ro` marks a register that the function may only read. -/
inductive Bar0Loc where
  | reg (a : Nat) (ro : Bool)
  | table (v w : Nat)
  | pba (i : Nat)
  | reserved
deriving DecidableEq, Repr

/-- A virtual function's view of its instance `k` (R483); a manager queue's block is reserved to it. -/
def Dev.vfLoc (d : Dev) (k off : Nat) : Bar0Loc :=
  let per := 512 / d.instN
  if 0x1000 ≤ off ∧ off < 0x1A40 then
    if off = 0x1820 then .reserved else .reg (0x00200000 + k * 0x1000 + (off - 0x1000)) false
  else if 0x2000 ≤ off ∧ off < 0x2400 then .reg (0x00304000 + k * 0x400 + (off - 0x2000)) false
  else if 0x3000 ≤ off ∧ off < 0x3100 then .reg (0x00800000 + (16 + 16 * k) * 0x10 + (off - 0x3000)) true
  else if 0x4000 ≤ off ∧ off < 0x4040 then .reg (0x00104000 + 16 * k * 4 + (off - 0x4000)) true
  else if 0x8000 ≤ off ∧ off < 0x8000 + per * 0x40 then
    let q := k * per + (off - 0x8000) / 0x40
    if d.queueMgr q then .reserved else .reg (0x00108000 + q * 0x40 + (off - 0x8000) % 0x40) false
  else if 0xF0000 ≤ off ∧ off < 0xF0000 + (per + 16) * 16 then .table ((off - 0xF0000) / 16) (off % 16 / 4)
  else if 0xF8000 ≤ off ∧ off < 0xF8000 + (per + 16 + 63) / 64 * 8 then .pba ((off - 0xF8000) / 4)
  else .reserved

/-- Where BAR0 offset `off` of function `f` leads (R346, R480, R483). -/
def Dev.bar0Loc (d : Dev) (f off : Nat) : Bar0Loc :=
  if f = 0 then
    if 0x4000 ≤ off ∧ off < 0xC000 then .table ((off - 0x4000) / 16) (off % 16 / 4)
    else if 0xC000 ≤ off ∧ off < 0xC100 then .pba ((off - 0xC000) / 4)
    else .reg off false
  else d.vfLoc (f - 1) off

/-- Bytes of a function's BAR0 (R341). -/
def bar0Size (f : Nat) : Nat := if f = 0 then 2 ^ 26 else 2 ^ 20

/-- The accesses that BAR0 accepts: 4 bytes and naturally aligned 8 bytes (R342). -/
def bar0Ok (off n : Nat) : Bool := (n == 4 && off % 4 == 0) || (n == 8 && off % 8 == 0)

/-- A die's own register while the die is not UP: it reads 0 and discards writes (R479). -/
def Dev.regHidden (d : Dev) (a : Nat) : Bool := (List.range 8).any fun i => (d.die i).st != 2 && dieOwnReg i a

/-- The bits of a register with an access code. -/
def RegName.accMask (r : RegName) (x : Access) : W32 :=
  BitVec.ofNat 32 ((r.fields.filter fun f => f.acc == x).foldl (fun w f => w + (2 ^ (f.hi + 1 - f.lo) - 1) <<< f.lo) 0)

/-- A register has a field that a read clears. -/
def RegName.readClears (r : RegName) : Bool := r.fields.any fun f => f.acc == .rc

/-! ### The filter (R468) -/

/-- RIGHT of the lowest-numbered valid entry whose range holds the offset; read-write where none does. The reserved value 3 acts as
one of the three, which one being a value of Config. -/
def Dev.rafRight (d : Dev) (off : Nat) : Nat :=
  match (List.range 32).find? fun e => d.regBit .secRafBase [e] 31 && decide (d.regFld .secRafBase [e] 13 0 ≤ off / 4096) &&
      decide (off / 4096 ≤ d.regFld .secRafLimit [e] 13 0) with
  | some e =>
    let v := d.regFld .secRafBase [e] 17 16
    if v = 3 then Config.rafReserved e % 3 else v
  | none => 2

/-- The right of an access of function `f`: the filter acts on the physical function above the SEC_ registers only. -/
def Dev.filterRight (d : Dev) (f off : Nat) : Nat := if f = 0 ∧ 0x1000 ≤ off then d.rafRight off else 2

/-- Cause 0x8103 (R468). -/
def Dev.filtered (d : Dev) (off : Nat) : Dev :=
  d.raise .secErrStatus [] 2 { code := 0x8103, master := 0xF840, access := 0x80, addr := off, inst := none, die := none }

/-! ### Reads -/

/-- A word of the MSI-X table; the word past the mask bit is reserved. -/
def Dev.vecWord (d : Dev) (f v w : Nat) : W32 :=
  if d.vecCount f ≤ v then 0
  else
    let x := d.vec f v
    match w with
    | 0 => BitVec.ofNat 32 x.addr
    | 1 => BitVec.ofNat 32 (x.addr / 2 ^ 32)
    | 2 => x.data
    | _ => BitVec.ofNat 32 (b2n x.mask)

/-- The RC fields of a register become zero (R8). The highest occupancy of a scoreboard since a read begins with the entries that
it still holds (R61). -/
def Dev.readClear (d : Dev) (r : RegName) (ix : List Nat) : Dev :=
  let d1 := if r.readClears then d.setReg r ix (d.reg r ix &&& ~~~(r.accMask .rc)) else d
  if r = .bchSbStat then d1.sbNote (ix.headD 0) else d1

/-- A 4-byte read at offset `off` of function `f`. -/
def Dev.bar0Word (d : Dev) (f off : Nat) : Dev × W32 :=
  match d.bar0Loc f off with
  | .reserved => (d, 0)
  | .table v w => (d, d.vecWord f v w)
  | .pba i => (d, BitVec.ofNat 32 (bitMask 32 fun j => decide (32 * i + j < d.vecCount f) && (d.vec f (32 * i + j)).pend))
  | .reg a _ => match regAt a with
    | none => (d, 0)
    | some (r, ix) => if d.regHidden a then (d, 0) else (d.readClear r ix, d.regLive r ix &&& r.mask)

/-- A read that BAR0 accepts and the filter lets through. -/
def Dev.bar0Bytes (d : Dev) (f off n : Nat) : Dev × List Byte :=
  let (d1, w) := d.bar0Word f off
  if n = 8 then
    let (d2, w2) := d1.bar0Word f (off + 4)
    (d2, leBytes w.toNat 4 ++ leBytes w2.toNat 4)
  else (d1, leBytes w.toNat 4)

/-- A read of BAR0 (R342, R345, R468). -/
def Dev.bar0Read (d : Dev) (f off n : Nat) : Dev :=
  if bar0Size f < off + n then d
  else if !d.barOn f then d.emit (.completion f 1 false [])
  else if !bar0Ok off n then (d.hstCause f 0x9206 5 0x80 off (some .unsupported)).emit (.completion f 1 false [])
  else if d.filterRight f off = 0 then (d.filtered off).emit (.completion f 0 false (List.replicate n 0))
  else
    let (d1, bs) := d.bar0Bytes f off n
    d1.emit (.completion f 0 false bs)

/-! ### Writes (R8) -/

/-- One field takes a write by its access code. -/
def RegField.write (f : RegField) (locked : Bool) (old new w : W32) : W32 :=
  let m : W32 := BitVec.ofNat 32 ((2 ^ (f.hi + 1 - f.lo) - 1) <<< f.lo)
  let taken := (w &&& ~~~m) ||| (new &&& m)
  match f.acc with
  | .rw => taken
  | .rwl => if locked then w else taken
  | .w1c => w &&& ~~~(old &&& new &&& m)
  | .w1s => w ||| (new &&& m)
  | _ => w

/-- Every field takes a write by its own code. -/
def RegName.write (r : RegName) (locked : Bool) (old new : W32) : W32 := r.fields.foldl (fun w f => f.write locked old new w) old

/-- What a write leaves in a register: a W1C bit that the device has set in the present tick stays set (R8). -/
def Dev.regTaken (d : Dev) (r : RegName) (ix : List Nat) (v : W32) : W32 :=
  r.write d.locked (d.reg r ix) v ||| (d.reg r ix &&& d.freshBits r ix &&& r.accMask .w1c)

/-- A write of a register whose fields have no behaviour of their own: a locked field that would change is cause 0x8102, and the
other fields still take the write (R8, R467). -/
def Dev.regStore (d : Dev) (r : RegName) (ix : List Nat) (v : W32) : Dev :=
  let old := d.reg r ix
  let d1 := d.setReg r ix (d.regTaken r ix v)
  if d.locked && (old ^^^ v) &&& r.accMask .rwl != 0 then d1.lockedWrite (r.addr ix) else d1

/-- HBM_WIN_CFGe: refused while the entry is busy or valid; a manager entry is RWL (R298, R309). -/
def Dev.winCfgWrite (d : Dev) (e : Nat) (v : W32) : Dev :=
  let w := v &&& RegName.hbmWinCfg.mask
  if e < 16 && d.locked then
    if w = d.reg .hbmWinCfg [e] then d else d.lockedWrite (RegName.hbmWinCfg.addr [e])
  else if (d.win e).busy || (d.win e).valid then d.winRefuse e 8 ((d.win e).base * 2 ^ 30)
  else d.setReg .hbmWinCfg [e] w

/-- CP_QCFG (R311): with EN set only EN and VEC take the write; setting EN runs the checks. MGR is writable through the physical
function only (R338). -/
def Dev.qcfgWrite (d : Dev) (f q : Nat) (v : W32) : Dev :=
  let old := d.reg .cpQcfg [q]
  if d.queueEn q then
    let d1 := d.setRegFld .cpQcfg [q] 10 0 (fld v 10 0)
    if v.getLsbD 31 then d1 else d1.queueOff q
  else
    let w := setFld (setFld (v &&& RegName.cpQcfg.mask) 31 31 0) 30 30 (if f = 0 then fld v 30 30 else fld old 30 30)
    let d1 := d.setReg .cpQcfg [q] w
    if v.getLsbD 31 then d1.queueOn q else d1

/-- A ring base register keeps its value while the queue is enabled (R311). -/
def Dev.qbaseWrite (d : Dev) (r : RegName) (q : Nat) (v : W32) : Dev := if d.queueEn q then d else d.setReg r [q] v

/-- The side a function has of a drawer: the manager produces downward, the instance upward (R358). -/
def producer (f : Nat) (up : Bool) : Bool := (f == 0) != up

/-- FAB_PORTp_CTL: LLR_EN, then DISABLE as it changes, then DOWN (R369, R370, R391). -/
def Dev.portCtlWrite (d : Dev) (p : Nat) (v : W32) : Dev :=
  let d1 := d.setRegFld .fabPortCtl [p] 2 2 (fld v 2 2)
  let d2 := if v.getLsbD 0 && !d.regBit .fabPortCtl [p] 0 then d1.portDisable p
    else if !v.getLsbD 0 && d.regBit .fabPortCtl [p] 0 then d1.portAllow p else d1
  if v.getLsbD 1 then d2.portDown p else d2

/-- DAT_CTL: ORDERLY, then FENCE, then RESEAT (R244, R247, R250). -/
def Dev.datCtlWrite (d : Dev) (die : Nat) (v : W32) : Dev :=
  let d1 := d.setRegFld .datCtl [die] 2 2 (fld v 2 2)
  let d2 := if v.getLsbD 0 && ((d1.die die).st == 2 || (d1.die die).st == 1) then d1.fenceDie die 0 else d1
  if v.getLsbD 1 then d2.reseatAsk die else d2

/-- PWR_DIEd_CTL (R438). -/
def Dev.dieCtlWrite (d : Dev) (die : Nat) (v : W32) : Dev :=
  let d1 := if v.getLsbD 2 then d.clrRegBit .pwrDieCtl [die] 2 else d
  let d2 := if v.getLsbD 0 then d1.powerOff die else d1
  if v.getLsbD 1 then d2.powerOn die else d2

/-- PWR_DIEd_OP.CAP: discarded under default trims (R434, R469). -/
def Dev.dieOpWrite (d : Dev) (die : Nat) (v : W32) : Dev :=
  if d.board.trimsBad then d else (d.setRegFld .pwrDieOp [die] 18 16 (fld v 18 16)).opUpdate

/-- PWR_EVT: the events acknowledged; one that has met its bit set in the same tick sends vector 9 again, and MODULE clears module causes
(R32, R455). -/
def Dev.evtWrite (d : Dev) (v : W32) : Dev :=
  let d1 := d.regStore .pwrEvt [] v
  let d2 := if d.pwr.again.any fun i => v.getLsbD i then d1.msixEvent 0 9 else d1
  if (v &&& ~~~(d.freshBits .pwrEvt [])).getLsbD 8 then d2.modCausesClear else d2

/-- A write of register `r` at indices `ix` by function `f`. -/
def Dev.regWrite (d : Dev) (f : Nat) (r : RegName) (ix : List Nat) (v : W32) : Dev :=
  let i := ix.headD 0
  let j := (ix.drop 1).headD 0
  let k := (ix.drop 2).headD 0
  match r with
  | .hbmWinBase => d.winBaseWrite i v
  | .hbmWinCfg => d.winCfgWrite i v
  | .cpQcfg => d.qcfgWrite f i v
  | .cpQtail => doorbellEffect f i (fld v 22 0) d
  | .cpQbaseLo | .cpQbaseHi | .cpQcbaseLo | .cpQcbaseHi => d.qbaseWrite r i v
  | .drwDnTail => if producer f false then d.tailWrite i false (fld v 4 0) else d
  | .drwUpTail => if producer f true then d.tailWrite i true (fld v 4 0) else d
  | .drwDnHead => if producer f false then d else d.headWrite i false (fld v 4 0)
  | .drwUpHead => if producer f true then d else d.headWrite i true (fld v 4 0)
  | .drwDnSlot => if producer f false then d.slotWrite i false j k v else d
  | .drwUpSlot => if producer f true then d.slotWrite i true j k v else d
  | .drwDnPend => if producer f false then d else d.pendWrite false i v
  | .drwUpPend => if producer f true then d else d.pendWrite true i v
  | .drwInstCtl => if v.getLsbD 0 then d.instCtl i (v.getLsbD 1) else d
  | .datCtl => d.datCtlWrite i v
  | .fabDevid => d.devidWrite i v
  | .fabPeerId => d.peerIdWrite i v
  | .fabXclpCfg => d.xclpWrite i 0 v
  | .fabXclpKids0 => d.xclpWrite i 1 v
  | .fabXclpKids1 => d.xclpWrite i 2 v
  | .fabPortCtl => d.portCtlWrite i v
  | .pwrDieCtl => d.dieCtlWrite i v
  | .pwrDieOp => d.dieOpWrite i v
  | .pwrEvt => d.evtWrite v
  | .fcDevRec1 => if v.getLsbD 31 then d.fcClear .dev (i + 1) else d
  | .fcDieRec1 => if v.getLsbD 31 then d.fcClear (.die i) (j + 1) else d
  | .fcViewRec1 => if v.getLsbD 31 then d.fcClear (.view i) (j + 1) else d
  | .secReset => d
  | _ => (d.regStore r ix v).released r i (v &&& ~~~(d.freshBits r ix))

/-- A write of a word of the MSI-X table; clearing the mask bit releases a pending message (R346, R347). -/
def Dev.msixWrite (d : Dev) (f v w : Nat) (x : W32) : Dev :=
  if d.vecCount f ≤ v then d
  else
    let e := d.vec f v
    match w with
    | 0 => d.setVec f v { e with addr := e.addr / 2 ^ 32 * 2 ^ 32 + x.toNat }
    | 1 => d.setVec f v { e with addr := e.addr % 2 ^ 32 + x.toNat * 2 ^ 32 }
    | 2 => d.setVec f v { e with data := x }
    | _ => if x.getLsbD 0 then d.setVec f v { e with mask := true } else d.vecUnmask f v

/-- A 4-byte write at offset `off` of function `f`. -/
def Dev.bar0Put (d : Dev) (f off : Nat) (v : W32) : Dev :=
  match d.bar0Loc f off with
  | .reserved | .pba _ => d
  | .table t w => d.msixWrite f t w v
  | .reg a ro => match regAt a with
    | none => d
    | some (r, ix) => if ro || d.regHidden a then d else d.regWrite f r ix v

/-- A write of BAR0. -/
def Dev.bar0Write (d : Dev) (f off : Nat) (bs : List Byte) : Dev :=
  if bar0Size f < off + bs.length || !d.barOn f then d
  else if !bar0Ok off bs.length then d.hstCause f 0x9206 5 0x80 off (some .unsupported)
  else if d.filterRight f off ≠ 2 then d.filtered off
  else
    let d1 := d.bar0Put f off (BitVec.ofNat 32 (leNat (bs.take 4)))
    if bs.length = 8 then d1.bar0Put f (off + 4) (BitVec.ofNat 32 (leNat (bs.drop 4))) else d1

/-! ### The commands -/

/-- A write of BAR0, which keeps its place among the posted writes of its function (R478). -/
def hostBar0WriteEffect (f off : Nat) (bs : List Byte) (d : Dev) : Dev :=
  if d.writesWait f then d.hostHold (.bar0Write f off bs) else d.bar0Write f off bs

/-- A write to a register, by the access codes of its fields and the behaviour of the register (R8). -/
def registerWriteEffect (t : RegTarget) (d : Dev) : Dev :=
  match t with
  | .bar0 f off bs => hostBar0WriteEffect f off bs d
  | .config f b v => d.cfgWrite f b v
  | .configNum f x v => d.cfgNumWrite f x v.toNat

/-- A read of BAR0; it waits for the posted writes that its function has sent before it (R291). -/
def hostBar0ReadEffect (f off n : Nat) (d : Dev) : Dev := if d.writesWait f then d.hostHold (.bar0 f off n) else d.bar0Read f off n

/-- A 4-byte read of a register that has a field which a read clears (R8). -/
def registerReadClearEffect (f off : Nat) (d : Dev) : Dev :=
  match d.bar0Loc f off with
  | .reg a _ => match regAt a with
    | some (r, _) => if r.readClears then hostBar0ReadEffect f off 4 d else d
    | none => d
  | _ => d

/-- A request of the host that has waited is taken up again. -/
def Dev.hostRetry (d : Dev) (r : HostReq) : Dev :=
  match r with
  | .read f a n => hostBar2ReadEffect f a n d
  | .write f a bs ep => d.hostPutLine f a bs ep
  | .atomic f a size op x compare => hostAtomicopEffect f a size op x compare d
  | .bar0 f off n => hostBar0ReadEffect f off n d
  | .bar0Write f off bs => hostBar0WriteEffect f off bs d
  | .doorbell f q v => doorbellEffect f q v d

/-- The requests of the host that wait are taken up in order, each of them waiting on behind those that still do (R258, R291). -/
def Dev.hostServe (d : Dev) : Dev := d.hostWait.foldl Dev.hostRetry { d with hostWait := [] }

section
variable (f : FnIx) (s : State)

def execRegisterWrite (t : RegTarget) (s : State) := s.runLive (registerWriteEffect t)
def execRegisterReadClear (off : BitVec 26) (s : State) := s.runLive (registerReadClearEffect f off.toNat)
def execHostBar0Read (off : BitVec 26) (n : Fin 4097) (s : State) := s.runAsk f (hostBar0ReadEffect f off.toNat n)
end

end Sys2Proof.Machine
end

