-- ==== Sys2Proof/Machine/Timers.lean ====
section
/-! DEFINITION. The passing of device time (R6, R154, R171, R174, R332, R333, R387, R433), and the commands that stand for the end of a time
that a register or a command's field gives: the device's time passes to that end (DESIGN CHOICE, log 3). -/

namespace Sys2Proof.Machine

/-! ### Core cycles in a time -/

/-- Tenths of a core cycle in one tick of 20 ns at an operating point (R171). -/
def tickCycles (op : Nat) : Nat :=
  match op with
  | 0 => 80
  | 1 => 120
  | 2 => 160
  | 3 => 192
  | _ => 220

/-- The ticks at or after a time in nanoseconds. -/
def tickAt (ns : Nat) : Nat := (ns + 19) / 20

/-- The rate of a die after the present change of its point has held its clock (R435). -/
def Dev.rateAfter (d : Dev) (i : Nat) : Nat := tickCycles ((d.pwr.opTarget.find? i).getD (d.opNow i))

/-- Tenths of a core cycle that a die with a clock counts in the next `n` ticks: none while a change of its point holds the clock, and the
target's from then on (R154, R174, R435). -/
def Dev.cyclesIn (d : Dev) (i n : Nat) : Nat :=
  let t := d.ticks
  match d.pwr.opStop.find? i with
  | none => n * tickCycles (d.opNow i)
  | some (a, e) =>
    (min (t + n) (tickAt a) - t) * tickCycles (d.opNow i) + match e with
      | some e => (t + n - max (tickAt e) t) * d.rateAfter i
      | none => 0

/-- The ticks until a die's count reaches `cyc`; 0 where its clock is held and nothing says until when. -/
def Dev.ticksTo (d : Dev) (i cyc : Nat) : Nat :=
  let need := 10 * cyc - (d.die i).cyc10
  let up (x r : Nat) : Nat := (x + r - 1) / r
  if !d.dieClock i then 0
  else match d.pwr.opStop.find? i with
    | none => up need (tickCycles (d.opNow i))
    | some (a, e) =>
      let first := (tickAt a - d.ticks) * tickCycles (d.opNow i)
      if need ≤ first then up need (tickCycles (d.opNow i))
      else match e with
        | some e => max (tickAt e) d.ticks - d.ticks + up (need - first) (d.rateAfter i)
        | none => 0

/-! ### Time -/

/-- Device time `n` ticks later. A device that follows a time parent slews by an unstated amount of at most 200 ppm (R387). -/
def Dev.passTime (d : Dev) (n : Nat) : Dev :=
  if d.tsEn && !d.tsGm && d.tsStepped then
    let f := d.timeFrac + ((Config.freeNat d.free 0 % (8000 * n + 1) : Nat) : Int) - ((4000 * n : Nat) : Int)
    { d.tickFree with
      time := ((d.time : Int) + ((20 * n : Nat) : Int) + f / 1000000).toNat
      timeFrac := f % 1000000 }
  else { d with time := d.time + 20 * n }

/-- The next `n` always-on ticks of the device: its time and the counts of its dies go on, with the benches that are due to start on the way, and
so does what LAUNCHes spend (R6, R154, R332, R433). -/
def Dev.pass (d : Dev) (n : Nat) : Dev :=
  if n = 0 || !d.on then d
  else
    let d1 := (List.range 8).foldl (fun x i => if d.dieClock i then x.runTo i ((d.die i).cyc10 + d.cyclesIn i n) else x) (d.passTime n)
    let d2 : Dev := { d1 with ticks := d.ticks + n, fresh := ⟨[]⟩, caught := [], noticed := [], pwr := { d1.pwr with again := [] } }
    if d2.live then d2.queues.keys.foldl (Dev.spend n) d2 else d2

/-- Time passes to a tick. -/
def Dev.passTo (d : Dev) (t : Nat) : Dev := d.pass (t - d.ticks)
/-- Time passes to the tick of an end, if there is one. -/
def Dev.passDue (d : Dev) (t : Option Nat) : Dev := (t.map d.passTo).getD d
/-- Time passes until a die's count reaches the one given, if one is. -/
def Dev.passCount (d : Dev) (i : Nat) (c : Option Nat) : Dev := (c.map fun c => d.pass (d.ticksTo i c)).getD d

/-! ### The ends of times -/

section
variable (q : QueueIx) (b : BenchIx) (w : Fin 576) (s : State)

def execProgressMarkLate (q : QueueIx) (m : Fin 256) (s : State) := s.runLive fun d =>
  (progressMarkLateEffect q m (d.passDue (d.markDue q m))).opUpdate
def execDeadlineExpiry := s.runLive fun d => (deadlineExpiryEffect q (d.passDue (d.deadlineDue q))).opUpdate
def execCompletionTimeout := s.runLive fun d => completionTimeoutEffect q (d.passDue (d.hostDue q))
def execQuiesceTimeout := s.runLive fun d => (quiesceTimeoutEffect q (d.passDue (d.quiesceDue q))).opUpdate
def execCollectiveMemberTimeout := s.runLive fun d => collectiveMemberTimeoutEffect q (d.passDue (d.collDue q))
def execCounterWaitTimeout := s.runLive fun d => counterWaitTimeoutEffect b (d.passCount (dieOf b) (some (d.counterDue b)))
def execOutfeedWaitTimeout := s.runLive fun d => outfeedWaitTimeoutEffect b (d.passCount (dieOf b) (some (d.outfeedDue b)))
def execClampWatchdogExpiry (b : BenchIx) (slot : Option (Fin 8)) (s : State) := s.runLive fun d =>
  clampWatchdogExpiryEffect b slot (d.passCount (dieOf b) (d.clampDue b (slot.map fun (x : Fin 8) => x.val)))
def execMergeBufferIdleDrain (b : BenchIx) (mp : Bool) (s : State) := s.runLive fun d =>
  mergeBufferIdleDrainEffect b mp (d.passCount (dieOf b) (d.idleFirst b))
def execRecoveryQuietExpiry (i : Fin 832) (s : State) := s.runOn fun d => recoveryQuietExpiryEffect i (d.passDue (d.quiet.find? i))
def execBaySleep (y : BayIx) (s : State) := s.runLive fun d => baySleepEffect y (d.passDue (d.sleepDue y))
def execMirrorBlockSend := s.runLive fun d => mirrorBlockSendEffect w (d.passDue (d.settleDue w))
def execCommitTimeout := s.runLive fun d => commitTimeoutEffect w (d.passDue (d.commitDue w))
def execRepairTimeout := s.runLive fun d => repairTimeoutEffect w (d.passDue (d.repairDue w))
def execFlrHoldExpiry (k : Fin 8) (s : State) := s.runLive fun d => flrHoldExpiryEffect k (d.passDue (d.flrDue k))
def execRetransmitTimeout (i : Fin 4096) (c : Bool) (s : State) := s.runLive fun d => retransmitTimeoutEffect i c (d.passDue (d.retransmitDue i c))
def execAckDelayExpiry (i : Fin 4096) (c : Bool) (s : State) := s.runLive fun d => ackDelayExpiryEffect i c (d.passDue (d.ackDelayDue i c))
def execPeerNoPortTimeout (i : Fin 4096) (s : State) := s.runLive fun d => peerNoPortTimeoutEffect i (d.passDue (d.noPortDue i))
def execResyncTimer (i : Fin 4096) (s : State) := s.runLive fun d => resyncTimerEffect i (d.passDue (d.resyncDue i))
def execLlrAckTimeout (p : PortIx) (s : State) := s.runLive fun d => llrAckTimeoutEffect p (d.passDue (d.lackDue p))
def execReportLostTimeout := s.runOn fun d => reportLostTimeoutEffect (d.passDue d.reportDue)
def execSupplyTriggerEnd := s.runOn fun d => supplyTriggerEndEffect (d.passDue d.supplyDue)
def execCurrentTriggerEnd := s.runOn fun d => currentTriggerEndEffect (d.passDue d.currentDue)
def execLimiterStepDown (src : LimSrc) (s : State) := s.runOn fun d => limiterStepDownEffect src (d.passDue (d.stepDue src))
def execLimiterReleaseStep (die : DieIx) (s : State) := s.runOn fun d => limiterReleaseStepEffect die (d.passCount die (d.releaseDue die))
def execThermalCapStep (die : DieIx) (s : State) := s.runOn fun d => thermalCapStepEffect die (d.passDue (d.capDue die))
def execTsSyncInterval := s.runLive fun d => tsSyncIntervalEffect (d.passDue d.tsDue)
end

end Sys2Proof.Machine
end

