-- ==== Sys2Proof/Machine/Dispatch.lean ====
section
/-! DEFINITION. The dispatch: each command to its meaning, one arm for each row of the opcode table. -/

namespace Sys2Proof.Machine

/-- What a command does to everything but the queue. -/
def exec (i : Instr) (s : State) : Host.Outcome State Fault Refusal :=
  match i with
  | .inputRiseAboveTurnOn => Sys2Proof.Machine.execInputRiseAboveTurnOn s
  | .inputSwitchCloseDelay f => Sys2Proof.Machine.execInputSwitchCloseDelay f s
  | .inputOverVoltageWarning => Sys2Proof.Machine.execInputOverVoltageWarning s
  | .inputOverVoltageDisconnect => Sys2Proof.Machine.execInputOverVoltageDisconnect s
  | .busPrsntBreak => Sys2Proof.Machine.execBusPrsntBreak s
  | .pwrDisAssert => Sys2Proof.Machine.execPwrDisAssert s
  | .pwrDisRelease => Sys2Proof.Machine.execPwrDisRelease s
  | .mgmtRst => Sys2Proof.Machine.execMgmtRst s
  | .inputBelowWarning => Sys2Proof.Machine.execInputBelowWarning s
  | .supplyTriggerEnd => Sys2Proof.Machine.execSupplyTriggerEnd s
  | .brownOut => Sys2Proof.Machine.execBrownOut s
  | .inputCurrentWarning amps => Sys2Proof.Machine.execInputCurrentWarning amps s
  | .inputCurrentLimit amps => Sys2Proof.Machine.execInputCurrentLimit amps s
  | .currentTriggerEnd => Sys2Proof.Machine.execCurrentTriggerEnd s
  | .energyBucketUpdate volts amps => Sys2Proof.Machine.execEnergyBucketUpdate volts amps s
  | .limiterStepDown src => Sys2Proof.Machine.execLimiterStepDown src s
  | .limiterReleaseStep die => Sys2Proof.Machine.execLimiterReleaseStep die s
  | .thermalThrottle n t => Sys2Proof.Machine.execThermalThrottle n t s
  | .thermalTrip n t => Sys2Proof.Machine.execThermalTrip n t s
  | .sensorFailed n => Sys2Proof.Machine.execSensorFailed n s
  | .thermalCapStep die => Sys2Proof.Machine.execThermalCapStep die s
  | .phaseMarkAct => Sys2Proof.Machine.execPhaseMarkAct s
  | .opChangeDone die => Sys2Proof.Machine.execOpChangeDone die s
  | .baySleep y => Sys2Proof.Machine.execBaySleep y s
  | .bayWake y => Sys2Proof.Machine.execBayWake y s
  | .bayWakeDone y => Sys2Proof.Machine.execBayWakeDone y s
  | .domainWakeTimeout x => Sys2Proof.Machine.execDomainWakeTimeout x s
  | .regulatorFault dom => Sys2Proof.Machine.execRegulatorFault dom s
  | .powerOff die => Sys2Proof.Machine.execPowerOff die s
  | .powerOffDone die => Sys2Proof.Machine.execPowerOffDone die s
  | .powerOn die => Sys2Proof.Machine.execPowerOn die s
  | .powerOnDone die => Sys2Proof.Machine.execPowerOnDone die s
  | .coolantLeak => Sys2Proof.Machine.execCoolantLeak s
  | .coolantInletHot t => Sys2Proof.Machine.execCoolantInletHot t s
  | .coolantRiseHigh t => Sys2Proof.Machine.execCoolantRiseHigh t s
  | .moduleBoardHot k t => Sys2Proof.Machine.execModuleBoardHot k t s
  | .cableMate j => Sys2Proof.Machine.execCableMate j s
  | .cableRemove j => Sys2Proof.Machine.execCableRemove j s
  | .cableSupplyOverload j => Sys2Proof.Machine.execCableSupplyOverload j s
  | .bypass t => Sys2Proof.Machine.execBypass t s
  | .idcode t => Sys2Proof.Machine.execIdcode t s
  | .samplePreload t => Sys2Proof.Machine.execSamplePreload t s
  | .extest t => Sys2Proof.Machine.execExtest t s
  | .debugInstruction t => Sys2Proof.Machine.execDebugInstruction t s
  | .entdaa a => Sys2Proof.Machine.execEntdaa a s
  | .pldmPlatformRequest x => Sys2Proof.Machine.execPldmPlatformRequest x s
  | .pldmFruRequest => Sys2Proof.Machine.execPldmFruRequest s
  | .getVersion doe busy => Sys2Proof.Machine.execGetVersion doe busy s
  | .getCapabilities doe busy => Sys2Proof.Machine.execGetCapabilities doe busy s
  | .negotiateAlgorithms doe busy sm2 sm3h => Sys2Proof.Machine.execNegotiateAlgorithms doe busy sm2 sm3h s
  | .getDigests doe busy => Sys2Proof.Machine.execGetDigests doe busy s
  | .getCertificate doe busy slot off n => Sys2Proof.Machine.execGetCertificate doe busy slot off n s
  | .challenge doe busy => Sys2Proof.Machine.execChallenge doe busy s
  | .getMeasurements doe busy ix signed => Sys2Proof.Machine.execGetMeasurements doe busy ix signed s
  | .debugNonceRequest => Sys2Proof.Machine.execDebugNonceRequest s
  | .debugToken good => Sys2Proof.Machine.execDebugToken good s
  | .firmwareUpdateComponent c => Sys2Proof.Machine.execFirmwareUpdateComponent c s
  | .activateFirmware => Sys2Proof.Machine.execActivateFirmware s
  | .perstNAssert f => Sys2Proof.Machine.execPerstNAssert f s
  | .perstNDeassert => Sys2Proof.Machine.execPerstNDeassert s
  | .secReset w f => Sys2Proof.Machine.execSecReset w f s
  | .securityWatchdog f => Sys2Proof.Machine.execSecurityWatchdog f s
  | .hostLinkDown f => Sys2Proof.Machine.execHostLinkDown f s
  | .hotReset f => Sys2Proof.Machine.execHotReset f s
  | .hostBar2Read f a n => Sys2Proof.Machine.execHostBar2Read f a n s
  | .hostBar2Write f a bs ep => Sys2Proof.Machine.execHostBar2Write f a bs ep s
  | .hostAtomicop f a size op x compare => Sys2Proof.Machine.execHostAtomicop f a size op x compare s
  | .malformedTlp f malformed nonPosted => Sys2Proof.Machine.execMalformedTlp f malformed nonPosted s
  | .registerWrite t => Sys2Proof.Machine.execRegisterWrite t s
  | .registerReadClear f off => Sys2Proof.Machine.execRegisterReadClear f off s
  | .vfEnableSet => Sys2Proof.Machine.execVfEnableSet s
  | .vfEnableClear => Sys2Proof.Machine.execVfEnableClear s
  | .numvfsWrite v => Sys2Proof.Machine.execNumvfsWrite v s
  | .vfFlr k => Sys2Proof.Machine.execVfFlr k s
  | .flrHoldExpiry k => Sys2Proof.Machine.execFlrHoldExpiry k s
  | .pfFlr => Sys2Proof.Machine.execPfFlr s
  | .bar2Resize f log2 => Sys2Proof.Machine.execBar2Resize f log2 s
  | .d3hotEntry f => Sys2Proof.Machine.execD3hotEntry f s
  | .d0Return f => Sys2Proof.Machine.execD0Return f s
  | .msixUnmask f v => Sys2Proof.Machine.execMsixUnmask f v s
  | .hostReadCompletion q st ep data => Sys2Proof.Machine.execHostReadCompletion q st ep data s
  | .completionTimeout q => Sys2Proof.Machine.execCompletionTimeout q s
  | .queueEnable q => Sys2Proof.Machine.execQueueEnable q s
  | .queueDisable q => Sys2Proof.Machine.execQueueDisable q s
  | .doorbell q v => Sys2Proof.Machine.execDoorbell q v s
  | .queueFetch q => Sys2Proof.Machine.execQueueFetch q s
  | .nop q => Sys2Proof.Machine.execNop q s
  | .fence q => Sys2Proof.Machine.execFence q s
  | .fenceComplete q => Sys2Proof.Machine.execFenceComplete q s
  | .timestamp q => Sys2Proof.Machine.execTimestamp q s
  | .query q => Sys2Proof.Machine.execQuery q s
  | .loadProgram q => Sys2Proof.Machine.execLoadProgram q s
  | .launch q => Sys2Proof.Machine.execLaunch q s
  | .launchStepStart q => Sys2Proof.Machine.execLaunchStepStart q s
  | .launchStepEnd q => Sys2Proof.Machine.execLaunchStepEnd q s
  | .overrunRaise q => Sys2Proof.Machine.execOverrunRaise q s
  | .launchKill q => Sys2Proof.Machine.execLaunchKill q s
  | .copy q => Sys2Proof.Machine.execCopy q s
  | .fill q => Sys2Proof.Machine.execFill q s
  | .collective q => Sys2Proof.Machine.execCollective q s
  | .collectiveMemberTimeout q => Sys2Proof.Machine.execCollectiveMemberTimeout q s
  | .shelfSet q => Sys2Proof.Machine.execShelfSet q s
  | .shelfSweepDone q => Sys2Proof.Machine.execShelfSweepDone q s
  | .mirrorOpen q => Sys2Proof.Machine.execMirrorOpen q s
  | .mirrorCommit q => Sys2Proof.Machine.execMirrorCommit q s
  | .mirrorRestore q => Sys2Proof.Machine.execMirrorRestore q s
  | .seal x => Sys2Proof.Machine.execSeal x s
  | .quiesce x => Sys2Proof.Machine.execQuiesce x s
  | .quiesceTimeout q => Sys2Proof.Machine.execQuiesceTimeout q s
  | .resume q => Sys2Proof.Machine.execResume q s
  | .mark b f => Sys2Proof.Machine.execMark b f s
  | .progressMarkLate q m => Sys2Proof.Machine.execProgressMarkLate q m s
  | .deadlineExpiry q => Sys2Proof.Machine.execDeadlineExpiry q s
  | .cpCoreWatchdog k q => Sys2Proof.Machine.execCpCoreWatchdog k q s
  | .drawerTailWrite k up v => Sys2Proof.Machine.execDrawerTailWrite k up v s
  | .drawerHeadWrite k up v => Sys2Proof.Machine.execDrawerHeadWrite k up v s
  | .drawerSlotWrite k up ix w v => Sys2Proof.Machine.execDrawerSlotWrite k up ix w v s
  | .instanceReset k force => Sys2Proof.Machine.execInstanceReset k force s
  | .instanceResetDone k => Sys2Proof.Machine.execInstanceResetDone k s
  | .faultReport n => Sys2Proof.Machine.execFaultReport n s
  | .linePairInvalid src => Sys2Proof.Machine.execLinePairInvalid src s
  | .lineAssertTimeout m => Sys2Proof.Machine.execLineAssertTimeout m s
  | .reportLostTimeout => Sys2Proof.Machine.execReportLostTimeout s
  | .faultRecordClear b c => Sys2Proof.Machine.execFaultRecordClear b c s
  | .recoveryQuietExpiry ix => Sys2Proof.Machine.execRecoveryQuietExpiry ix s
  | .latchRelease x => Sys2Proof.Machine.execLatchRelease x s
  | .dieLinkUp die f => Sys2Proof.Machine.execDieLinkUp die f s
  | .gatewayFlitReceive die site inbound f => Sys2Proof.Machine.execGatewayFlitReceive die site inbound f s
  | .linkReplay die site inbound => Sys2Proof.Machine.execLinkReplay die site inbound s
  | .moduleTrainingDone die site ok => Sys2Proof.Machine.execModuleTrainingDone die site ok s
  | .moduleListApply die remote => Sys2Proof.Machine.execModuleListApply die remote s
  | .clockMonitorTrip die => Sys2Proof.Machine.execClockMonitorTrip die s
  | .linkMonitorTrip die => Sys2Proof.Machine.execLinkMonitorTrip die s
  | .dieFenceRequest die => Sys2Proof.Machine.execDieFenceRequest die s
  | .reseat die => Sys2Proof.Machine.execReseat die s
  | .reseatDone ok f => Sys2Proof.Machine.execReseatDone ok f s
  | .epochStart die => Sys2Proof.Machine.execEpochStart die s
  | .startMessage die q => Sys2Proof.Machine.execStartMessage die q s
  | .benchStart die x => Sys2Proof.Machine.execBenchStart die x s
  | .controlFlitReceive die fails => Sys2Proof.Machine.execControlFlitReceive die fails s
  | .bulkFlitEject n f => Sys2Proof.Machine.execBulkFlitEject n f s
  | .killMessage b => Sys2Proof.Machine.execKillMessage b s
  | .jigIssueMortise b f => Sys2Proof.Machine.execJigIssueMortise b f s
  | .planeQueueIssue b f => Sys2Proof.Machine.execPlaneQueueIssue b f s
  | .alu b f => Sys2Proof.Machine.execAlu b f s
  | .addi b f => Sys2Proof.Machine.execAddi b f s
  | .andi b f => Sys2Proof.Machine.execAndi b f s
  | .ori b f => Sys2Proof.Machine.execOri b f s
  | .xori b f => Sys2Proof.Machine.execXori b f s
  | .slti b f => Sys2Proof.Machine.execSlti b f s
  | .sltiu b f => Sys2Proof.Machine.execSltiu b f s
  | .shi b f => Sys2Proof.Machine.execShi b f s
  | .lui b f => Sys2Proof.Machine.execLui b f s
  | .jigLoad b f d pe => Sys2Proof.Machine.execJigLoad b f d pe s
  | .jigStore b f d pe mp => Sys2Proof.Machine.execJigStore b f d pe mp s
  | .pf b f => Sys2Proof.Machine.execPf b f s
  | .jigBranch b f => Sys2Proof.Machine.execJigBranch b f s
  | .jal b f => Sys2Proof.Machine.execJal b f s
  | .jalr b f => Sys2Proof.Machine.execJalr b f s
  | .sysNop b f => Sys2Proof.Machine.execSysNop b f s
  | .endOp b f => Sys2Proof.Machine.execEndOp b f s
  | .rdcyc b f => Sys2Proof.Machine.execRdcyc b f s
  | .sysFence b f mp => Sys2Proof.Machine.execSysFence b f mp s
  | .cwait b f => Sys2Proof.Machine.execCwait b f s
  | .cwaitExit b => Sys2Proof.Machine.execCwaitExit b s
  | .counterWaitTimeout b => Sys2Proof.Machine.execCounterWaitTimeout b s
  | .tm b f => Sys2Proof.Machine.execTm b f s
  | .tileMoverDescriptorStart b d => Sys2Proof.Machine.execTileMoverDescriptorStart b d s
  | .tileMoverResponse b => Sys2Proof.Machine.execTileMoverResponse b s
  | .tileMoverWriteAck b => Sys2Proof.Machine.execTileMoverWriteAck b s
  | .slot b f => Sys2Proof.Machine.execSlot b f s
  | .slotTransferStart b d => Sys2Proof.Machine.execSlotTransferStart b d s
  | .slotTransferLanding b => Sys2Proof.Machine.execSlotTransferLanding b s
  | .lineFillArrival b => Sys2Proof.Machine.execLineFillArrival b s
  | .mergeBufferIdleDrain b mp => Sys2Proof.Machine.execMergeBufferIdleDrain b mp s
  | .mergeBufferDrainAck b => Sys2Proof.Machine.execMergeBufferDrainAck b s
  | .scoreboardRetire b => Sys2Proof.Machine.execScoreboardRetire b s
  | .commandBoundary b next x => Sys2Proof.Machine.execCommandBoundary b next x s
  | .contextStart x => Sys2Proof.Machine.execContextStart x s
  | .fold b => Sys2Proof.Machine.execFold b s
  | .stream b => Sys2Proof.Machine.execStream b s
  | .sload b => Sys2Proof.Machine.execSload b s
  | .stationaryReady b e => Sys2Proof.Machine.execStationaryReady b e s
  | .gopen b => Sys2Proof.Machine.execGopen b s
  | .gclose b => Sys2Proof.Machine.execGclose b s
  | .scset b => Sys2Proof.Machine.execScset b s
  | .srseed b => Sys2Proof.Machine.execSrseed b s
  | .air b => Sys2Proof.Machine.execAir b s
  | .mortiseStep b e stg stn => Sys2Proof.Machine.execMortiseStep b e stg stn s
  | .dressing b pe => Sys2Proof.Machine.execDressing b pe s
  | .glueUpDrain b pe => Sys2Proof.Machine.execGlueUpDrain b pe s
  | .gmma b slot f e x => Sys2Proof.Machine.execGmma b slot f e x s
  | .vopArith b src f vp => Sys2Proof.Machine.execVopArith b src f vp s
  | .fma b src f vp => Sys2Proof.Machine.execFma b src f vp s
  | .rcpRsqSqrtExp2Log2 b src f vp => Sys2Proof.Machine.execRcpRsqSqrtExp2Log2 b src f vp s
  | .mulh b src f vp => Sys2Proof.Machine.execMulh b src f vp s
  | .shlShr b src f vp => Sys2Proof.Machine.execShlShr b src f vp s
  | .andOrXor b src f vp => Sys2Proof.Machine.execAndOrXor b src f vp s
  | .cvt b src f vp => Sys2Proof.Machine.execCvt b src f vp s
  | .cmp b src f vp => Sys2Proof.Machine.execCmp b src f vp s
  | .sel b src f vp => Sys2Proof.Machine.execSel b src f vp s
  | .maskLogic b src f vp => Sys2Proof.Machine.execMaskLogic b src f vp s
  | .perm b src f vp => Sys2Proof.Machine.execPerm b src f vp s
  | .perm2 b src f vp => Sys2Proof.Machine.execPerm2 b src f vp s
  | .rot b src f vp => Sys2Proof.Machine.execRot b src f vp s
  | .rev b src f vp => Sys2Proof.Machine.execRev b src f vp s
  | .xswap b src f vp => Sys2Proof.Machine.execXswap b src f vp s
  | .bcast b src f vp => Sys2Proof.Machine.execBcast b src f vp s
  | .zipUnzip b src f vp => Sys2Proof.Machine.execZipUnzip b src f vp s
  | .pack b src f vp => Sys2Proof.Machine.execPack b src f vp s
  | .unpk b src f vp => Sys2Proof.Machine.execUnpk b src f vp s
  | .vld b e lp vp => Sys2Proof.Machine.execVld b e lp vp s
  | .vst b e lp vp mp => Sys2Proof.Machine.execVst b e lp vp mp s
  | .vldx b e lp vp => Sys2Proof.Machine.execVldx b e lp vp s
  | .vstx b e lp vp mp => Sys2Proof.Machine.execVstx b e lp vp mp s
  | .vpf b => Sys2Proof.Machine.execVpf b s
  | .compress b src f vp => Sys2Proof.Machine.execCompress b src f vp s
  | .expand b src f vp => Sys2Proof.Machine.execExpand b src f vp s
  | .cstore b src f vp e => Sys2Proof.Machine.execCstore b src f vp e s
  | .xload b src f vp e => Sys2Proof.Machine.execXload b src f vp e s
  | .setvl b src f => Sys2Proof.Machine.execSetvl b src f s
  | .mvjp b src f vp => Sys2Proof.Machine.execMvjp b src f vp s
  | .pflags b src f => Sys2Proof.Machine.execPflags b src f s
  | .sum b src f vp => Sys2Proof.Machine.execSum b src f vp s
  | .ofrd b src f op => Sys2Proof.Machine.execOfrd b src f op s
  | .oftag b src f => Sys2Proof.Machine.execOftag b src f s
  | .ofpop b src f => Sys2Proof.Machine.execOfpop b src f s
  | .outfeedWaitTimeout b => Sys2Proof.Machine.execOutfeedWaitTimeout b s
  | .tglaunch b f => Sys2Proof.Machine.execTglaunch b f s
  | .tgpark b f => Sys2Proof.Machine.execTgpark b f s
  | .tgact b f => Sys2Proof.Machine.execTgact b f s
  | .tgMoveDone b slot x => Sys2Proof.Machine.execTgMoveDone b slot x s
  | .groupRetire b slot => Sys2Proof.Machine.execGroupRetire b slot s
  | .bnz b slot f vp => Sys2Proof.Machine.execBnz b slot f vp s
  | .bz b slot f vp => Sys2Proof.Machine.execBz b slot f vp s
  | .jmp b slot f => Sys2Proof.Machine.execJmp b slot f s
  | .exitThreads b slot f => Sys2Proof.Machine.execExitThreads b slot f s
  | .bar b slot f => Sys2Proof.Machine.execBar b slot f s
  | .tctlFence b slot f mp => Sys2Proof.Machine.execTctlFence b slot f mp s
  | .li b slot f => Sys2Proof.Machine.execLi b slot f s
  | .carrive b slot f => Sys2Proof.Machine.execCarrive b slot f s
  | .cadd b slot f vp => Sys2Proof.Machine.execCadd b slot f vp s
  | .tctlCwait b slot f vp => Sys2Proof.Machine.execTctlCwait b slot f vp s
  | .tmemLd b slot f e lp vp => Sys2Proof.Machine.execTmemLd b slot f e lp vp s
  | .tmemSt b slot f e lp vp mp => Sys2Proof.Machine.execTmemSt b slot f e lp vp mp s
  | .threadAtomic b slot f e vp => Sys2Proof.Machine.execThreadAtomic b slot f e vp s
  | .clpArrive b f => Sys2Proof.Machine.execClpArrive b f s
  | .clpAdd b f => Sys2Proof.Machine.execClpAdd b f s
  | .clpWait b f => Sys2Proof.Machine.execClpWait b f s
  | .clampRootUpdate ix k e => Sys2Proof.Machine.execClampRootUpdate ix k e s
  | .clampShadowUpdate die node ix e => Sys2Proof.Machine.execClampShadowUpdate die node ix e s
  | .clampWaitExit b slot => Sys2Proof.Machine.execClampWaitExit b slot s
  | .clampWatchdogExpiry b slot => Sys2Proof.Machine.execClampWatchdogExpiry b slot s
  | .bayLoadRequest y e => Sys2Proof.Machine.execBayLoadRequest y e s
  | .bayMaskedWrite y e => Sys2Proof.Machine.execBayMaskedWrite y e s
  | .bayAtomic y e => Sys2Proof.Machine.execBayAtomic y e s
  | .bayGrant y => Sys2Proof.Machine.execBayGrant y s
  | .bayWbAck y => Sys2Proof.Machine.execBayWbAck y s
  | .rds q e iod line => Sys2Proof.Machine.execRds q e iod line s
  | .rdu q e k line => Sys2Proof.Machine.execRdu q e k line s
  | .rdx q e => Sys2Proof.Machine.execRdx q e s
  | .rdxn q e => Sys2Proof.Machine.execRdxn q e s
  | .wb q e => Sys2Proof.Machine.execWb q e s
  | .wra q e => Sys2Proof.Machine.execWra q e s
  | .ata q e => Sys2Proof.Machine.execAta q e s
  | .red q e => Sys2Proof.Machine.execRed q e s
  | .reductionApply q => Sys2Proof.Machine.execReductionApply q s
  | .inv ix => Sys2Proof.Machine.execInv ix s
  | .dwn y => Sys2Proof.Machine.execDwn y s
  | .rcl y => Sys2Proof.Machine.execRcl y s
  | .snoopReply q => Sys2Proof.Machine.execSnoopReply q s
  | .sliceHbmFill q => Sys2Proof.Machine.execSliceHbmFill q s
  | .sliceFillWaitRetry q => Sys2Proof.Machine.execSliceFillWaitRetry q s
  | .windowValidSet e base sizem1 => Sys2Proof.Machine.execWindowValidSet e base sizem1 s
  | .windowValidClear e base sizem1 => Sys2Proof.Machine.execWindowValidClear e base sizem1 s
  | .windowBusyEnd e => Sys2Proof.Machine.execWindowBusyEnd e s
  | .hbmRead q f => Sys2Proof.Machine.execHbmRead q f s
  | .hbmWrite x => Sys2Proof.Machine.execHbmWrite x s
  | .hbmRefresh q => Sys2Proof.Machine.execHbmRefresh q s
  | .hbmEcs q n => Sys2Proof.Machine.execHbmEcs q n s
  | .hbmRetrain q k ok => Sys2Proof.Machine.execHbmRetrain q k ok s
  | .caParityError q k ok => Sys2Proof.Machine.execCaParityError q k ok s
  | .portEnable p => Sys2Proof.Machine.execPortEnable p s
  | .portDisable p => Sys2Proof.Machine.execPortDisable p s
  | .portDownRequest p => Sys2Proof.Machine.execPortDownRequest p s
  | .portTrainingDone p f => Sys2Proof.Machine.execPortTrainingDone p f s
  | .portAlignmentLoss p => Sys2Proof.Machine.execPortAlignmentLoss p s
  | .fabricRefclkLoss => Sys2Proof.Machine.execFabricRefclkLoss s
  | .fabricRefclkReturn => Sys2Proof.Machine.execFabricRefclkReturn s
  | .fabDevidWrite k v => Sys2Proof.Machine.execFabDevidWrite k v s
  | .fabPeerIdWrite ix v => Sys2Proof.Machine.execFabPeerIdWrite ix v s
  | .fabXclpWrite ix k v => Sys2Proof.Machine.execFabXclpWrite ix k v s
  | .writeFrame p find f => Sys2Proof.Machine.execWriteFrame p find f s
  | .readReq p find f => Sys2Proof.Machine.execReadReq p find f s
  | .readRsp p find f => Sys2Proof.Machine.execReadRsp p find f s
  | .redFrame p find f => Sys2Proof.Machine.execRedFrame p find f s
  | .atomicFrame p find f => Sys2Proof.Machine.execAtomicFrame p find f s
  | .atomicRsp p find f => Sys2Proof.Machine.execAtomicRsp p find f s
  | .refused p find f => Sys2Proof.Machine.execRefused p find f s
  | .coll p find f => Sys2Proof.Machine.execColl p find f s
  | .mirrorWrite p find f => Sys2Proof.Machine.execMirrorWrite p find f s
  | .mirrorCommitFrame p find f => Sys2Proof.Machine.execMirrorCommitFrame p find f s
  | .mirrorConfirm p find f => Sys2Proof.Machine.execMirrorConfirm p find f s
  | .clampUp p find f => Sys2Proof.Machine.execClampUp p find f s
  | .clampDown p find f => Sys2Proof.Machine.execClampDown p find f s
  | .ack p find f => Sys2Proof.Machine.execAck p find f s
  | .nak p find f => Sys2Proof.Machine.execNak p find f s
  | .resync p find f => Sys2Proof.Machine.execResync p find f s
  | .lack p find f => Sys2Proof.Machine.execLack p find f s
  | .lnak p find f => Sys2Proof.Machine.execLnak p find f s
  | .tsSync p find f sub => Sys2Proof.Machine.execTsSync p find f sub s
  | .tsFollow p find f => Sys2Proof.Machine.execTsFollow p find f s
  | .tsPdreq p find f => Sys2Proof.Machine.execTsPdreq p find f s
  | .tsPdresp p find f sub => Sys2Proof.Machine.execTsPdresp p find f sub s
  | .tsSyncInterval => Sys2Proof.Machine.execTsSyncInterval s
  | .retransmitTimeout ix c => Sys2Proof.Machine.execRetransmitTimeout ix c s
  | .peerNoPortTimeout ix => Sys2Proof.Machine.execPeerNoPortTimeout ix s
  | .resyncTimer ix => Sys2Proof.Machine.execResyncTimer ix s
  | .ackDelayExpiry ix c => Sys2Proof.Machine.execAckDelayExpiry ix c s
  | .llrAckTimeout p => Sys2Proof.Machine.execLlrAckTimeout p s
  | .mirrorBlockSend w => Sys2Proof.Machine.execMirrorBlockSend w s
  | .commitTimeout w => Sys2Proof.Machine.execCommitTimeout w s
  | .repairTimeout w => Sys2Proof.Machine.execRepairTimeout w s
  | .busPrsntMate => Sys2Proof.Machine.execBusPrsntMate s
  | .overVoltageWarningEnd => Sys2Proof.Machine.execOverVoltageWarningEnd s
  | .inputBackAboveWarning => Sys2Proof.Machine.execInputBackAboveWarning s
  | .currentBackBelowIwarn amps => Sys2Proof.Machine.execCurrentBackBelowIwarn amps s
  | .sensorBelowReleaseThreshold n t => Sys2Proof.Machine.execSensorBelowReleaseThreshold n t s
  | .linePairValidAgain m => Sys2Proof.Machine.execLinePairValidAgain m s
  | .hostLinkUp width speed flit => Sys2Proof.Machine.execHostLinkUp width speed flit s
  | .linkCorrectableError e => Sys2Proof.Machine.execLinkCorrectableError e s
  | .hostBar0Read f off n => Sys2Proof.Machine.execHostBar0Read f off n s

end Sys2Proof.Machine
end

