-- ==== Sys2Proof/Machine/Tick.lean ====
section
/-! DEFINITION. What an empty queue does: one always-on tick passes, and the requests of the host that wait are taken up again (R6, R258,
R433; DESIGN CHOICE, log 2). -/

namespace Sys2Proof.Machine

/-- One always-on tick of the device, while the always-on domain runs (R433). -/
def Dev.tick (d : Dev) : Dev :=
  let d1 := d.pass 1
  if d1.on && d1.live then d1.hostServe else d1

end Sys2Proof.Machine
end

