-- ==== Sys2Proof/Safety.lean ====
section
/-! DEFINITION. The terms that statements use: a command that is carried out, what it leaves alone, and the device at rest. -/

namespace Sys2Proof
open Machine

/-- The command answers a next state: the device `d'`, and the queue as it was. -/
def Completes (c : Instr) (s : State) (d' : Dev) : Prop := exec c s = .next { s with dev := d' }

/-- The command answers a next state whose device satisfies `P`, and whose queue is as it was. -/
def Reaches (c : Instr) (s : State) (P : Dev → Prop) : Prop := ∃ d', Completes c s d' ∧ P d'

/-! ### What a command leaves alone -/

/-- Dies, benches, messages between them, caches and HBM are as before. -/
structure KeepsCompute (d d' : Dev) : Prop where
  dies : d'.dies = d.dies
  benches : d'.benches = d.benches
  net : d'.net = d.net
  bays : d'.bays = d.bays
  slices : d'.slices = d.slices
  hbm : d'.hbm = d.hbm
  hbmPoison : d'.hbmPoison = d.hbmPoison

/-- Queues, program slots, and the control network's messages are as before. -/
structure KeepsQueues (d d' : Dev) : Prop where
  queues : d'.queues = d.queues
  slots : d'.slots = d.slots
  starts : d'.starts = d.starts
  kills : d'.kills = d.kills

/-- The fabric and the mirrors are as before. -/
structure KeepsFabric (d d' : Dev) : Prop where
  peers : d'.peers = d.peers
  ports : d'.ports = d.ports
  fabReads : d'.fabReads = d.fabReads
  mirrors : d'.mirrors = d.mirrors

/-- The board, the module flash, the event log and the management ports are as before. -/
structure KeepsModule (d d' : Dev) : Prop where
  board : d'.board = d.board
  flash : d'.flash = d.flash
  update : d'.update = d.update
  evlog : d'.evlog = d.evlog
  i3cAddr : d'.i3cAddr = d.i3cAddr
  taps : d'.taps = d.taps
  spdmAlgs : d'.spdmAlgs = d.spdmAlgs
  nonce : d'.nonce = d.nonce
  measured : d'.measured = d.measured

/-- The host's functions are as before. -/
structure KeepsHost (d d' : Dev) : Prop where
  fns : d'.fns = d.fns
  numVfs : d'.numVfs = d.numVfs
  vfEnable : d'.vfEnable = d.vfEnable

/-- Every register but those at the offsets `as` is as before. -/
def RegsBut (as : List Nat) (d d' : Dev) : Prop := ∀ a, a ∉ as → d'.regs.find? a = d.regs.find? a

/-- Every bench but `b` is as before. -/
def BenchesBut (b : Nat) (d d' : Dev) : Prop := ∀ i, i ≠ b → d'.bench i = d.bench i

/-! ### Time -/

/-- From `d` time has passed to tick `t`, or none where that has come already; `d1` is the device then (log 3). Device time and ticks go on,
and so do the cycle counts of the dies and what LAUNCHes spend; nothing else differs. -/
structure Passed (d : Dev) (t : Nat) (d1 : Dev) : Prop where
  now : t ≤ d.ticks → d1 = d
  ticks : d1.ticks = max d.ticks t
  time : (d.tsEn && !d.tsGm && d.tsStepped) = false → d1.time = d.time + 20 * (t - d.ticks)
  dies : ∀ i, (d.die i).cyc10 ≤ (d1.die i).cyc10 ∧ (d1.die i).st = (d.die i).st ∧ (d1.die i).stopped = (d.die i).stopped ∧
    (d1.die i).linkFence = (d.die i).linkFence ∧ (d.dieClock i = false → d1.die i = d.die i)
  queues : ∀ q, (d1.queue q).fetch = (d.queue q).fetch ∧ (d1.queue q).resumeAt = (d.queue q).resumeAt ∧ ∃ n,
    (d1.queue q).run = (d.queue q).run.map fun c => { c with launch := c.launch.map fun l => { l with overrun := l.overrun + n } }
  rest : d1 = { d with
    time := d1.time
    timeFrac := d1.timeFrac
    ticks := d1.ticks
    free := d1.free
    dies := d1.dies
    spent := d1.spent
    queues := d1.queues
    fresh := d1.fresh
    caught := d1.caught
    noticed := d1.noticed
    pwr := { d.pwr with again := d1.pwr.again } }

/-- Time passes to the end `due` that the device counts to, and that end has come: `d1` is the device then. -/
def Comes (due : Dev → Option Nat) (d d1 : Dev) : Prop := d1 = d.passDue (due d) ∧ ∃ t, due d1 = some t ∧ t ≤ d1.ticks

/-- The same of an end that die `k` counts to in its core cycles. -/
def ComesAt (k : Nat) (due : Dev → Option Nat) (d d1 : Dev) : Prop := d1 = d.passCount k (due d) ∧ ∃ c, due d1 = some c ∧ c ≤ d1.cycle k

/-! ### Lines and registers -/

/-- The home slice of a place holds its line `x` in way `k` with data that is not poisoned, no client has a copy, and nothing is pending
in the slice; the home die is UP. -/
def HomeHolds (d : Dev) (l : Loc) (k : Nat) (x : SLine) : Prop :=
  (d.die l.die).st = 2 ∧ (d.slice (homeSlice l.die l.x)).find (l.x / 128) = some k ∧ (d.slice (homeSlice l.die l.x)).lines.find? k = some x ∧
    (d.slice (homeSlice l.die l.x)).pend = [] ∧ x.dir = .v ∧ x.valid = true ∧ x.poison = false

/-- The same of a line that is poisoned (R270). -/
def HomePoisoned (d : Dev) (l : Loc) (k : Nat) (x : SLine) : Prop :=
  (d.die l.die).st = 2 ∧ (d.slice (homeSlice l.die l.x)).find (l.x / 128) = some k ∧ (d.slice (homeSlice l.die l.x)).lines.find? k = some x ∧
    (d.slice (homeSlice l.die l.x)).pend = [] ∧ x.dir = .v ∧ x.valid = true ∧ x.poison = true

/-- The device after a whole access has used way `k` of slice `q`, which counts as a hit and makes the line the most recent of its set
(R271, R278). -/
def Machine.Dev.usedAt (d : Dev) (q k : Nat) : Dev := (d.modSlice q (·.touch k)).count .ucSlHits [q] 31 0

/-- As `KeepsCompute`, but that slices may have become more recent in the use of their lines (R271). -/
structure KeepsBytes (d d' : Dev) : Prop where
  dies : d'.dies = d.dies
  benches : d'.benches = d.benches
  net : d'.net = d.net
  bays : d'.bays = d.bays
  hbm : d'.hbm = d.hbm
  hbmPoison : d'.hbmPoison = d.hbmPoison
  slices : ∀ q, (d'.slice q).pend = (d.slice q).pend ∧ (d'.slice q).checks = (d.slice q).checks ∧
    ∀ k, ((d'.slice q).lines.find? k).map (fun x => { x with used := 0 }) = ((d.slice q).lines.find? k).map (fun x => { x with used := 0 })

/-- The report of an error of function `f` that AER sends the host, unless the function masks it (R350); `adv` where it is advisory. -/
def Machine.Dev.aerOut (d : Dev) (f : Nat) (e : AerErr) (adv : Bool) : List OutMsg :=
  if (d.fn f).aerMask.contains e then [] else [.error f e ((d.fn f).severity e adv)]

/-- A register whose fields act by their access codes alone. -/
def Machine.RegName.plain (r : RegName) : Bool :=
  !(r ∈ [.hbmWinBase, .hbmWinCfg, .cpQcfg, .cpQtail, .cpQbaseLo, .cpQbaseHi, .cpQcbaseLo, .cpQcbaseHi, .drwDnTail, .drwUpTail, .drwDnHead, .drwUpHead,
    .drwDnSlot, .drwUpSlot, .drwDnPend, .drwUpPend, .drwInstCtl, .datCtl, .fabDevid, .fabPeerId, .fabXclpCfg, .fabXclpKids0, .fabXclpKids1, .fabPortCtl,
    .pwrDieCtl, .pwrDieOp, .pwrEvt, .fcDevRec1, .fcDieRec1, .fcViewRec1, .secReset, .fabErrStatus, .datErrStatus, .pwrErrStatus])

/-- An access of the physical function at offset `a` reaches register `r` at indices `ix`. -/
def Hits (d : Dev) (a : Nat) (r : RegName) (ix : List Nat) : Prop :=
  d.bar0Loc 0 a = .reg a false ∧ regAt a = some (r, ix) ∧ r.addr ix = a ∧ d.regHidden a = false ∧ a % 4 = 0 ∧ a + 4 ≤ 2 ^ 26 ∧ (d.fn 0).flr = false

/-- A link-up of a die succeeds (R240, R241): its PLLs lock, its record is acceptable and lacks no device-wide bit, and a site
toward the IOD that the record names has trained. -/
def LinksUp (d : Dev) (die : Nat) (f : LinkUpFind) : Prop :=
  f.pll = true ∧ ∃ r, f.record = some r ∧ recordOk r = true ∧ d.recordLacks r = false ∧
    ∃ i, i < 24 ∧ siteFacing die i = some 8 ∧ (recordSites r).testBit i = true ∧ f.trained.getLsbD i = true

/-- The collector block that software names. -/
def Machine.RecBlock.block : RecBlock → FcBlock
  | .dev => .dev
  | .die i => .die i
  | .view k => .view k

/-- `m` is what the network serves next among the messages that have arrived and satisfy `p` (R212); `d1` is the device without it, the flit
counted if it is late (R228). -/
def Serves (p : Msg → Bool) (d : Dev) (m : Msg) (d1 : Dev) : Prop := d.recv p = some (m, d1)

/-- A message is on its way that writes byte `v` to device address `a` through a bay cache. -/
def WritesByte (net : List Msg) (a : Nat) (v : Byte) : Prop :=
  ∃ x ∈ net, x.kind = .benchWrite ∧ x.line = a / 128 ∧ x.be.getLsbD (a % 128) = true ∧ x.data.byte (a % 128) = v

/-! ### The jig core -/

/-- The jig core of bench `b` issues the instruction `w` (R38, R178, R179, R185): it can issue, `w` stands at its program counter,
inside the context's range and aligned, is no reserved encoding, names no register that awaits a plane instruction's write, and its fetch
meets no double-bit error. -/
structure JigReady (d : Dev) (b : Nat) (f : Ecc) (w : W64) : Prop where
  issue : d.jigCanIssue b = true
  range : (d.bench b).fetchOk (d.bench b).pc = true
  word : (d.bench b).instrAt (d.bench b).pc = w
  place : major64 (majorOf w) = true → (d.bench b).pc % 8 = 0
  legal : jigStreamBad w = none
  free : (d.bench b).jigInterlocked w = false
  ecc : f ≠ .double

/-- The device after the fetch: as it was, or with a corrected error recorded (R38). -/
def Machine.Dev.fetchedBy (d : Dev) (b : Nat) (f : Ecc) : Dev := (d.fetchEcc b (d.bench b).pc f).2

/-- Bench `b` goes on at `pc` with `v` in jig register `rd` (j0 keeps reading zero); nothing else changes. -/
def JigDoes (b rd : Nat) (v : W32) (pc : Nat) (d d' : Dev) : Prop :=
  d' = { d with benches := d'.benches } ∧ BenchesBut b d d' ∧
  d'.bench b = { d.bench b with
    pc := pc
    jregs := (d'.bench b).jregs } ∧
  ∀ r, r < 32 → (d'.bench b).j r = if r = rd ∧ r ≠ 0 then v else (d.bench b).j r

/-- Bench `b` becomes `x`; nothing else changes. -/
def BenchBecomes (b : Nat) (x : Bench) (d d' : Dev) : Prop :=
  d' = { d with benches := d'.benches } ∧ BenchesBut b d d' ∧ d'.bench b = x

/-- The running context of bench `b` is killed for a cause (R59): the bench stops, one report names the cause, and the local store,
the other benches and what is in flight stay. -/
def Kills (b code access addr : Nat) (d d' : Dev) : Prop :=
  BenchesBut b d d' ∧ (d'.bench b).running = false ∧ ((d'.bench b).ctxN (d.bench b).runCtx).killed = true ∧
  ((d'.bench b).ctxN (d.bench b).runCtx).killCause = code ∧ (d'.bench b).tile = (d.bench b).tile ∧
  (∃ r, d'.reports = d.reports ++ [r] ∧ r.code = code ∧ r.master = benchMaster b ∧ r.access = access ∧ r.addr = addr) ∧
  d'.net = d.net ∧ d'.hbm = d.hbm ∧ d'.dies = d.dies ∧ KeepsQueues d d'

/-- An access of the jig core enters the scoreboard as entry `i` and need not wait (R51, R52); `d1` is the device with its entry. -/
def Enters (d : Dev) (b : Nat) (r : SbRange) (i : Nat) (d1 : Dev) : Prop := d.sbTry b (d.bench b).jigSb r = (some (i, true), d1)

/-! ### The plane engine -/

/-- The plane engine of bench `b` issues the instruction `i` of a source, a word that is not reserved there (R116, R140, R141, R178);
`d1` is the device after its fetch. -/
def PlaneReady (d : Dev) (b : Nat) (src : PlaneSrc) (f : Ecc) (i : Issue) (d1 : Dev) : Prop :=
  (match src with
    | .jig => d.queueHead b
    | .group s => d.threadFetch b s f) = .go i d1 ∧ planeBad i.word i.slot.isSome = none

/-- Register `n` of bench `b` is written under R118 and R143 with elements `val`: written lanes take them, zeroed lanes are zero, and the
others stay, as do every other vector register, the masks and the jig registers. -/
def LaneWise (b : Nat) (i : Issue) (n es : Nat) (val : Nat → Nat) (d d' : Dev) : Prop :=
  (∀ l k, l < 64 → k < 32 / es → i.writes l = true → laneN ((d'.bench b).vreg n) es (l * (32 / es) + k) = val (l * (32 / es) + k) % 2 ^ es) ∧
  (∀ l, l < 64 → i.writes l = false → laneN ((d'.bench b).vreg n) 32 l = if i.zeroes l then 0 else laneN ((d.bench b).vreg n) 32 l) ∧
  (∀ r, r ≠ n → (d'.bench b).vreg r = (d.bench b).vreg r) ∧ (∀ m, (d'.bench b).mreg m = (d.bench b).mreg m) ∧
  (d'.bench b).jregs = (d.bench b).jregs

/-- The instruction `i` has left bench `b`'s plane queue, or its cohort has moved on to the next instruction; it is counted. Registers of
the device but PLN_ISSUED and PLN_FLAGS, memory, other benches and everything outside the benches are as before. -/
def PlaneRetired (b : Nat) (i : Issue) (d d' : Dev) : Prop :=
  d' = { d with
    benches := d'.benches
    regs := d'.regs } ∧ BenchesBut b d d' ∧
  RegsBut [RegName.plnIssued.addr [b], RegName.plnFlags.addr [b]] d d' ∧
  (d'.reg .plnIssued [b]).toNat = min (2 ^ 32 - 1) ((d.reg .plnIssued [b]).toNat + 1) ∧
  (d'.bench b).tile = (d.bench b).tile ∧ (d'.bench b).pc = (d.bench b).pc ∧ (d'.bench b).sb = (d.bench b).sb ∧
  (d'.bench b).merge = (d.bench b).merge ∧ (d'.bench b).running = (d.bench b).running ∧
  (i.slot = none → (d'.bench b).plane.queue = (d.bench b).plane.queue.drop 1 ∧ (d'.bench b).slots = (d.bench b).slots) ∧
  ∀ k g, i.slot = some k → (d.bench b).group k = some g → ∃ g', (d'.bench b).group k = some g' ∧ g'.num = g.num ∧ g'.exited = g.exited ∧
    g'.arrived = g.arrived ∧ g'.clampWait = g.clampWait ∧ ∀ t, t < 64 → g'.pc t = if i.mask.testBit t then i.pc + 8 else g.pc t

/-- The access `i` has left bench `b`'s plane queue, or its cohort has moved on; it is counted, the port is free, and the program
counter, the masks and everything outside the bench but what is in flight are as before. -/
def PlaneMoved (b : Nat) (i : Issue) (d d' : Dev) : Prop :=
  BenchesBut b d d' ∧ d'.dies = d.dies ∧ d'.hbm = d.hbm ∧ KeepsQueues d d' ∧ (d'.bench b).plane.pends = (d.bench b).plane.pends ∧
  (d'.bench b).plane.masks = (d.bench b).plane.masks ∧ (d'.bench b).pc = (d.bench b).pc ∧ (d'.bench b).running = (d.bench b).running ∧
  (d'.reg .plnIssued [b]).toNat = min (2 ^ 32 - 1) ((d.reg .plnIssued [b]).toNat + 1) ∧
  (i.slot = none → (d'.bench b).plane.queue = (d.bench b).plane.queue.drop 1 ∧ (d'.bench b).slots = (d.bench b).slots) ∧
  ∀ k g, i.slot = some k → (d.bench b).group k = some g → ∃ g', (d'.bench b).group k = some g' ∧ g'.num = g.num ∧ g'.exited = g.exited ∧
    ∀ t, t < 64 → g'.pc t = if i.mask.testBit t then i.pc + 8 else g.pc t

/-- An access of bench `b`'s plane engine with the ranges `rs` need not wait: no access is under way, the scoreboard has room and no older
entry conflicts (R51, R52), no fence waits for the scoreboard, and no entry of the merge buffer has bad parity. -/
structure AccessFree (d : Dev) (b : Nat) (rs : List SbRange) : Prop where
  alone : (d.bench b).plane.pends = []
  older : ∀ e ∈ (d.bench b).sb, e.id < (d.bench b).nextId
  free : (d.bench b).sbFree rs = true
  groups : ∀ c ∈ (d.bench b).slots.cells, c.2.fences = []
  jig : ∀ sys acq upto, (d.bench b).wait ≠ .fence sys acq upto
  parity : ∀ e ∈ (d.bench b).merge, e.pe = false

/-- An element as a number of its integer type: 0 signed, 1 unsigned (R188). -/
def intElem (ty es x : Nat) : Int := if ty = 0 then (BitVec.ofNat es x).toInt else ((x % 2 ^ es : Nat) : Int)

/-! ### Caches -/

/-- The messages in flight are `rest`, and then `m` (with the stamps of its injection). -/
def Sent (rest : List Msg) (m : Msg) (d' : Dev) : Prop := ∃ x, d'.net = rest ++ [x] ∧
  { x with
    inBudget := m.inBudget
    epoch := m.epoch
    inj := m.inj } = m

/-- Only bay cache `y`, messages, budgets and registers differ. -/
def BayOnly (y : Nat) (d d' : Dev) : Prop := d' = { d with
    net := d'.net
    bays := d'.bays
    regs := d'.regs
    spent := d'.spent } ∧ ∀ z, z ≠ y → d'.bay z = d.bay z

/-- Only slice `q`, messages, budgets and registers differ. -/
def SliceOnly (q : Nat) (d d' : Dev) : Prop := d' = { d with
    net := d'.net
    slices := d'.slices
    regs := d'.regs
    spent := d'.spent } ∧ ∀ z, z ≠ q → d'.slice z = d.slice z

/-- A saturating 32-bit count of register `r` has gone up by one. -/
def Counted (r : RegName) (ix : List Nat) (d d' : Dev) : Prop := (d'.reg r ix).toNat = min (2 ^ 32 - 1) ((d.reg r ix).toNat + 1)

/-! ### Commands of the command processor -/

/-- The command `i` lets queue `q`'s command `c` end with a status, INFO0 and a fault (R313, R329), after it has left the device as `keep`
says; the other queues are as before. -/
def EndsCmd (q : Nat) (c : Cmd) (i : Instr) (s : State) (keep : Dev → Prop) (st info fault : Nat) : Prop :=
  ∃ (d1 : Dev) (c1 : Cmd), (d1.queue q).run = some c1 ∧ c1.seq = c.seq ∧ c1.pkt = c.pkt ∧ c1.fault = c.fault ∧ c1.overrun = c.overrun ∧ c1.launch = c.launch ∧
    (∀ r, r ≠ q → d1.queue r = s.dev.queue r) ∧ keep d1 ∧ Completes i s (d1.finish q st info fault)

/-- Bytes have left for host memory, or wait for their function to return to D0 (R347). -/
def HostWrites (fn : Nat) (ro : Bool) (ms : List (Nat × List Byte)) (d d1 : Dev) : Prop :=
  ((d.fn fn).d3 = false → d1.out = d.out ++ ms.map (fun m => .hostWrite fn m.1 m.2 ro) ∧ d1.heldMsgs = d.heldMsgs) ∧
  ((d.fn fn).d3 = true → d1.out = d.out ∧ d1.heldMsgs = d.heldMsgs ++ ms.map fun m => (fn, .write m.1 m.2 ro))

/-- A sequenced frame as `p` says stands in the stream to peer `i` (the clamp stream with `c`), sent and not yet acknowledged or waiting to be
sent (R383). -/
def Queued (d : Dev) (i : Nat) (c : Bool) (p : Frame → Prop) : Prop :=
  ∃ x ∈ ((d.peer i).stream c).unacked ++ ((d.peer i).stream c).backlog, p x.frame

/-- The 32 lines from address `a` on are held by their home slices as `HomeHolds` says, and `bs` are their bytes. -/
def BlockHeld (d : Dev) (who : Who) (a : Nat) (bs : List Byte) : Prop :=
  bs.length = 4096 ∧ a % 128 = 0 ∧ ∀ i, i < 32 → ∃ l k x, d.access who (a + 128 * i) = some l ∧ HomeHolds d l k x ∧ x.data = lineOf ((bs.drop (128 * i)).take 128)

/-! ### Frames -/

/-- The opcode and the command of a frame that can arrive (R376). -/
def FrameRow (p : PortIx) (find : FrameFind) (f : Frame) (sub : Fin 20) (r : Nat × Instr) : Prop := r ∈
  [(0x01, .writeFrame p find f), (0x02, .readReq p find f), (0x03, .readRsp p find f), (0x04, .redFrame p find f), (0x05, .atomicFrame p find f),
    (0x06, .atomicRsp p find f), (0x07, .refused p find f), (0x08, .coll p find f), (0x10, .mirrorWrite p find f), (0x11, .mirrorCommitFrame p find f),
    (0x12, .mirrorConfirm p find f), (0x20, .clampUp p find f), (0x21, .clampDown p find f), (0x30, .ack p find f), (0x31, .nak p find f),
    (0x32, .resync p find f), (0x33, .lack p find f), (0x34, .lnak p find f), (0x40, .tsSync p find f sub), (0x41, .tsFollow p find f),
    (0x42, .tsPdreq p find f), (0x43, .tsPdresp p find f sub)]

/-- A frame of opcode `op` comes intact over port `p` from the peer of entry `i`, and passes every check of R377; `d1` is the device after link
retry, which on a DIRECT port takes the frame with the next LSEQ and answers it with LACK (R382). -/
structure Arrives (d : Dev) (p : Nat) (find : FrameFind) (f : Frame) (op i : Nat) (d1 : Dev) : Prop where
  up : (d.port p).st = 3
  intact : find = .ok
  link : if (d.port p).direct = true ∧ op ≠ 0x33 ∧ op ≠ 0x34 then f.lseq % 256 = (d.port p).lseqExp ∧
      d1 = (d.setPort p { d.port p with lseqExp := ((d.port p).lseqExp + 1) % 256 }).emit
        (.frame p { op := 0x33, src := d.ownId (d.instOfPort p), dst := (d.port p).partnerId, lseq := f.lseq % 256 })
    else d1 = d
  mine : d.regBit .fabDevid [d.instOfPort p] 31 = true ∧ f.dst = d.ownId (d.instOfPort p)
  known : d.findPeer (d.instOfPort p) f.src = some i
  system : op ∈ [0x04, 0x05, 0x06, 0x08, 0x20, 0x21] → d.peerSystem i = true

/-- The sequenced frame `f` of the command `c` is accepted as the next of its stream from peer `i`, and performed with what `P` says; then what it
acknowledges counts (R383). -/
def Accepts (c : Instr) (s : State) (op i : Nat) (f : Frame) (P : Dev → Prop) : Prop :=
  ∃ d2, P d2 ∧ ((d2.peer i).stream (clampStream op)).expected = (f.seq + 1) % 2 ^ 32 ∧ Completes c s (d2.ackTo i (clampStream op) f.ack)

/-! ### The device at rest -/

/-- The commands that may begin a boot or end one (R458). -/
def Instr.boots : Instr → Bool
  | .inputSwitchCloseDelay _ | .perstNAssert _ | .perstNDeassert | .secReset _ _ | .securityWatchdog _ | .hostLinkDown _ | .hotReset _ => true
  | _ => false

/-- The device does not run, and no command that waits begins a boot. -/
def Machine.State.Dormant (s : State) : Prop := s.dev.live = false ∧ ∀ c ∈ s.pending, c.boots = false

end Sys2Proof
end

