-- ==== Sys2Proof/WellFormed.lean ====
section
/-! DEFINITION. Which commands are well formed: what an operand must satisfy beyond its type. A command that is not well formed names an
event that cannot happen (a payload longer than a frame holds, an offset outside the array it lies in). -/

namespace Sys2Proof
open Machine

/-- An optional offset lies below a limit. -/
def under (o : Option Nat) (lim : Nat) : Bool := o.all fun n => decide (n < lim)

/-- A payload is no longer than a transaction or a frame carries (R339, R375). -/
def payloadOk (bs : List Byte) : Bool := decide (bs.length ≤ 4096)

/-- Bytes of a function's BAR0 (R341). -/
def bar0Bytes (f : FnIx) : Nat := if f = 0 then 67108864 else 1048576

/-- A finding in a local store names an offset only where there is an error. -/
def Machine.EccAt.wf (e : EccAt) : Bool := decide (e.off < 1048576) && (e.e != .ok || e.off == 0)

/-- A capability record has 64 bytes (R238). -/
def Machine.LinkUpFind.wf (f : LinkUpFind) : Bool := f.record.all fun r => r.length == 64

/-- A boot finds the link-up of eight compute dies. -/
def Machine.BootFind.wf (f : BootFind) : Bool := f.dies.length == 8 && f.dies.all LinkUpFind.wf

/-- The fields of a frame hold what their widths can (R375). -/
def Machine.Frame.wf (f : Frame) : Bool :=
  decide (f.op < 256) && decide (f.lseq < 256) && decide (f.src < 1048576) && decide (f.dst < 1048576) && decide (f.seq < 4294967296) &&
    decide (f.ack < 4294967296) && decide (f.laddr < 18446744073709551616) && decide (f.len < 65536) && decide (f.tag < 65536) && payloadOk f.data

/-- A link partner has a port number and a device ID (R369, R371). -/
def Machine.TrainFind.wf (f : TrainFind) : Bool :=
  match f with
  | .failed | .laneOrder => true
  | .up lk8 _ => lk8.all fun x => decide (x.1 < 32) && decide (x.2.1 < 1048576)

/-- A firmware component lies in the slot and its version is a 32-bit number (R470, R473). -/
def Machine.Component.wf (c : Component) : Bool :=
  decide (c.ty < 65536) && decide (c.off + c.size ≤ 264241152) && decide (c.svn < 4294967296) && decide (c.body.length ≤ c.size)

/-- A register write carries data and lies in its function's BAR0. -/
def Machine.RegTarget.wf (t : RegTarget) : Bool :=
  match t with
  | .bar0 f off data => data != [] && payloadOk data && decide (off + data.length ≤ bar0Bytes f)
  | .config _ _ _ => true
  | .configNum _ _ _ => true

/-- A command is well formed. -/
def Instr.wf (c : Instr) : Bool :=
  match c with
  | .inputSwitchCloseDelay f => f.wf
  | .firmwareUpdateComponent c => c.wf
  | .perstNAssert f => f.wf
  | .secReset _ f => f.wf
  | .securityWatchdog f => f.wf
  | .hostLinkDown f => f.wf
  | .hotReset f => f.wf
  | .hostBar2Read _ _ n => decide (1 ≤ n.val)
  | .hostBar2Write _ _ bs _ => payloadOk bs && bs != []
  | .hostAtomicop _ _ size _ _ _ => size.val == 4 || size.val == 8 || size.val == 16
  | .registerWrite t => t.wf
  | .registerReadClear f off => decide (off.toNat + 4 ≤ bar0Bytes f)
  | .hostReadCompletion _ _ _ data => payloadOk data
  | .seal x => x.fs.all fun x => x.2.ls.wf
  | .quiesce x => x.fs.all fun x => x.2.ls.wf
  | .faultReport n => decide (1 ≤ n)
  | .dieLinkUp _ f => f.wf
  | .reseatDone _ f => f.wf
  | .benchStart _ x => x.fs.all fun x => x.2.ls.wf
  | .tileMoverDescriptorStart _ d => d.wf
  | .slotTransferStart _ d => d.wf
  | .commandBoundary _ _ x => under x.pe 16384 && under x.vp 65536
  | .contextStart x => x.e.wf
  | .stationaryReady _ e => e.wf
  | .mortiseStep _ e stg stn => e.wf && under stg 65536 && under stn 65536
  | .dressing _ pe => under pe 8192
  | .glueUpDrain _ pe => under pe 8192
  | .gmma _ _ _ e x => e.wf && under x.vp 65536 && under x.pe 8192
  | .vopArith _ _ _ vp => under vp 65536
  | .fma _ _ _ vp => under vp 65536
  | .rcpRsqSqrtExp2Log2 _ _ _ vp => under vp 65536
  | .mulh _ _ _ vp => under vp 65536
  | .shlShr _ _ _ vp => under vp 65536
  | .andOrXor _ _ _ vp => under vp 65536
  | .cvt _ _ _ vp => under vp 65536
  | .cmp _ _ _ vp => under vp 65536
  | .sel _ _ _ vp => under vp 65536
  | .maskLogic _ _ _ vp => under vp 65536
  | .perm _ _ _ vp => under vp 65536
  | .perm2 _ _ _ vp => under vp 65536
  | .rot _ _ _ vp => under vp 65536
  | .rev _ _ _ vp => under vp 65536
  | .xswap _ _ _ vp => under vp 65536
  | .bcast _ _ _ vp => under vp 65536
  | .zipUnzip _ _ _ vp => under vp 65536
  | .pack _ _ _ vp => under vp 65536
  | .unpk _ _ _ vp => under vp 65536
  | .vld _ e lp vp => e.wf && under lp 137438953472 && under vp 65536
  | .vst _ e lp vp _ => e.wf && under lp 137438953472 && under vp 65536
  | .vldx _ e lp vp => e.wf && under lp 137438953472 && under vp 65536
  | .vstx _ e lp vp _ => e.wf && under lp 137438953472 && under vp 65536
  | .compress _ _ _ vp => under vp 65536
  | .expand _ _ _ vp => under vp 65536
  | .cstore _ _ _ vp e => under vp 65536 && e.wf
  | .xload _ _ _ vp e => under vp 65536 && e.wf
  | .mvjp _ _ _ vp => under vp 65536
  | .sum _ _ _ vp => under vp 65536
  | .ofrd _ _ _ op => under op 8192
  | .tgMoveDone _ _ x => x.e.wf && under x.vp 65536
  | .bnz _ _ _ vp => under vp 65536
  | .bz _ _ _ vp => under vp 65536
  | .cadd _ _ _ vp => under vp 65536
  | .tctlCwait _ _ _ vp => under vp 65536
  | .tmemLd _ _ _ e lp vp => e.wf && under lp 137438953472 && under vp 65536
  | .tmemSt _ _ _ e lp vp _ => e.wf && under lp 137438953472 && under vp 65536
  | .threadAtomic _ _ _ e vp => e.wf && under vp 65536
  | .clampRootUpdate _ k _ => decide (1 ≤ k)
  | .hbmEcs _ n => decide (n < 65536)
  | .portTrainingDone _ f => f.wf
  | .writeFrame _ _ f => f.wf
  | .readReq _ _ f => f.wf
  | .readRsp _ _ f => f.wf
  | .redFrame _ _ f => f.wf
  | .atomicFrame _ _ f => f.wf
  | .atomicRsp _ _ f => f.wf
  | .refused _ _ f => f.wf
  | .coll _ _ f => f.wf
  | .mirrorWrite _ _ f => f.wf
  | .mirrorCommitFrame _ _ f => f.wf
  | .mirrorConfirm _ _ f => f.wf
  | .clampUp _ _ f => f.wf
  | .clampDown _ _ f => f.wf
  | .ack _ _ f => f.wf
  | .nak _ _ f => f.wf
  | .resync _ _ f => f.wf
  | .lack _ _ f => f.wf
  | .lnak _ _ f => f.wf
  | .tsSync _ _ f _ => f.wf
  | .tsFollow _ _ f => f.wf
  | .tsPdreq _ _ f => f.wf
  | .tsPdresp _ _ f _ => f.wf
  | .hostBar0Read f off n => decide (1 ≤ n.val) && decide (off.toNat + n.val ≤ bar0Bytes f)
  | .inputRiseAboveTurnOn | .inputOverVoltageWarning | .inputOverVoltageDisconnect | .busPrsntBreak | .pwrDisAssert | .pwrDisRelease | .mgmtRst
  | .inputBelowWarning | .supplyTriggerEnd | .brownOut | .inputCurrentWarning .. | .inputCurrentLimit .. | .currentTriggerEnd
  | .energyBucketUpdate .. | .limiterStepDown .. | .limiterReleaseStep .. | .thermalThrottle .. | .thermalTrip .. | .sensorFailed ..
  | .thermalCapStep .. | .phaseMarkAct | .opChangeDone .. | .baySleep .. | .bayWake .. | .bayWakeDone .. | .domainWakeTimeout .. | .regulatorFault ..
  | .powerOff .. | .powerOffDone .. | .powerOn .. | .powerOnDone .. | .coolantLeak | .coolantInletHot .. | .coolantRiseHigh .. | .moduleBoardHot ..
  | .cableMate .. | .cableRemove .. | .cableSupplyOverload .. | .bypass .. | .idcode .. | .samplePreload .. | .extest .. | .debugInstruction ..
  | .entdaa .. | .pldmPlatformRequest .. | .pldmFruRequest | .getVersion .. | .getCapabilities .. | .negotiateAlgorithms .. | .getDigests ..
  | .getCertificate .. | .challenge .. | .getMeasurements .. | .debugNonceRequest | .debugToken .. | .activateFirmware | .perstNDeassert
  | .malformedTlp .. | .vfEnableSet | .vfEnableClear | .numvfsWrite .. | .vfFlr .. | .flrHoldExpiry .. | .pfFlr | .bar2Resize .. | .d3hotEntry ..
  | .d0Return .. | .msixUnmask .. | .completionTimeout .. | .queueEnable .. | .queueDisable .. | .doorbell .. | .queueFetch .. | .nop .. | .fence ..
  | .fenceComplete .. | .timestamp .. | .query .. | .loadProgram .. | .launch .. | .launchStepStart .. | .launchStepEnd .. | .overrunRaise ..
  | .launchKill .. | .copy .. | .fill .. | .collective .. | .collectiveMemberTimeout .. | .shelfSet .. | .shelfSweepDone .. | .mirrorOpen ..
  | .mirrorCommit .. | .mirrorRestore .. | .quiesceTimeout .. | .resume .. | .mark .. | .progressMarkLate .. | .deadlineExpiry ..
  | .cpCoreWatchdog .. | .drawerTailWrite .. | .drawerHeadWrite .. | .drawerSlotWrite .. | .instanceReset .. | .instanceResetDone ..
  | .linePairInvalid .. | .lineAssertTimeout .. | .reportLostTimeout | .faultRecordClear .. | .recoveryQuietExpiry .. | .latchRelease ..
  | .gatewayFlitReceive .. | .linkReplay .. | .moduleTrainingDone .. | .moduleListApply .. | .clockMonitorTrip .. | .linkMonitorTrip ..
  | .dieFenceRequest .. | .reseat .. | .epochStart .. | .startMessage .. | .controlFlitReceive .. | .bulkFlitEject .. | .killMessage ..
  | .jigIssueMortise .. | .planeQueueIssue .. | .alu .. | .addi .. | .andi .. | .ori .. | .xori .. | .slti .. | .sltiu .. | .shi .. | .lui ..
  | .jigLoad .. | .jigStore .. | .pf .. | .jigBranch .. | .jal .. | .jalr .. | .sysNop .. | .endOp .. | .rdcyc .. | .sysFence .. | .cwait ..
  | .cwaitExit .. | .counterWaitTimeout .. | .tm .. | .tileMoverResponse .. | .tileMoverWriteAck .. | .slot .. | .slotTransferLanding ..
  | .lineFillArrival .. | .mergeBufferIdleDrain .. | .mergeBufferDrainAck .. | .scoreboardRetire .. | .fold .. | .stream .. | .sload .. | .gopen ..
  | .gclose .. | .scset .. | .srseed .. | .air .. | .vpf .. | .setvl .. | .pflags .. | .oftag .. | .ofpop .. | .outfeedWaitTimeout .. | .tglaunch ..
  | .tgpark .. | .tgact .. | .groupRetire .. | .jmp .. | .exitThreads .. | .bar .. | .tctlFence .. | .li .. | .carrive .. | .clpArrive ..
  | .clpAdd .. | .clpWait .. | .clampShadowUpdate .. | .clampWaitExit .. | .clampWatchdogExpiry .. | .bayLoadRequest .. | .bayMaskedWrite ..
  | .bayAtomic .. | .bayGrant .. | .bayWbAck .. | .rds .. | .rdu .. | .rdx .. | .rdxn .. | .wb .. | .wra .. | .ata .. | .red .. | .reductionApply ..
  | .inv .. | .dwn .. | .rcl .. | .snoopReply .. | .sliceHbmFill .. | .sliceFillWaitRetry .. | .windowValidSet .. | .windowValidClear ..
  | .windowBusyEnd .. | .hbmRead .. | .hbmWrite .. | .hbmRefresh .. | .hbmRetrain .. | .caParityError .. | .portEnable .. | .portDisable ..
  | .portDownRequest .. | .portAlignmentLoss .. | .fabricRefclkLoss | .fabricRefclkReturn | .fabDevidWrite .. | .fabPeerIdWrite .. | .fabXclpWrite ..
  | .tsSyncInterval | .retransmitTimeout .. | .peerNoPortTimeout .. | .resyncTimer .. | .ackDelayExpiry .. | .llrAckTimeout .. | .mirrorBlockSend ..
  | .commitTimeout .. | .repairTimeout .. | .busPrsntMate | .overVoltageWarningEnd | .inputBackAboveWarning | .currentBackBelowIwarn ..
  | .sensorBelowReleaseThreshold .. | .linePairValidAgain .. | .hostLinkUp .. | .linkCorrectableError .. => true

end Sys2Proof
end

