-- ==== Sys2Proof/Certificates/Slice0/Obligations.lean ====
section
/-! DEFINITION. The statements about the model, for the provers. -/

open Sys2Proof Sys2Proof.Machine

/-- A step takes the command at the front of the queue and runs it on the queue's rest; it answers a next state. -/
def Obligations.StepRunsFront : Prop :=
  ∀ (c : Instr) (rest : List Instr) (d : Dev), step ⟨c :: rest, d⟩ = exec c ⟨rest, d⟩ ∧ ∃ d', exec c ⟨rest, d⟩ = .next ⟨rest, d'⟩

/-- A step on an empty queue is one always-on tick of 20 ns (R6); the model's choice, and so is that time passes to the end that a command
stands for. -/
def Obligations.IdleTicks : Prop :=
  (∀ d : Dev,
    (d.on = false → step ⟨[], d⟩ = .next ⟨[], d⟩) ∧
    (d.on = true → (d.tsEn && !d.tsGm && d.tsStepped) = false → d.starts = [] → d.hostWait = [] →
      ∃ d', step ⟨[], d⟩ = .next ⟨[], d'⟩ ∧ d'.time = d.time + 20 ∧ d'.ticks = d.ticks + 1 ∧ d'.hbm = d.hbm ∧ d'.benches = d.benches ∧
        d'.net = d.net ∧ d'.flash = d.flash ∧ d'.out = d.out ∧ d'.board = d.board ∧
        ∀ i, i < 8 →
          (d.dieClock i = false → (d'.die i).cyc10 = (d.die i).cyc10) ∧
          (d.dieClock i = true → d.pwr.opStop.find? i = none → ∀ op, d.opNow i = op →
            (d'.die i).cyc10 = (d.die i).cyc10 + (if op = 0 then 80 else if op = 1 then 120 else if op = 2 then 160 else if op = 3 then 192 else 220)))) ∧
  (∀ d : Dev, d.on = true → d.starts = [] →
    (∀ t, Passed d t (d.passTo t)) ∧
    ∀ i c, i < 8 → d.dieClock i = true → d.pwr.opStop.find? i = none →
      c ≤ (d.passCount i (some c)).cycle i ∧ ∃ t, Passed d t (d.passCount i (some c)))

/-- What reset leaves. The flash's contents are the model's choice (log entry 5). -/
def Obligations.ResetValues : Prop :=
  State.reset.pending = [] ∧ State.reset.dev.board.swOn = false ∧ State.reset.dev.live = false ∧ State.reset.dev.time = 0 ∧
    State.reset.dev.hbm.wf = true ∧ (∀ a, State.reset.dev.hbm.read a = 0) ∧ (∀ i, (State.reset.dev.die i).st = 0) ∧
    (∀ (r : RegName) (ix : List Nat), State.reset.dev.reg r ix = r.reset) ∧
    State.reset.dev.flash.a.st = 2 ∧ State.reset.dev.flash.b.st = 0

/-- Reset is dormant. -/
def Obligations.ResetDormant : Prop := State.reset.Dormant

/-- Only the commands of R458 make the device run: every step keeps a dormant state dormant. -/
def Obligations.DormantKept : Prop :=
  ∀ s s' : State, s.Dormant → step s = .next s' → s'.Dormant

/-- What starts the 20 ms of the input switch, and what its openings leave (R24, R25, R26, R447). -/
def Obligations.SwitchClosesAndOpens : Prop :=
  (∀ (s : State) (b : Board), s.dev.board = b → b.swOn = false →
     Completes .inputRiseAboveTurnOn s
       { s.dev with board := { b with risen := true, starting := b.starting || (b.mated && !b.pwrDis) } } ∧
     Completes .busPrsntMate s
       { s.dev with board := { b with mated := true, starting := b.starting || (b.risen && !b.pwrDis) } } ∧
     (b.pwrDis = true → Completes .pwrDisRelease s
       { s.dev with board := { b with pwrDis := false, starting := b.starting || (b.mated && b.risen) } })) ∧
  (∀ s : State, s.dev.board.swOn = true →
     let gone (d' : Dev) : Prop :=
       d'.board.swOn = false ∧ d'.live = false ∧ d'.regs = ⟨[]⟩ ∧ d'.dies = ⟨[]⟩ ∧ d'.benches = ⟨[]⟩ ∧ d'.hbm = ⟨[]⟩ ∧ d'.hbmPoison = ⟨[]⟩ ∧
       d'.queues = ⟨[]⟩ ∧ d'.slots = ⟨[]⟩ ∧ d'.bays = ⟨[]⟩ ∧ d'.slices = ⟨[]⟩ ∧ d'.peers = ⟨[]⟩ ∧ d'.ports = ⟨[]⟩ ∧ d'.mirrors = ⟨[]⟩ ∧
       d'.reports = [] ∧ d'.net = [] ∧ d'.time = 0 ∧ d'.flash = s.dev.flash ∧ d'.evlog = s.dev.evlog ∧ d'.out = s.dev.out
     Reaches .inputOverVoltageDisconnect s (fun d' => gone d' ∧ d'.board.ovTrip = true ∧ d'.board.mated = s.dev.board.mated ∧ d'.board.risen = s.dev.board.risen) ∧
     Reaches .busPrsntBreak s (fun d' => gone d' ∧ d'.board.mated = false ∧ d'.board.ovTrip = s.dev.board.ovTrip ∧ d'.board.risen = s.dev.board.risen) ∧
     Reaches .pwrDisAssert s (fun d' => gone d' ∧ d'.board.pwrDis = true ∧ d'.board.mated = s.dev.board.mated ∧ d'.board.risen = s.dev.board.risen) ∧
     Reaches .brownOut s (fun d' => gone d' ∧ d'.board.brownOut = true ∧ d'.board.risen = false ∧ d'.board.mated = s.dev.board.mated))

/-- Cables (R22), the management island's reset (R459), and the module causes of R32. -/
def Obligations.CablesAndModuleCauses : Prop :=
  let keeps (s : State) (d' : Dev) : Prop := KeepsCompute s.dev d' ∧ KeepsQueues s.dev d' ∧ KeepsFabric s.dev d' ∧ d'.fns = s.dev.fns ∧ d'.flash = s.dev.flash
  let tells (s : State) (code acc : Nat) (d' : Dev) : Prop :=
    code ∈ d'.modCauses ∧ (∀ c, c ≠ code → (c ∈ d'.modCauses ↔ c ∈ s.dev.modCauses)) ∧
    d'.reports = s.dev.reports ++ [{ code := code, master := 0xF810, access := acc, addr := 0, inst := none, die := none, raisedAt := s.dev.ticks }] ∧
    d'.pldm = s.dev.pldm ++ [(code, 0xF810)] ∧ d'.regBit .pwrEvt [] 8 = true ∧ keeps s d'
  let silent (s : State) (d' : Dev) : Prop :=
    d'.modCauses = s.dev.modCauses ∧ d'.reports = s.dev.reports ∧ d'.pldm = s.dev.pldm ∧ d'.out = s.dev.out ∧ keeps s d'
  let reads (n : Nat) (t : BitVec 16) (s : State) (d' : Dev) : Prop :=
    d'.regFld .pwrSens [n] 15 0 = t.toNat ∧ d'.sensFailed n = false ∧ ∀ m, m < 576 → m ≠ n → d'.reg .pwrSens [m] = s.dev.reg .pwrSens [m]
  (∀ (s : State) (j : Bool) (k : Nat), k = (if j then 3 else 2) →
     Completes (.cableRemove j) s { s.dev with board := { s.dev.board with cables := s.dev.board.cables.set k {} } } ∧
     (∀ c : Cable, c = { s.dev.cable k with mated := true, supply := s.dev.board.swOn && !(s.dev.cable k).latched } →
       let d1 : Dev := { s.dev with board := { s.dev.board with cables := s.dev.board.cables.set k c } }
       let again (p : Nat) : Prop := s.dev.live = true ∧ p < 24 ∧ s.dev.portConnector p = k ∧ (s.dev.port p).st = 1 ∧ (s.dev.port p).why = 2
       Reaches (.cableMate j) s fun d' => d'.board = d1.board ∧ (∀ p, ¬again p → d'.port p = s.dev.port p) ∧
         (∀ p, again p → d'.port p = (d1.portStart p).port p) ∧ d'.modCauses = s.dev.modCauses ∧ d'.peers = s.dev.peers ∧ d'.mirrors = s.dev.mirrors ∧
         KeepsCompute s.dev d' ∧ KeepsQueues s.dev d' ∧ ((∀ p, ¬again p) → d' = d1)) ∧
     (s.dev.on = true → (s.dev.cable k).supply = true →
       Reaches (.cableSupplyOverload j) s fun d' =>
         d'.cable k = { s.dev.cable k with supply := false, latched := true } ∧ d'.cable (5 - k) = s.dev.cable (5 - k) ∧ tells s 0x7C06 k d') ∧
     Completes .mgmtRst s s.dev) ∧
  (∀ s : State, s.dev.on = true →
     (0x7C01 ∉ s.dev.modCauses → Reaches .coolantLeak s fun d' => tells s 0x7C01 0 d' ∧ RegsBut [RegName.pwrEvt.addr []] s.dev d') ∧
     (0x7C01 ∈ s.dev.modCauses → Completes .coolantLeak s s.dev) ∧
     (∀ t : BitVec 16, -320 ≤ t.toInt → t.toInt ≤ 1200 →
       (s.dev.sensFailed 568 = false → 320 < t.toInt → 0x7C02 ∉ s.dev.modCauses → Reaches (.coolantInletHot t) s fun d' =>
         tells s 0x7C02 0 d' ∧ reads 568 t s d' ∧ d'.quiet.find? 824 = none) ∧
       (s.dev.sensFailed 569 = false → 320 < s.dev.coolantRise t → 0x7C03 ∉ s.dev.modCauses → Reaches (.coolantRiseHigh t) s fun d' =>
         tells s 0x7C03 0 d' ∧ reads 569 t s d' ∧ d'.quiet.find? 825 = none) ∧
       (∀ k : Fin 6, s.dev.sensFailed (570 + k) = false → 800 < t.toInt → 0x7C07 ∉ s.dev.modCauses →
         Reaches (.moduleBoardHot k t) s fun d' => tells s 0x7C07 0 d' ∧ reads (570 + k) t s d') ∧
       (s.dev.sensFailed 568 = false → 304 ≤ t.toInt → t.toInt ≤ 320 ∨ 0x7C02 ∈ s.dev.modCauses → Reaches (.coolantInletHot t) s fun d' =>
         silent s d' ∧ reads 568 t s d') ∧
       (s.dev.sensFailed 569 = false → 288 ≤ s.dev.coolantRise t → s.dev.coolantRise t ≤ 320 ∨ 0x7C03 ∈ s.dev.modCauses →
         Reaches (.coolantRiseHigh t) s fun d' => silent s d' ∧ reads 569 t s d') ∧
       (∀ k : Fin 6, s.dev.sensFailed (570 + k) = false → s.dev.pwr.therm.has (570 + k) = false → t.toInt ≤ 800 ∨ 0x7C07 ∈ s.dev.modCauses →
         Reaches (.moduleBoardHot k t) s fun d' => silent s d' ∧ reads (570 + k) t s d') ∧
       (s.dev.pwr.unfail = [] →
         (s.dev.sensFailed 568 = true → Reaches (.coolantInletHot t) s (silent s)) ∧ (s.dev.sensFailed 569 = true → Reaches (.coolantRiseHigh t) s (silent s)) ∧
         ∀ k : Fin 6, s.dev.sensFailed (570 + k) = true → Reaches (.moduleBoardHot k t) s (silent s))) ∧
     (0x7C04 ∉ s.dev.modCauses → s.dev.board.ovExc = false → Reaches .inputOverVoltageWarning s fun d' => tells s 0x7C04 0 d' ∧ d'.board.ovExc = true) ∧
     (s.dev.board.ovExc = true → Completes .inputOverVoltageWarning s s.dev) ∧
     Completes .overVoltageWarningEnd s
       { s.dev with board := { s.dev.board with ovExc := false }, modCauses := s.dev.modCauses.filter (· != 0x7C04) } ∧
     (s.dev.live = true → s.dev.writesWait 0 = false → Hits s.dev 0x400020 .pwrEvt [] → s.dev.filterRight 0 0x400020 = 2 →
       (s.dev.freshBits .pwrEvt []).getLsbD 8 = false → Reaches (.registerWrite (.bar0 0 0x400020 [0, 1, 0, 0])) s fun d' =>
         0x7C01 ∉ d'.modCauses ∧ 0x7C07 ∉ d'.modCauses ∧ d'.regBit .pwrEvt [] 8 = false ∧ KeepsCompute s.dev d' ∧ KeepsQueues s.dev d'))

/-- The supply and current triggers (R440, R442, R445). Levels: 0 is 100 %, 3 is 25 %; 5,000 ticks are 100 µs. -/
def Obligations.SupplyAndCurrentTriggers : Prop :=
  ∀ s : State, s.dev.on = true →
    (s.dev.pwr.supply ≠ 1 → Reaches .inputBelowWarning s fun d' =>
      d'.pwr.supply = 1 ∧ (∀ i < 8, 2 ≤ d'.limLevel i) ∧ d'.regBit .pwrErrStatus [] 0 = true ∧
      (d'.reg .pwrDips []).toNat = min (2 ^ 32 - 1) ((s.dev.reg .pwrDips []).toNat + 1) ∧
      (∃ r ∈ d'.reports, r.code = 0x7101 ∧ r.master = 0xF870) ∧ KeepsCompute s.dev d' ∧ KeepsQueues s.dev d' ∧ d'.flash = s.dev.flash) ∧
    (s.dev.pwr.supply = 1 → Completes .inputBelowWarning s s.dev ∧
      Completes .inputBackAboveWarning s { s.dev with pwr := { s.dev.pwr with supply := 2, supplyAt := s.dev.ticks } }) ∧
    (s.dev.pwr.supply = 2 → s.dev.supplyDue = some (s.dev.pwr.supplyAt + 5000)) ∧
    (∀ d1, Comes Dev.supplyDue s.dev d1 → Reaches .supplyTriggerEnd s fun d' =>
      d'.pwr.supply = 0 ∧ (∀ i < 8, d1.limLevel i ≤ d'.limLevel i) ∧ d'.reports = d1.reports ∧ KeepsCompute d1 d' ∧ KeepsQueues d1 d') ∧
    (∀ i : BitVec 16, s.dev.iwarn < i.toNat → Reaches (.inputCurrentWarning i) s fun d' =>
      d'.pwr.curWarn = true ∧ d'.pwr.curBack = false ∧ (∀ k < 8, 2 ≤ d'.limLevel k) ∧ d'.reports = s.dev.reports ∧
      KeepsCompute s.dev d' ∧ KeepsQueues s.dev d') ∧
    (∀ i : BitVec 16, 8000 ≤ i.toNat → Reaches (.inputCurrentLimit i) s fun d' =>
      d'.pwr.curLimit = true ∧ d'.pwr.curExc = true ∧ (∀ k < 8, d'.limLevel k = 3) ∧
      (s.dev.pwr.curExc = false → d'.regBit .pwrErrStatus [] 2 = true ∧ ∃ r, d'.reports = s.dev.reports ++ [r] ∧ r.code = 0x7103 ∧ r.master = 0xF870) ∧
      (s.dev.pwr.curExc = true → d'.reports = s.dev.reports) ∧ KeepsCompute s.dev d' ∧ KeepsQueues s.dev d') ∧
    (∀ i : BitVec 16, i.toNat < 8000 → (∀ v, Reaches (.energyBucketUpdate v i) s fun d' => d'.pwr.curExc = false) ∧
      (s.dev.iwarn < i.toNat → Reaches (.inputCurrentWarning i) s fun d' => d'.pwr.curExc = false)) ∧
    (∀ i : BitVec 16, i.toNat ≤ s.dev.iwarn → (s.dev.pwr.curWarn || s.dev.pwr.curLimit) = true → s.dev.pwr.curBack = false →
      Completes (.currentBackBelowIwarn i) s
        { s.dev with pwr := { s.dev.pwr with curExc := false, curBack := true, curAt := s.dev.ticks } }) ∧
    (s.dev.pwr.curBack = true → s.dev.currentDue = some (s.dev.pwr.curAt + 5000)) ∧
    (∀ d1, Comes Dev.currentDue s.dev d1 → Reaches .currentTriggerEnd s fun d' =>
      d'.pwr.curWarn = false ∧ d'.pwr.curLimit = false ∧ d'.pwr.curBack = false ∧ (∀ i < 8, d1.limLevel i ≤ d'.limLevel i) ∧
      d'.reports = d1.reports ∧ KeepsCompute d1 d' ∧ KeepsQueues d1 d')

/-- The excess-energy bucket (R449, R440). -/
def Obligations.EnergyBucket : Prop :=
  ∀ (s : State) (v i : BitVec 16) (b : Nat), s.dev.on = true →
    b = min 60000000000 (s.dev.pwr.bucket + v.toNat * i.toNat - 36000000) →
    Reaches (.energyBucketUpdate v i) s fun d' =>
      d'.pwr.bucket = b ∧ d'.regFld .pwrInput [] 15 0 = v.toNat ∧ d'.regFld .pwrInput [] 31 16 = i.toNat ∧
      KeepsCompute s.dev d' ∧ KeepsQueues s.dev d' ∧ d'.reports = s.dev.reports ∧ (d'.regLive .pwrEbucket []).toNat = min 6000 (b / 10000000) ∧
      (b = 60000000000 → s.dev.pwr.energy = none → d'.pwr.energy = some 1 ∧ d'.pwr.energyAt = s.dev.ticks ∧ ∀ k < 8, 1 ≤ d'.limLevel k) ∧
      (b = 60000000000 → s.dev.pwr.energy ≠ none → d'.pwr.energy = s.dev.pwr.energy) ∧
      (b ≤ 30000000000 → d'.pwr.energy = none) ∧
      (30000000000 < b → b < 60000000000 → d'.pwr.energy = s.dev.pwr.energy)

/-- The limiter's steps (R440, R441). -/
def Obligations.LimiterSteps : Prop :=
  ∀ s : State, s.dev.on = true →
    (s.dev.pwr.energy.isSome = true → s.dev.stepDue .energy = some (s.dev.pwr.energyAt + 50000)) ∧
    (∀ l d1, Comes (·.stepDue .energy) s.dev d1 → d1.pwr.energy = some l → Reaches (.limiterStepDown .energy) s fun d' =>
      d'.pwr.energy = some (min 3 (l + 1)) ∧ d'.pwr.energyAt = d1.ticks ∧ (∀ k < 8, min 3 (l + 1) ≤ d'.limLevel k) ∧
      KeepsCompute d1 d' ∧ KeepsQueues d1 d') ∧
    (∀ n : Fin 576, s.dev.pwr.therm.has n = true → s.dev.stepDue (.sensor n) = some (s.dev.pwr.thermAt.getD n 0 + 50000)) ∧
    (∀ (n : Fin 576) l d1, Comes (·.stepDue (.sensor n)) s.dev d1 → d1.pwr.therm.find? n = some l → Reaches (.limiterStepDown (.sensor n)) s fun d' =>
      d'.pwr.therm.find? n = some (min 3 (l + 1)) ∧ d'.pwr.energy = d1.pwr.energy ∧ (∀ k < 8, k ∈ sensorDies n → min 3 (l + 1) ≤ d'.limLevel k) ∧
      KeepsCompute d1 d' ∧ KeepsQueues d1 d') ∧
    (∀ (die : DieIx) c, s.dev.limWant die < s.dev.limLevel die → s.dev.pwr.limRel.find? die = some c → s.dev.releaseDue die = some (c + 256)) ∧
    (∀ (die : DieIx) d1, ComesAt die (·.releaseDue die) s.dev d1 → Reaches (.limiterReleaseStep die) s fun d' =>
      d'.limLevel die + 1 = d1.limLevel die ∧ (∀ k < 8, k ≠ die.val → d'.limLevel k = d1.limLevel k) ∧
      KeepsCompute d1 d' ∧ KeepsQueues d1 d' ∧ d'.reports = d1.reports)

/-- Throttle, trip, failed sensors and the thermal cap (R450 to R454). -/
def Obligations.ThermalThrottleAndTrip : Prop :=
  ∀ (s : State) (n : Fin 576) (t : BitVec 16), s.dev.on = true →
    let hbm : Bool := decide (536 ≤ n.val)
    let failed (d' : Dev) : Prop :=
      d'.sensFailed n = true ∧ d'.pwr.therm.find? n = none ∧ d'.quiet.find? (256 + n) = none ∧ KeepsCompute s.dev d' ∧ KeepsQueues s.dev d' ∧
      (∃ r ∈ d'.reports, r.code = 0x7204 ∧ r.addr = n.val ∧ r.master = 0xF870) ∧
      ∀ k < 8, (n.val < 512 ∧ n.val / 64 = k) ∨ (536 ≤ n.val ∧ n.val < 568 ∧ (n.val - 536) / 4 = k) → 1 ≤ d'.limLevel k
    (s.dev.sensFailed n = false →
      (n.val < 568 → (if hbm then 760 else 840) < t.toInt → t.toInt < (if hbm then 840 else 920) → Reaches (.thermalThrottle n t) s fun d' =>
        d'.regFld .pwrSens [n] 15 0 = t.toNat ∧ KeepsCompute s.dev d' ∧ KeepsQueues s.dev d' ∧ d'.quiet.find? (256 + n) = none ∧
        (s.dev.pwr.therm.find? n = none → d'.pwr.therm.find? n = some 1 ∧ (∀ k < 8, k ∈ sensorDies n → 1 ≤ d'.limLevel k) ∧
          ∃ r ∈ d'.reports, r.code = (if hbm then 0x7203 else 0x7201) ∧ r.addr = n.val ∧ r.master = 0xF870) ∧
        (s.dev.pwr.therm.has n = true → d'.pwr.therm = s.dev.pwr.therm ∧ d'.reports = s.dev.reports)) ∧
      (n.val < 568 → (if hbm then 840 else 920) ≤ t.toInt → t.toInt ≤ 1200 → s.dev.tripped = false → Reaches (.thermalTrip n t) s fun d' =>
        d'.tripped = true ∧ d'.live = false ∧ (∀ i < 8, (d'.die i).st = 0 ∧ (d'.die i).stopped = true ∧ (d'.reg .pwrDieDom [i]).toNat = 0x200000) ∧
        d'.board = s.dev.board ∧ d'.flash = s.dev.flash ∧ (∃ r ∈ d'.reports, r.code = 0x7202 ∧ r.addr = n.val ∧ r.master = 0xF870)) ∧
      Reaches (.sensorFailed n) s failed ∧
      (t.toInt < -320 ∨ 1200 < t.toInt → Reaches (.thermalThrottle n t) s failed ∧ Reaches (.thermalTrip n t) s failed ∧
        Reaches (.sensorBelowReleaseThreshold n t) s failed) ∧
      (n.val < 568 → s.dev.pwr.therm.has n = true → -320 ≤ t.toInt → t.toInt < (if hbm then 720 else 800) →
        Reaches (.sensorBelowReleaseThreshold n t) s fun d' =>
          d'.regFld .pwrSens [n] 15 0 = t.toNat ∧ (d'.quiet.has (256 + n) = true ∨ s.dev.rcvLatched (256 + n) = true) ∧
          KeepsCompute s.dev d' ∧ KeepsQueues s.dev d')) ∧
    (s.dev.sensFailed n = true → n.val ∉ s.dev.pwr.unfail → Completes (.sensorFailed n) s s.dev) ∧
    (∀ (die : DieIx) (d1 : Dev), Comes (·.capDue die) s.dev d1 → 3 ∈ d1.thermOf die → Reaches (.thermalCapStep die) s fun d' =>
      let now := min (d1.opGrant die) (d1.pwr.thermCap.getD die 4)
      d'.pwr.thermCap.find? die = (if now ≤ d1.opPick 0 then d1.pwr.thermCap.find? die else some (d1.opPick (now - 1))) ∧
      KeepsCompute d1 d' ∧ KeepsQueues d1 d') ∧
    (∀ (die : DieIx) (d1 : Dev) (c : Nat), Comes (·.capDue die) s.dev d1 → d1.thermOf die = [] → d1.pwr.thermCap.find? die = some c →
      Reaches (.thermalCapStep die) s fun d' =>
        d'.pwr.thermCap.find? die = (if 3 ≤ c then none else some (c + 1)) ∧ KeepsCompute d1 d' ∧ KeepsQueues d1 d')

/-- Operating points and sleeping bays (R434 to R436). -/
def Obligations.PointsAndBays : Prop :=
  ∀ s : State, s.dev.live = true →
    (∀ prog op rest, s.dev.phaseMarks = (prog, op) :: rest → Reaches .phaseMarkAct s fun d' =>
      d'.phaseMarks = rest ∧ (∀ q ∈ s.dev.queues.keys, ∀ l, s.dev.launch q = some l → l.cur = prog → ∃ l', d'.launch q = some l' ∧ l'.op = op) ∧
      KeepsCompute s.dev d') ∧
    (∀ (die : DieIx) g, s.dev.pwr.opTarget.find? die = some g → g < 8 → s.dev.changing die = true → Reaches (.opChangeDone die) s fun d' =>
      d'.opNow die = g ∧ KeepsCompute s.dev d' ∧ KeepsQueues s.dev d') ∧
    (∀ y : BayIx, (s.dev.reg .pwrSleep []).toNat ≠ 0 → (s.dev.die (y / 8)).st = 2 → s.dev.bayDom y = 2 → s.dev.bayHeld y = false →
      s.dev.sleepDue y = some (s.dev.bayFree.getD y 0 + (s.dev.reg .pwrSleep []).toNat)) ∧
    (∀ (y : BayIx) (d1 : Dev), Comes (·.sleepDue y) s.dev d1 →
      Reaches (.baySleep y) s fun d' => d'.bayDom y = 1 ∧ (∀ z < 64, z ≠ y.val → d'.bayDom z = d1.bayDom z) ∧
        (∀ b < 4608, bayOf b = y.val → d1.benches.has b = true → (d'.bench b).mortise.queue = [] ∧ (d'.bench b).plane.queue = [] ∧
          (d'.bench b).tile = (d1.bench b).tile ∧ (d'.bench b).jregs = (d1.bench b).jregs) ∧
        (∀ b < 4608, bayOf b ≠ y.val → d'.bench b = d1.bench b) ∧ d'.hbm = d1.hbm) ∧
    (∀ y : BayIx, s.dev.bayDom y = 1 → s.dev.bayHeld y = true → Completes (.bayWake y) s (s.dev.setBayDom y 3)) ∧
    (∀ y : BayIx, s.dev.bayDom y = 3 → Completes (.bayWakeDone y) s (s.dev.setBayDom y 2)) ∧
    (∀ (y : BayIx) (v : Nat), v < 4 → (s.dev.setBayDom y v).bayDom y = v)

/-- Power faults and whole dies (R438, R439). -/
def Obligations.PowerFaultsAndWholeDies : Prop :=
  ∀ s : State, s.dev.live = true →
    let stopped (d' : Dev) : Prop := d'.halted = true ∧ d'.live = false ∧ (∀ i < 8, (d'.die i).st = 0 ∧ (d'.die i).stopped = true) ∧
      (∃ r ∈ d'.reports, r.code = 0x7302 ∧ r.master = 0xF870) ∧ d'.board = s.dev.board ∧ d'.flash = s.dev.flash
    (∀ i : Fin 8, Reaches (.regulatorFault i) s stopped) ∧
    (∀ i : Fin 8, 2 ≤ i.val → Reaches (.domainWakeTimeout (.iod i)) s stopped) ∧
    (∀ (x : DieIx) (i : Fin 11), i.val < 8 → s.dev.bayDom (8 * x + i) = 3 → Reaches (.domainWakeTimeout (.die x i)) s fun d' =>
      (d'.die x).st = 3 ∧ (∃ r ∈ d'.reports, r.code = 0x7301 ∧ r.die = some x.val ∧ r.addr = i.val) ∧ d'.flash = s.dev.flash) ∧
    (∀ x : DieIx, (s.dev.die x).st ≠ 0 → (s.dev.die x).st ≠ 4 → s.dev.dieUsed x = true → Reaches (.powerOff x) s fun d' =>
      d'.regBit .pwrDieCtl [x] 2 = true ∧ RegsBut [RegName.pwrDieCtl.addr [x], RegName.pwrEvt.addr []] s.dev d' ∧
      KeepsCompute s.dev d' ∧ KeepsQueues s.dev d' ∧ KeepsFabric s.dev d') ∧
    (∀ x : DieIx, (s.dev.die x).st = 2 → s.dev.dieUsed x = false → Reaches (.powerOff x) s fun d' =>
      d'.regBit .pwrDieCtl [x] 0 = true ∧ d'.flash = s.dev.flash) ∧
    (∀ x : DieIx, s.dev.regBit .pwrDieCtl [x] 0 = true → Reaches (.powerOffDone x) s fun d' =>
      (d'.die x).st = (if 3 ≤ (s.dev.die x).st then (s.dev.die x).st else 0) ∧ (d'.die x).stopped = true ∧
      (d'.reg .pwrDieDom [x]).toNat = 0x200000 ∧ d'.regBit .pwrDieCtl [x] 0 = false) ∧
    (∀ x : DieIx, (s.dev.die x).st = 0 → Completes (.powerOn x) s ((s.dev.modDie x fun i => { i with st := 1 }).setRegBit .pwrDieCtl [x] 1)) ∧
    (∀ x : DieIx, s.dev.regBit .pwrDieCtl [x] 1 = true → 2 ≤ (s.dev.die x).st → Reaches (.powerOnDone x) s fun d' =>
      d'.regBit .pwrDieCtl [x] 1 = false ∧ d'.regBit .pwrEvt [] 7 = true ∧ KeepsCompute s.dev d' ∧ KeepsQueues s.dev d')

/-- A cold boot that finds nothing wrong (R24, R459, R460, R472), and the recovery state (R461). -/
def Obligations.ColdBootOrRecovery : Prop :=
  (∀ (s : State) (f : BootFind) (b : Bool), s.dev.board.starting = true → f.xtal = true → f.layout = true → f.identity = true → f.trims = 0 → f.bad = [] →
     s.dev.firstSlot f = some b →
     Reaches (.inputSwitchCloseDelay f) s fun d' =>
       d'.live = true ∧ d'.board.swOn = true ∧ d'.board.booted = some b ∧ (d'.flash.slot b).st = 2 ∧ (d'.flash.slot b).imgs = (s.dev.flash.slot b).imgs ∧
       d'.flash.slot (!b) = s.dev.flash.slot (!b) ∧ d'.regBit .secLock [] 0 = true ∧ d'.regBit .drwCfg [] 31 = true ∧ d'.regBit .secStatus [] 29 = true ∧
       (∀ a, d'.hbm.read a = 0) ∧ d'.time = 0 ∧ d'.queues = ⟨[]⟩ ∧ d'.slots = ⟨[]⟩ ∧ d'.benches = ⟨[]⟩ ∧ d'.evlog = s.dev.evlog ∧
       d'.board.ovTrip = false ∧ d'.board.brownOut = false ∧ d'.board.bootWait = none) ∧
  (∀ (s : State) (f : BootFind), s.dev.board.starting = true → f.xtal = true →
     (f.layout = false → Reaches (.inputSwitchCloseDelay f) s fun d' =>
       d'.regBit .secStatus [] 26 = true ∧ d'.regBit .secErrStatus [] 6 = true ∧ d'.live = false ∧ (∀ i < 8, (d'.die i).st = 0) ∧ d'.board.swOn = true ∧
       (∃ r ∈ d'.reports, r.code = 0x8107 ∧ r.master = 0xF818) ∧ d'.flash = s.dev.flash ∧ d'.evlog = s.dev.evlog) ∧
     (f.layout = true → s.dev.firstSlot f = none → Reaches (.inputSwitchCloseDelay f) s fun d' =>
       d'.regBit .secStatus [] 26 = true ∧ d'.live = false ∧ (∀ i < 8, (d'.die i).st = 0) ∧ d'.evlog = s.dev.evlog)) ∧
  (∀ (s : State) (f : BootFind), s.dev.board.starting = true → f.xtal = false → Reaches (.inputSwitchCloseDelay f) s fun d' =>
     d'.live = false ∧ d'.on = false ∧ d'.regs = ⟨[]⟩ ∧ (∀ i < 8, (d'.die i).st = 0) ∧ d'.board.ovTrip = s.dev.board.ovTrip ∧
     d'.board.brownOut = s.dev.board.brownOut ∧ d'.flash = s.dev.flash ∧ d'.evlog = s.dev.evlog)

/-- The warm resets (R345, R458, R459, R476). -/
def Obligations.WarmResets : Prop :=
  (∀ (s : State) (f : BootFind) (b : Bool), s.dev.on = true → s.dev.tripped = false → f.xtal = true → f.layout = true → f.trims = 0 → f.bad = [] →
    s.dev.firstSlot f = some b →
    let gone (d' : Dev) : Prop := d'.time = s.dev.time ∧ d'.queues = ⟨[]⟩ ∧ d'.slots = ⟨[]⟩ ∧ d'.benches = ⟨[]⟩ ∧ d'.evlog = s.dev.evlog ∧
      d'.flash.slot (!b) = s.dev.flash.slot (!b) ∧ (d'.flash.slot b).imgs = (s.dev.flash.slot b).imgs
    let back (last : Nat) (d' : Dev) : Prop := gone d' ∧ d'.live = true ∧ d'.board.booted = some b ∧ d'.regFld .secStatus [] 2 0 = last ∧
      d'.regBit .secStatus [] 29 = s.dev.regBit .secStatus [] 29
    let waits (d' : Dev) : Prop := gone d' ∧ d'.board.perst = true ∧ d'.hbm = s.dev.hbm ∧ d'.live = false ∧ d'.board.bootWait = some (b, false, f.refclk)
    (s.dev.board.perst = false → Reaches (.perstNAssert f) s waits) ∧
    (s.dev.board.perst = false → ∀ w : W32, s.dev.live = true → w.getLsbD 0 = true → fld w 31 16 = 0x5752 → Reaches (.secReset w f) s (back 2)) ∧
    (s.dev.board.perst = false → Reaches (.securityWatchdog f) s (back 3)) ∧
    (s.dev.board.perst = true → Reaches (.securityWatchdog f) s waits) ∧
    (s.dev.board.perst = false → s.dev.regBit .hstLinkStatus [] 0 = true → Reaches (.hostLinkDown f) s fun d' =>
      back 1 d' ∧ ∃ r ∈ d'.reports, r.code = 0x9204) ∧
    (s.dev.board.perst = false → s.dev.regBit .hstLinkStatus [] 0 = true → Reaches (.hotReset f) s (back 1))) ∧
  (∀ (s : State) (b bad clk : Bool), s.dev.board.bootWait = some (b, bad, clk) → s.dev.halted = false → s.dev.tripped = false →
    Reaches .perstNDeassert s fun d' =>
      d'.live = true ∧ d'.board.booted = some b ∧ d'.board.perst = false ∧ d'.board.bootWait = none ∧ d'.time = s.dev.time) ∧
  (∀ (s : State) (f : BootFind),
    (s.dev.board.bootWait = none → Completes .perstNDeassert s { s.dev with board := { s.dev.board with perst := false } }) ∧
    (s.dev.board.perst = true → Completes (.perstNAssert f) s s.dev) ∧
    (∀ w : W32, fld w 31 16 ≠ 0x5752 ∨ w.getLsbD 0 = false → Completes (.secReset w f) s s.dev) ∧
    (s.dev.regBit .hstLinkStatus [] 0 = false → Completes (.hostLinkDown f) s s.dev ∧ Completes (.hotReset f) s s.dev) ∧
    (s.dev.tripped = true → Completes (.securityWatchdog f) s s.dev ∧ Completes (.hotReset f) s s.dev ∧ ∀ w, Completes (.secReset w f) s s.dev))

/-- The instructions of a test access port (R28): 0 BYPASS, 1 IDCODE, 2 SAMPLE/PRELOAD, 3 EXTEST, 4 debug; and the debug unlock (R474). -/
def Obligations.TestAndDebugAccess : Prop :=
  (∀ (s : State) (t : Fin 9), s.dev.on = true →
     let live : Bool := t.val == 0 || (s.dev.die (t.val - 1)).st == 1 || (s.dev.die (t.val - 1)).st == 2
     let at_ (i : Nat) (more : List OutMsg) : Dev :=
       { s.dev with
         taps := s.dev.taps.set t (if live then i else 0)
         out := s.dev.out ++ [.mgmt 0x101 [if live then 0x01 else 0x05]] ++ more }
     Completes (.bypass t) s (at_ 0 []) ∧
     Completes (.samplePreload t) s (at_ 2 []) ∧
     Completes (.idcode t) s (at_ 1 (if live then [.mgmt 0x100 (leBytes (if t.val = 0 then 0x1E824C4B else 0x1E824C49) 4)] else [])) ∧
     Completes (.extest t) s (at_ (if s.dev.regBit .secStatus [] 31 then 0 else 3) []) ∧
     Completes (.debugInstruction t) s (at_ (if s.dev.regBit .secStatus [] 30 then 4 else 0) [])) ∧
  (∀ s : State, s.dev.on = true → s.dev.regBit .secStatus [] 26 = false →
     (∃ bs : List Byte, bs.length = 32 ∧ Completes .debugNonceRequest s
       { s.dev with nonce := some s.dev.free, free := s.dev.free + 1, out := s.dev.out ++ [.mgmt 0x7E bs] }) ∧
     (∀ n, s.dev.nonce = some n → Reaches (.debugToken true) s fun d' =>
       d'.nonce = none ∧ d'.regBit .secStatus [] 30 = true ∧ RegsBut [RegName.secStatus.addr []] s.dev d' ∧ d'.reports = s.dev.reports ∧ d'.out = s.dev.out ∧
       (s.dev.regBit .secStatus [] 29 = true → Completes (.getMeasurements false false 10 false) { s with dev := d' } { d' with out := d'.out ++ [.mgmt 0x60 (sm3 [1])] })) ∧
     (∀ good : Bool, (good = true → s.dev.nonce = none) → Reaches (.debugToken good) s fun d' =>
       d'.nonce = none ∧ d'.reg .secStatus [] = s.dev.reg .secStatus [] ∧ d'.regBit .secErrStatus [] 5 = true ∧
       (∃ r, d'.reports = s.dev.reports ++ [r] ∧ r.code = 0x8106 ∧ r.master = 0xF818) ∧ d'.out = s.dev.out))

/-- J5's bus and the requests that read out (R27, R463). -/
def Obligations.ManagementRequests : Prop :=
  ∀ s : State, s.dev.on = true →
    let say (k : Nat) (bs : List Byte) (d : Dev) : Dev := { d with out := d.out ++ [.mgmt k bs] }
    (∀ a : Fin 128, ∃ x y : Byte, Completes (.entdaa a) s
      { s.dev with i3cAddr := some a, free := s.dev.free + 1, out := s.dev.out ++ [.mgmt 0x110 (leBytes Config.serial.toNat 4 ++ [x, y])] }) ∧
    Completes .pldmFruRequest s (say 0x122 (orderingCode ++ [0x10] ++ leBytes Config.serial.toNat 8) s.dev) ∧
    (s.dev.regBit .secStatus [] 26 = false →
      (∀ n : Fin 576, Completes (.pldmPlatformRequest (.sensor n)) s (say 0x120 (leBytes (s.dev.reg .pwrSens [n]).toNat 4) s.dev)) ∧
      (∀ e rest, s.dev.pldm = e :: rest → Completes (.pldmPlatformRequest .event) s
        (say 0x121 (leBytes e.1 2 ++ leBytes e.2 2) { s.dev with pldm := rest })) ∧
      (∀ doe busy : Bool, (doe = true → s.dev.live = true) →
        Completes (.getVersion doe busy) s (if busy then say 0x7F [0x03] s.dev else say 0x04 [0x12] s.dev) ∧
        Completes (.getCapabilities doe busy) s (if busy then say 0x7F [0x03] s.dev else say 0x61 (leBytes 0x16 4) s.dev)))

/-- SPDM (R463, R464). -/
def Obligations.AttestationRequests : Prop :=
  ∀ (s : State) (doe : Bool), s.dev.on = true → s.dev.regBit .secStatus [] 26 = false → (doe = true → s.dev.live = true) →
    s.dev.regBit .secStatus [] 29 = true →
    let say (k : Nat) (bs : List Byte) (d : Dev) : Dev := { d with out := d.out ++ [.mgmt k bs] }
    Completes (.negotiateAlgorithms doe false false false) s (say 0x7F [0x01] s.dev) ∧
    (∀ a b : Bool, (a || b) = true → Completes (.negotiateAlgorithms doe false a b) s
      (say 0x63 [BitVec.ofNat 8 (b2n a), BitVec.ofNat 8 (b2n b)] { s.dev with spdmAlgs := some (a, b) })) ∧
    Completes (.getDigests doe false) s (say 0x01 (sm3 certChain) s.dev) ∧
    (∀ off n : Fin 65536, Completes (.getCertificate doe false 0 off n) s (say 0x02 ((certChain.drop off).take n) s.dev)) ∧
    (∃ sig : List Byte, sig.length = 64 ∧ Completes (.challenge doe false) s (say 0x03 (sm3 certChain ++ sig) { s.dev with free := s.dev.free + 1 })) ∧
    Completes (.getMeasurements doe false 10 false) s (say 0x60 (sm3 [if s.dev.regBit .secStatus [] 30 then 1 else 0]) s.dev) ∧
    Completes (.getMeasurements doe false 0 false) s (say 0x60 [11] s.dev) ∧
    (∃ sig : List Byte, sig.length = 64 ∧
      Completes (.getMeasurements doe false 0 true) s (say 0x60 (11 :: sig) { s.dev with free := s.dev.free + 1 })) ∧
    (∀ i : Fin 256, 11 < i.val → i.val ≠ 255 → Completes (.getMeasurements doe false i false) s (say 0x7F [0x01] s.dev))

/-- Firmware update (R473). The PLDM completion codes are PRESUMED (log entry 43). -/
def Obligations.FirmwareUpdate : Prop :=
  ∀ (s : State) (c : Component) (b : Bool), s.dev.on = true → s.dev.regBit .secStatus [] 26 = false → s.dev.board.booted = some b →
    c.ty ∈ [1, 2, 3, 4, 5, 0x10] →
    (c.start = true → s.dev.update = none → c.good = true → s.dev.bootedSvn c.ty ≤ c.svn → Reaches (.firmwareUpdateComponent c) s fun d' =>
      (d'.flash.slot (!b)).seq = ((s.dev.flash.slot b).seq + 1) % 2 ^ 32 ∧ (d'.flash.slot (!b)).st = 0 ∧
      (d'.flash.slot (!b)).imgs.map (fun x => (x.ty, x.off, x.size, x.svn)) = [(c.ty, c.off, c.size, c.svn)] ∧ d'.flash.slot b = s.dev.flash.slot b ∧
      d'.update = some { slot := !b, got := [c.ty] } ∧ d'.out = s.dev.out ++ [.mgmt 0x123 [0x00]] ∧ d'.reports = s.dev.reports ∧ d'.regs = s.dev.regs) ∧
    (c.start = true → s.dev.update = none → (c.good = false ∨ c.svn < s.dev.bootedSvn c.ty) → Reaches (.firmwareUpdateComponent c) s fun d' =>
      d'.flash = s.dev.flash ∧ (∃ r, d'.reports = s.dev.reports ++ [r] ∧ r.code = 0x8101) ∧ d'.out = s.dev.out ++ [.mgmt 0x123 [0x01]]) ∧
    (c.start = true → s.dev.update ≠ none → Completes (.firmwareUpdateComponent c) s { s.dev with out := s.dev.out ++ [.mgmt 0x123 [0x81]] }) ∧
    (∀ got, s.dev.update = some { slot := !b, got := got } → c.ty ∈ got → Reaches .activateFirmware s fun d' =>
      (d'.flash.slot (!b)).st = 1 ∧ (d'.flash.slot (!b)).seq = ((s.dev.flash.slot b).seq + 1) % 2 ^ 32 ∧ d'.flash.slot b = s.dev.flash.slot b ∧
      (∀ x ∈ (s.dev.flash.slot (!b)).imgs, x ∈ (d'.flash.slot (!b)).imgs) ∧
      (∀ x ∈ (s.dev.flash.slot b).imgs, (∀ y ∈ (s.dev.flash.slot (!b)).imgs, y.ty ≠ x.ty) → x ∈ (d'.flash.slot (!b)).imgs) ∧
      d'.update = none ∧ d'.out = s.dev.out ++ [.mgmt 0x123 [0x00]])

/-- The access codes of R8, and reads of BAR0 (R342). -/
def Obligations.RegisterAccesses : Prop :=
  (∀ (s : State) (a : Nat) (r : RegName) (ix : List Nat) (v : W32), s.dev.live = true → s.dev.writesWait 0 = false → Hits s.dev a r ix →
     s.dev.filterRight 0 a = 2 → r.plain = true → (∀ f ∈ r.fields, f.acc = .rwl → s.dev.locked = true → fld v f.hi f.lo = fld (s.dev.reg r ix) f.hi f.lo) →
     Reaches (.registerWrite (.bar0 0 a (leBytes v.toNat 4))) s fun d' =>
       (∀ f ∈ r.fields, ∀ i, f.lo ≤ i → i ≤ f.hi → d'.regBit r ix i =
         match f.acc with
         | .rw => v.getLsbD i
         | .rwl => if s.dev.locked then s.dev.regBit r ix i else v.getLsbD i
         | .w1c => s.dev.regBit r ix i && (!v.getLsbD i || (s.dev.freshBits r ix).getLsbD i)
         | .w1s => s.dev.regBit r ix i || v.getLsbD i
         | _ => s.dev.regBit r ix i) ∧
       RegsBut [a] s.dev d' ∧ KeepsCompute s.dev d' ∧ KeepsQueues s.dev d' ∧ KeepsFabric s.dev d' ∧ KeepsModule s.dev d' ∧ KeepsHost s.dev d' ∧
       d'.out = s.dev.out ∧ d'.reports = s.dev.reports) ∧
  (∀ (s : State) (a : BitVec 26), s.dev.live = true → s.dev.writesWait 0 = false →
     (∀ r ix, Hits s.dev a.toNat r ix → s.dev.filterRight 0 a.toNat ≠ 0 →
       let word := leBytes (s.dev.regLive r ix &&& r.mask).toNat 4
       (r.readClears = false → Completes (.hostBar0Read 0 a 4) s { s.dev with out := s.dev.out ++ [.completion 0 0 false word] }) ∧
       (r.readClears = true → Reaches (.registerReadClear 0 a) s fun d' =>
         d'.out = s.dev.out ++ [.completion 0 0 false word] ∧ RegsBut [a.toNat] s.dev d' ∧ KeepsCompute s.dev d' ∧ KeepsQueues s.dev d' ∧
         (∀ f ∈ r.fields, f.acc = .rc → r ≠ .bchSbStat → fld (d'.reg r ix) f.hi f.lo = 0) ∧
         (r = .bchSbStat → d'.regFld r ix 22 16 = (s.dev.bench (ix.headD 0)).sb.length % 128) ∧
         (∀ f ∈ r.fields, f.acc ≠ .rc → fld (d'.reg r ix) f.hi f.lo = fld (s.dev.reg r ix) f.hi f.lo))) ∧
     (∀ n : Fin 4097, (s.dev.fn 0).flr = false → a.toNat + n.val ≤ 2 ^ 26 → n.val ≠ 4 → ¬(n.val = 8 ∧ a.toNat % 8 = 0) →
       Reaches (.hostBar0Read 0 a n) s fun d' =>
         d'.out = s.dev.out ++ s.dev.aerOut 0 .unsupported false ++ [.completion 0 1 false []] ∧
         (∃ x, d'.reports = s.dev.reports ++ [x] ∧ x.code = 0x9206 ∧ x.master = 0xF840 ∧ x.addr = a.toNat))) ∧
  (∀ (s : State) (f : FnIx), s.dev.live = true → s.dev.writesWait f = true →
     (∀ a bs, Completes (.registerWrite (.bar0 f a bs)) s (s.dev.hostHold (.bar0Write f a bs))) ∧
     ∀ (a : BitVec 26) n, Completes (.hostBar0Read f a n) s (s.dev.hostHold (.bar0 f a.toNat n)))

/-- The boot lock (R467) and the register-access filter (R468). -/
def Obligations.LockAndFilter : Prop :=
  ∀ s : State, s.dev.live = true → s.dev.writesWait 0 = false →
    (∀ a r ix (v : W32), Hits s.dev a r ix → s.dev.filterRight 0 a = 2 → r.plain = true → (∃ f ∈ r.fields, f.acc = .rwl ∧ fld v f.hi f.lo ≠ fld (s.dev.reg r ix) f.hi f.lo) →
      Reaches (.registerWrite (.bar0 0 a (leBytes v.toNat 4))) s fun d' =>
        (∀ f ∈ r.fields, f.acc = .rwl → fld (d'.reg r ix) f.hi f.lo = fld (s.dev.reg r ix) f.hi f.lo) ∧
        (∃ x, d'.reports = s.dev.reports ++ [x] ∧ x.code = 0x8102 ∧ x.master = 0xF840 ∧ x.addr = a)) ∧
    (∀ (a : Nat) (bs : List Byte), a % 4 = 0 → bs.length = 4 → a + 4 ≤ 2 ^ 26 → (s.dev.fn 0).flr = false → s.dev.filterRight 0 a < 2 →
      Reaches (.registerWrite (.bar0 0 a bs)) s fun d' =>
        RegsBut [RegName.secErrStatus.addr []] s.dev d' ∧ d'.regBit .secErrStatus [] 2 = true ∧
        (∃ x, d'.reports = s.dev.reports ++ [x] ∧ x.code = 0x8103 ∧ x.master = 0xF840 ∧ x.addr = a) ∧ KeepsCompute s.dev d' ∧ KeepsQueues s.dev d') ∧
    (∀ a : BitVec 26, a.toNat % 4 = 0 → (s.dev.fn 0).flr = false → s.dev.filterRight 0 a.toNat = 0 → Reaches (.hostBar0Read 0 a 4) s fun d' =>
      d'.out = s.dev.out ++ [.completion 0 0 false [0, 0, 0, 0]] ∧ (∃ x, d'.reports = s.dev.reports ++ [x] ∧ x.code = 0x8103 ∧ x.addr = a.toNat))

/-- Host accesses through BAR2 (R290, R291, R342). -/
def Obligations.HostMemoryAccesses : Prop :=
  ∀ (s : State) (f : FnIx) (a : BitVec 44), s.dev.live = true → s.dev.barOn f = true →
    let who := fnWho f
    let told := s.dev.out ++ s.dev.aerOut f .unsupported true
    let fits (n : Nat) : Prop := a.toNat + n ≤ 2 ^ (30 + (s.dev.fn f).bar2) ∧ a.toNat % 128 + n ≤ 128 ∧ 0 < n
    (∀ (l : Loc) (k : Nat) (x : SLine), s.dev.writesWait f = false → s.dev.access who a.toNat = some l → HomeHolds s.dev l k x →
      let q := homeSlice l.die l.x
      (∀ n : Fin 4097, fits n → s.dev.mapped who false a.toNat n = true → Completes (.hostBar2Read f a n) s
        { s.dev.usedAt q k with out := s.dev.out ++ [.completion f 0 false (x.data.slice (a.toNat % 128) n)] }) ∧
      (∀ (bs : List Byte) (ep : Bool), fits bs.length → s.dev.hostWait.any (HostReq.isWriteAt f (a.toNat / 128)) = false →
        s.dev.mapped who false a.toNat bs.length = true → s.dev.mapped who true a.toNat bs.length = true → s.dev.mirOf a.toNat = [] → Reaches (.hostBar2Write f a bs ep) s fun d' =>
          (∃ y, (d'.slice q).lines.find? k = some y ∧ y.data = mergeLine x.data (linePut (a.toNat % 128) bs) (beRange (a.toNat % 128) bs.length) ∧
            y.poison = ep ∧ y.dirty = true ∧ y.loc = x.loc) ∧
          (∀ p, p ≠ q → d'.slice p = s.dev.slice p) ∧ d'.hbm = s.dev.hbm ∧ d'.benches = s.dev.benches ∧ d'.bays = s.dev.bays ∧ KeepsQueues s.dev d') ∧
      (∀ (op : Fin 3) (v cmp : W32), l.ro = false → fits 4 → a.toNat % 4 = 0 → s.dev.mirOf a.toNat = [] → Reaches (.hostAtomicop f a 4 op v cmp) s fun d' =>
          let old := laneN x.data 32 (a.toNat % 128 / 4)
          let new := if op = 0 then (old + v.toNat) % 2 ^ 32 else if op = 1 then v.toNat else if old = cmp.toNat then v.toNat else old
          d'.out = s.dev.out ++ [.completion f 0 false (leBytes old 4)] ∧
          (∃ y, (d'.slice q).lines.find? k = some y ∧ y.data = setLaneN x.data 32 (a.toNat % 128 / 4) new) ∧
          (∀ p, p ≠ q → d'.slice p = s.dev.slice p) ∧ d'.hbm = s.dev.hbm ∧ d'.benches = s.dev.benches ∧ d'.bays = s.dev.bays)) ∧
    (∀ n : Fin 4097, s.dev.writesWait f = false → a.toNat + n ≤ 2 ^ (30 + (s.dev.fn f).bar2) → s.dev.mapped who false a.toNat n = false → Reaches (.hostBar2Read f a n) s fun d' =>
      d'.out = told ++ [.completion f 1 false []] ∧ KeepsCompute s.dev d' ∧ (∃ r, d'.reports = s.dev.reports ++ [r] ∧ r.code = 0x3101 ∧ r.addr = a.toNat)) ∧
    (∀ (bs : List Byte) (ep : Bool), a.toNat + bs.length ≤ 2 ^ (30 + (s.dev.fn f).bar2) → s.dev.mapped who false a.toNat bs.length = false →
      Reaches (.hostBar2Write f a bs ep) s fun d' =>
        KeepsCompute s.dev d' ∧ d'.out = told ∧ (∃ r, d'.reports = s.dev.reports ++ [r] ∧ r.code = 0x3101 ∧ r.addr = a.toNat)) ∧
    (∀ (bs : List Byte) (ep : Bool), a.toNat + bs.length ≤ 2 ^ (30 + (s.dev.fn f).bar2) → s.dev.mapped who false a.toNat bs.length = true →
      s.dev.mapped who true a.toNat bs.length = false → Reaches (.hostBar2Write f a bs ep) s fun d' =>
        KeepsCompute s.dev d' ∧ d'.out = told ∧ (∃ r, d'.reports = s.dev.reports ++ [r] ∧ r.code = 0x9205 ∧ r.addr = a.toNat)) ∧
    (s.dev.writesWait f = true → (∀ n, Completes (.hostBar2Read f a n) s (s.dev.hostHold (.read f a.toNat n))) ∧
      ∀ z op v c, Completes (.hostAtomicop f a z op v c) s (s.dev.hostHold (.atomic f a.toNat z op v.toNat c.toNat)))

/-- The functions and the link (R339, R341, R347, R350). -/
def Obligations.FunctionStates : Prop :=
  ∀ (s : State) (f : FnIx), s.dev.live = true →
    (∀ z : Fin 11, (s.dev.fn f).memEn = true → Completes (.bar2Resize f z) s s.dev) ∧
    (∀ z : Fin 11, (s.dev.fn f).memEn = false → Reaches (.bar2Resize f z) s fun d' =>
      (d'.fn f).bar2 = z.val ∧ KeepsCompute s.dev d' ∧ KeepsQueues s.dev d' ∧ d'.regs = s.dev.regs ∧ d'.out = s.dev.out) ∧
    Completes (.d3hotEntry f) s (s.dev.setFn f { s.dev.fn f with d3 := true }) ∧
    Reaches (.d0Return f) s (fun d' => (d'.fn f).d3 = false ∧ d'.heldMsgs = s.dev.heldMsgs.filter (·.1 != f.val) ∧
      KeepsCompute s.dev d' ∧ KeepsQueues s.dev d' ∧ d'.regs = s.dev.regs) ∧
    (∀ v : Fin 2048, v.val < s.dev.vecCount f → (s.dev.fn f).msixEn = true → (s.dev.fn f).msixMask = false → (s.dev.fn f).d3 = false → s.dev.fnOn f = true →
      let x := s.dev.vec f v
      Completes (.msixUnmask f (some v)) s (if x.pend then
        { s.dev with msix := (s.dev.msix.set (2048 * f + v) { x with mask := false }).set (2048 * f + v) { x with mask := false, pend := false }
                     out := s.dev.out ++ [.msix f x.addr x.data] }
        else { s.dev with msix := s.dev.msix.set (2048 * f + v) { x with mask := false } })) ∧
    (∀ (w : Fin 5) (p : Fin 7) (flit : Bool), s.dev.on = true → s.dev.board.perst = false → (flit = true ∨ p.val < 5) →
      Reaches (.hostLinkUp w p flit) s fun d' => d'.regBit .hstLinkStatus [] 0 = true ∧ d'.regFld .hstLinkStatus [] 20 16 = 2 ^ w.val ∧
        d'.regFld .hstLinkStatus [] 10 8 = p.val + 1 ∧ d'.regBit .hstLinkStatus [] 4 = flit ∧
        RegsBut [RegName.hstLinkStatus.addr []] s.dev d' ∧ KeepsCompute s.dev d' ∧ KeepsQueues s.dev d') ∧
    (∀ (w : Fin 5) (p : Fin 7), s.dev.on = true → 5 ≤ p.val → Completes (.hostLinkUp w p false) s s.dev) ∧
    (∀ e : LinkErr, Reaches (.linkCorrectableError e) s fun d' => KeepsCompute s.dev d' ∧ KeepsQueues s.dev d' ∧
      d'.out = s.dev.out ++ s.dev.aerOut 0 (match e with | .fec | .receiver => .receiver | .replayTimer => .replayTimer | .badTlp => .badTlp | .badDllp => .badDllp) false ∧
      (∃ r, d'.reports = s.dev.reports ++ [r] ∧ r.code = 0x9201 ∧ r.master = 0xF840)) ∧
    (∀ m np : Bool, Reaches (.malformedTlp f m np) s fun d' => KeepsCompute s.dev d' ∧ KeepsQueues s.dev d' ∧
      d'.out = s.dev.out ++ s.dev.aerOut f (if m then .malformed else .unsupported) false ++ (if !m && np then [.completion f 1 false []] else []) ∧
      (∃ r, d'.reports = s.dev.reports ++ [r] ∧ r.code = 0x9208 ∧ r.master = 0xF840))

/-- The drawers' rings (R359). -/
def Obligations.DrawerRings : Prop :=
  ∀ (s : State) (k : Fin 8) (up : Bool), s.dev.live = true →
    let t := s.dev.regFld (drwTail up) [k] 4 0
    let h := s.dev.regFld (drwHead up) [k] 4 0
    let err := RegName.drwErrStatus.addr [k]
    let barred (code : Nat) (d' : Dev) : Prop := RegsBut [err] s.dev d' ∧ d'.out = s.dev.out ∧
      ∃ r, d'.reports = s.dev.reports ++ [r] ∧ r.code = code ∧ r.master = 0xF848 ∧ r.inst = some k.val
    (∀ v : Fin 32, (v.val + 32 - h) % 32 ≤ 16 → Reaches (.drawerTailWrite k up v) s fun d' =>
      d'.regFld (drwTail up) [k] 4 0 = v.val ∧ RegsBut [(drwTail up).addr [k]] s.dev d' ∧ d'.reports = s.dev.reports ∧ KeepsCompute s.dev d' ∧ KeepsQueues s.dev d') ∧
    (∀ v : Fin 32, 16 < (v.val + 32 - h) % 32 → Reaches (.drawerTailWrite k up v) s (barred 0x9301)) ∧
    (∀ v : Fin 32, (v.val + 32 - h) % 32 ≤ (t + 32 - h) % 32 → Reaches (.drawerHeadWrite k up v) s fun d' =>
      d'.regFld (drwHead up) [k] 4 0 = v.val ∧ RegsBut [(drwHead up).addr [k]] s.dev d' ∧ d'.reports = s.dev.reports ∧
      ((t + 32 - h) % 32 ≠ 16 → d'.out = s.dev.out) ∧ KeepsCompute s.dev d' ∧ KeepsQueues s.dev d') ∧
    (∀ v : Fin 32, (t + 32 - h) % 32 < (v.val + 32 - h) % 32 → Reaches (.drawerHeadWrite k up v) s (barred 0x9301)) ∧
    (∀ (i w : Fin 16) (v : W32), (∀ j, j < (t + 32 - h) % 32 → (h + j) % 16 ≠ i.val) →
      Completes (.drawerSlotWrite k up i w v) s (s.dev.setReg (drwSlot up) [k, i, w] v)) ∧
    (∀ (i w : Fin 16) (v : W32) (j : Nat), j < (t + 32 - h) % 32 → (h + j) % 16 = i.val → Reaches (.drawerSlotWrite k up i w v) s (barred 0x9302))

/-- Instance resets (R361, R362). -/
def Obligations.InstanceResets : Prop :=
  ∀ (s : State) (k : Fin 8), s.dev.live = true → k.val < s.dev.instN →
    let ran (d d' : Dev) : Prop :=
      d'.regBit .drwInstStatus [k] 0 = true ∧ (∀ b, ∀ n < 4, ((d'.bench b).ctxN n).valid = true → ((d'.bench b).ctxN n).prog / 16 ≠ k.val) ∧
      (∀ p, p / 16 = k.val → d'.slots.find? p = none) ∧ (∀ q ∈ d.ownQueues k, d'.queues.find? q = none ∧ d'.queueEn q = false) ∧
      d'.ringTail k false = 0 ∧ d'.ringHead k false = 0 ∧ d'.ringTail k true = 0 ∧ d'.ringHead k true = 0 ∧ (d'.reg .drwDnPend [k]).toNat = 0 ∧
      k.val ∉ d'.quiesced ∧ d'.board = d.board ∧ d'.flash = d.flash
    (s.dev.instBusyReset k = false → s.dev.instWork k = true → k.val ∉ s.dev.quiesced → Reaches (.instanceReset k false) s fun d' =>
      d'.regBit .drwInstStatus [k] 1 = true ∧ RegsBut [RegName.drwInstStatus.addr [k], RegName.drwErrStatus.addr [k]] s.dev d' ∧
      (∃ r, d'.reports = s.dev.reports ++ [r] ∧ r.code = 0x9303 ∧ r.master = 0xF848) ∧ KeepsCompute s.dev d' ∧ KeepsQueues s.dev d' ∧ d'.quiesced = s.dev.quiesced) ∧
    (∀ force : Bool, s.dev.instBusyReset k = false → (s.dev.instWork k = false ∨ k.val ∈ s.dev.quiesced ∨ force = true) →
      Reaches (.instanceReset k force) s (ran s.dev)) ∧
    ((s.dev.fn (k.val + 1)).flr = true →
      s.dev.flrDue k = some (if s.dev.instWork k then (s.dev.fn (k.val + 1)).flrEnd else s.dev.ticks)) ∧
    (∀ d1, Comes (·.flrDue k) s.dev d1 → d1.live = true → k.val < d1.instN → d1.instBusyReset k = false → Reaches (.flrHoldExpiry k) s (ran d1)) ∧
    (∀ force : Bool, s.dev.instBusyReset k = true → Completes (.instanceReset k force) s s.dev) ∧
    (s.dev.instBusyReset k = true → s.dev.mirrors.keys = [] → Reaches (.instanceResetDone k) s fun d' =>
      d'.regBit .drwInstStatus [k] 0 = false ∧ d'.regBit .drwDnPend [k] 2 = true ∧
      d'.regFld .drwInstStatus [k] 31 16 = min 65535 (s.dev.regFld .drwInstStatus [k] 31 16 + 1) ∧ (d'.fn (k.val + 1)).flr = false ∧
      fld (d'.reg .drwDnNotice [k, 2, 0]) 15 0 = 0x8003 ∧ KeepsCompute s.dev d' ∧ KeepsQueues s.dev d')

/-- SR-IOV and function level reset (R343 to R345). -/
def Obligations.VirtualFunctions : Prop :=
  ∀ s : State, s.dev.live = true →
    let told (k : Nat) (d' : Dev) : Prop := (d'.fn (k + 1)).flr = true ∧
      (d'.fn (k + 1)).flrEnd = s.dev.ticks + min 2500000 (s.dev.reg .hstFlrHold []).toNat ∧ (∀ r ∈ d'.hostWait, r.fn ≠ k + 1) ∧ d'.regBit .drwUpPend [k] 0 = true ∧ fld (d'.reg .drwUpNotice [k, 0]) 15 0 = 0x8004 ∧ fld (d'.reg .drwUpNotice [k, 0]) 31 16 = min 65535 (fld (s.dev.reg .drwUpNotice [k, 0]) 31 16 + 1)
    Completes .vfEnableSet s { s.dev with vfEnable := true } ∧
    (∀ v : BitVec 16, s.dev.vfEnable = false → Completes (.numvfsWrite v) s { s.dev with numVfs := min v.toNat s.dev.instN }) ∧
    (∀ v : BitVec 16, s.dev.vfEnable = true → Completes (.numvfsWrite v) s s.dev) ∧
    (∀ k : Fin 8, s.dev.vfOn k = true → (s.dev.fn (k.val + 1)).flr = false → Reaches (.vfFlr k) s fun d' =>
      told k d' ∧ (∀ j, j ≠ k.val + 1 → d'.fn j = s.dev.fn j) ∧ KeepsCompute s.dev d' ∧ KeepsQueues s.dev d' ∧ KeepsFabric s.dev d') ∧
    Reaches .vfEnableClear s (fun d' => d'.vfEnable = false ∧ (∀ k < 8, s.dev.vfOn k = true → told k d') ∧
      (∀ k < 8, s.dev.vfOn k = false → (d'.fn (k + 1)) = s.dev.fn (k + 1)) ∧ KeepsCompute s.dev d' ∧ KeepsQueues s.dev d' ∧ KeepsFabric s.dev d') ∧
    Reaches .pfFlr s (fun d' => d'.fn 0 = {} ∧ d'.numVfs = 0 ∧ d'.vfEnable = false ∧ (∀ v < 2048, d'.vec 0 v = {}) ∧ (∀ k < 8, (d'.fn (k + 1)).bar2 = 10 ∧ (d'.fn (k + 1)).memEn = false) ∧
      (∀ q < 512, s.dev.queueMgr q = true → d'.queueEn q = false) ∧ KeepsCompute s.dev d' ∧ KeepsFabric s.dev d')

/-- Capture, escalation and counting (R398), and the clearing of a record (R402). -/
def Obligations.FaultRecords : Prop :=
  (∀ (s : State) (r : Report) (rest : List Report) (b : FcBlock), s.dev.on = true → s.dev.reports = r :: rest →
    1 ≤ codeClass r.code → codeClass r.code ≤ 10 →
    (b = .dev ∨ (∃ i, i < 8 ∧ b = .die i ∧ nfld r.master 15 12 = i) ∨ ∃ k, k < 8 ∧ b = .view k ∧ s.dev.charged r = some k) →
    let c := codeClass r.code
    let valid := s.dev.fcValid b c
    let taken : Bool := !valid || decide (fld (s.dev.fcWord b c 1) 9 8 < severity r.code)
    Reaches (.faultReport 1) s fun d' =>
      d'.reports = rest ∧ d'.fcValid b c = true ∧ (d'.fcWord b c 6).toNat = min 65535 ((s.dev.fcWord b c 6).toNat + 1) ∧
      (taken = true →
        d'.fcWord b c 0 = BitVec.ofNat 32 (r.code + r.master * 2 ^ 16) ∧
        d'.fcWord b c 1 = BitVec.ofNat 32 (r.access % 256 + severity r.code * 2 ^ 8 + (s.dev.charged r).getD 0xFF * 2 ^ 16 + (if valid then 2 ^ 24 else 0) + 2 ^ 31) ∧
        d'.fcWord b c 2 = BitVec.ofNat 32 (r.addr % 2 ^ 32) ∧ d'.fcWord b c 3 = BitVec.ofNat 32 (r.addr / 2 ^ 32 % 2 ^ 32) ∧
        d'.fcWord b c 4 = BitVec.ofNat 32 (s.dev.stamp r % 2 ^ 32) ∧ d'.fcWord b c 5 = BitVec.ofNat 32 (s.dev.stamp r / 2 ^ 32 % 2 ^ 32)) ∧
      (taken = false → ∀ w, w < 6 → d'.fcWord b c w = s.dev.fcWord b c w) ∧
      KeepsCompute s.dev d' ∧ KeepsQueues s.dev d' ∧ KeepsFabric s.dev d') ∧
  (∀ (s : State) (b : RecBlock) (c : Fin 10), s.dev.live = true → s.dev.fcMine b.block (c + 1) s.dev.caught = [] → Reaches (.faultRecordClear b c) s fun d' =>
    (∀ w, w < 8 → d'.fcWord b.block (c + 1) w = 0) ∧ RegsBut ((List.range 8).map fun w => (b.block.recReg w).addr (b.block.ix (c + 1))) s.dev d' ∧
    d' = { s.dev with regs := d'.regs }) ∧
  (∀ (s : State) (b : RecBlock) (c : Fin 10), s.dev.live = true → s.dev.fcMine b.block (c + 1) s.dev.caught ≠ [] → Reaches (.faultRecordClear b c) s fun d' =>
    d'.fcValid b.block (c + 1) = true ∧ (d'.fcWord b.block (c + 1) 6).toNat = min 65535 (s.dev.fcMine b.block (c + 1) s.dev.caught).length ∧
    KeepsCompute s.dev d' ∧ KeepsQueues s.dev d' ∧ KeepsFabric s.dev d')

/-- Line faults and lost reports (R394). -/
def Obligations.LineFaults : Prop :=
  ∀ s : State, s.dev.on = true →
    let counted (d : Dev) (h : Nat) (d' : Dev) : Prop :=
      d'.fcValid .dev h = true ∧ (d'.fcWord .dev h 6).toNat = min 65535 ((d.fcWord .dev h 6).toNat + 1) ∧
      KeepsCompute d d' ∧ KeepsQueues d d' ∧ KeepsFabric d d'
    (∀ (m : Fin 65536) h, homeClass m = some h →
      (Reaches (.linePairInvalid (.source m)) s fun d' => counted s.dev h d' ∧ m.val ∈ d'.lineFault ∧ d'.reports = s.dev.reports) ∧
      (Reaches (.lineAssertTimeout m) s fun d' => counted s.dev h d' ∧ m.val ∈ d'.lineFault ∧ d'.reports = s.dev.reports)) ∧
    (∀ i : DieIx, Completes (.linePairInvalid (.path i)) s (s.dev.setRegBit .fcDieSum [] (8 + i))) ∧
    (∀ (d : Dev) (pre rest : List Report) (r : Report), d.reports = pre ++ r :: rest → (∀ q ∈ pre, q.seen = none ∨ q.master ∈ d.lineFault) →
      r.seen ≠ none → r.master ∉ d.lineFault → d.reportDue = some (r.raisedAt + 101) ∧
      ∀ h, d = s.dev.passDue s.dev.reportDue → r.raisedAt + 101 ≤ d.ticks → homeClass r.master = some h →
        Reaches .reportLostTimeout s fun d' => counted d h d' ∧ d'.reports = pre ++ rest ∧ d'.lineFault = d.lineFault) ∧
    (∀ m : Fin 65536, Reaches (.linePairValidAgain m) s fun d' =>
      m.val ∉ d'.lineFault ∧ (∀ x, x ≠ m.val → (x ∈ d'.lineFault ↔ x ∈ s.dev.lineFault)) ∧ d' = { s.dev with lineFault := d'.lineFault })

/-- Returns, latches and releases (R404 to R406). -/
def Obligations.RecoveryLimits : Prop :=
  (∀ (s : State) (i : Fin 832) (d : Dev), s.dev.on = true → Comes (·.quiet.find? i) s.dev d →
    let latches (k : Nat) : Bool := decide (d.regFld .fcRcvCfg [k] 31 28 ≠ 0 ∧ d.regFld .fcRcvCfg [k] 31 28 ≤ d.rcvRecent i)
    (256 ≤ i.val → i.val < 824 → Reaches (.recoveryQuietExpiry i) s fun d' =>
      d'.quiet.has i = false ∧ KeepsCompute d d' ∧ KeepsQueues d d' ∧ KeepsFabric d d' ∧
      (latches 2 = false → d'.pwr.therm.find? (i - 256) = none ∧ d'.reports = d.reports ∧
        d'.regFld .fcRcv [i] 15 0 = min 65535 (d.regFld .fcRcv [i] 15 0 + 1) ∧ d'.returns.getD i [] = (d.time :: d.returns.getD i []).take 15) ∧
      (latches 2 = true → d'.rcvLatched i = true ∧ d'.pwr = d.pwr ∧ d'.regFld .fcRcv [i] 15 0 = d.regFld .fcRcv [i] 15 0 ∧
        d'.fcValid .dev 7 = true ∧ (d'.fcWord .dev 7 6).toNat = min 65535 ((d.fcWord .dev 7 6).toNat + 1))) ∧
    (i.val < 24 → (d.port i).st = 4 → Reaches (.recoveryQuietExpiry i) s fun d' =>
      (d'.port i).st = (if latches 0 then 5 else 2) ∧ (∀ p, p ≠ i.val → d'.port p = d.port p) ∧ KeepsCompute d d' ∧ d'.quiet.has i = false ∧
      (latches 0 = true → d'.rcvLatched i = true ∧ (d'.fcWord .dev 6 6).toNat = min 65535 ((d.fcWord .dev 6 6).toNat + 1))) ∧
    (∀ (die : DieIx) (site : Fin 24), i.val = modRcv die site →
      (d.modUp die site || (d.mod die site).training || (d.mod die site).failed || (siteFacing die site).isNone) = false →
      Reaches (.recoveryQuietExpiry i) s fun d' =>
        (d'.mod die site).training = !latches 1 ∧ d'.modUp die site = false ∧ KeepsCompute d d' ∧ d'.quiet.has i = false ∧
        (latches 1 = true → d'.rcvLatched i = true))) ∧
  (∀ s : State, s.dev.live = true →
    (∀ hbm : Bool, (s.dev.freshBits .pwrErrStatus []).getLsbD (if hbm then 5 else 3) = false → Reaches (.latchRelease (.sensors hbm)) s fun d' =>
      let held := s.dev.pwr.therm.keys.filter fun n => sensorHbm n == hbm && !s.dev.rcvLatched (256 + n)
      d'.regBit .pwrErrStatus [] (if hbm then 5 else 3) = !held.isEmpty ∧ KeepsCompute s.dev d' ∧ KeepsQueues s.dev d' ∧
      (held = [] → d'.reports = s.dev.reports) ∧
      (∀ n ∈ held, n < 568 → ∃ r ∈ d'.reports, r.code = (if hbm then 0x7203 else 0x7201) ∧ r.addr = n ∧ r.master = 0xF870) ∧
      ∀ n, n < 568 → (sensorHbm n = hbm ∧ s.dev.rcvLatched (256 + n) = true →
          d'.rcvLatched (256 + n) = false ∧ d'.rcvRecent (256 + n) = 0 ∧ d'.pwr.therm.find? n = none) ∧
        (¬(sensorHbm n = hbm ∧ s.dev.rcvLatched (256 + n) = true) →
          d'.reg .fcRcv [256 + n] = s.dev.reg .fcRcv [256 + n] ∧ d'.pwr.therm.find? n = s.dev.pwr.therm.find? n)) ∧
    ((s.dev.freshBits .fabErrStatus []).getLsbD 0 = false → Reaches (.latchRelease .ports) s fun d' =>
      d'.regBit .fabErrStatus [] 0 = false ∧ KeepsCompute s.dev d' ∧
      ∀ p, p < 24 → (s.dev.port p).st = 5 → (s.dev.port p).why = 5 → d'.rcvLatched p = false ∧ d'.rcvRecent p = 0) ∧
    (∀ die : DieIx, (s.dev.freshBits .datErrStatus [die]).getLsbD 2 = false → Reaches (.latchRelease (.modules die)) s fun d' =>
      d'.regBit .datErrStatus [die] 2 = false ∧ KeepsCompute s.dev d' ∧ KeepsFabric s.dev d' ∧ d'.reports = s.dev.reports ∧
      ∀ m, m < 24 → s.dev.rcvLatched (modRcv die m) = true → d'.rcvLatched (modRcv die m) = false ∧ (d'.mod die m).training = true) ∧
    (∀ hbm : Bool, (s.dev.freshBits .pwrErrStatus []).getLsbD (if hbm then 5 else 3) = true → Completes (.latchRelease (.sensors hbm)) s s.dev) ∧
    ((s.dev.freshBits .fabErrStatus []).getLsbD 0 = true → Completes (.latchRelease .ports) s s.dev) ∧
    (∀ die : DieIx, (s.dev.freshBits .datErrStatus [die]).getLsbD 2 = true → Completes (.latchRelease (.modules die)) s s.dev))

/-- Fences (R215, R243 to R245). -/
def Obligations.Fences : Prop :=
  ∀ (s : State) (die : DieIx), s.dev.live = true →
    let fenced (d' : Dev) : Prop := (d'.die die).st = 3 ∧ (d'.die die).stopped = true ∧ (∀ i, i ≠ die.val → d'.die i = s.dev.die i) ∧
      (∀ b n, dieOf b = die → n < 4 → ((d'.bench b).ctxN n).valid = true → ((d'.bench b).ctxN n).killed = true) ∧
      d'.reg .pwrDieDom [die] = s.dev.reg .pwrDieDom [die] ∧ d'.queues = s.dev.queues ∧ d'.hbm = s.dev.hbm ∧ KeepsModule s.dev d'
    let tells (d' : Dev) (code master : Nat) : Prop := ∃ r ∈ d'.reports, r.code = code ∧ r.master = master
    ((s.dev.die die).st = 2 → Reaches (.clockMonitorTrip die) s fun d' =>
      fenced d' ∧ (d'.die die).linkFence = true ∧ d'.regBit .datClkStatus [] (8 + die) = true ∧ d'.regBit .datErrStatus [die] 5 = true ∧
      tells d' 0x5106 (die * 0x1000 + 0x860)) ∧
    ((s.dev.die die).st = 2 → Reaches (.linkMonitorTrip die) s fun d' =>
      fenced d' ∧ (d'.die die).linkFence = true ∧ d'.regBit .datErrStatus [die] 6 = true ∧ tells d' 0x5107 (0xF850 + die)) ∧
    ((s.dev.die die).st = 3 → ∀ c ∈ [Instr.clockMonitorTrip die, .linkMonitorTrip die], Reaches c s fun d' =>
      (d'.die die).st = 3 ∧ (d'.die die).linkFence = true ∧ (∀ i, i ≠ die.val → d'.die i = s.dev.die i) ∧ d'.benches = s.dev.benches ∧ d'.net = s.dev.net ∧
      d'.hbm = s.dev.hbm ∧ KeepsQueues s.dev d' ∧
      (c = .clockMonitorTrip die → d'.regBit .datClkStatus [] (8 + die) = true ∧ d'.regBit .datErrStatus [die] 5 = true ∧
        tells d' 0x5106 (die * 0x1000 + 0x860)) ∧
      (c = .linkMonitorTrip die → d'.regBit .datErrStatus [die] 6 = true ∧ tells d' 0x5107 (0xF850 + die))) ∧
    ((s.dev.die die).st = 2 ∨ (s.dev.die die).st = 1 → Reaches (.dieFenceRequest die) s fenced) ∧
    (∀ k : Nat, (s.dev.die die).st = 2 → 4 ≤ k → Reaches (.controlFlitReceive die k) s fun d' =>
      fenced d' ∧ d'.regBit .netErrStatus [die] 3 = true ∧ tells d' 0x4202 (die * 0x1000 + 0x841)) ∧
    (∀ k : Nat, (s.dev.die die).st = 2 → 1 ≤ k → k ≤ 3 → Reaches (.controlFlitReceive die k) s fun d' =>
      d'.regBit .netErrStatus [die] 2 = true ∧ d'.regFld .netCeCount [die] 31 16 = min 65535 (s.dev.regFld .netCeCount [die] 31 16 + k) ∧
      (d'.reports.filter (·.code == 0x4201)).length = (s.dev.reports.filter (·.code == 0x4201)).length + k ∧ tells d' 0x4201 (die * 0x1000 + 0x841) ∧ KeepsCompute s.dev d' ∧ KeepsQueues s.dev d')

/-- Link-up and re-seat (R240, R241, R247, R248). -/
def Obligations.LinkUpAndReseat : Prop :=
  ∀ (s : State) (die : DieIx) (f : LinkUpFind), s.dev.live = true →
    ((s.dev.die die).st = 1 → LinksUp s.dev die f → Reaches (.dieLinkUp die f) s fun d' =>
      (d'.die die).st = 2 ∧ (d'.die die).stopped = false ∧ (∀ i, i ≠ die.val → d'.die i = s.dev.die i) ∧ d'.benches = s.dev.benches ∧ d'.hbm = s.dev.hbm ∧
      ∀ r n, f.record = some r → n < 16 → d'.reg .datCap [die, n] =
        BitVec.ofNat 32 (if n = 3 then recordSites r &&& sitesOf die else leNat ((r.drop (4 * n)).take 4))) ∧
    ((s.dev.die die).st = 1 → f.pll = false → Reaches (.dieLinkUp die f) s fun d' =>
      (d'.die die).st = 3 ∧ d'.regBit .datErrStatus [die] 5 = true ∧ ∃ r ∈ d'.reports, r.code = 0x5106) ∧
    ((s.dev.die die).st = 1 → f.pll = true → (∀ r, f.record = some r → recordOk r = false ∨ s.dev.recordLacks r = true) →
      Reaches (.dieLinkUp die f) s fun d' => (d'.die die).st = 3 ∧ d'.regBit .datErrStatus [die] 4 = true ∧ ∃ r ∈ d'.reports, r.code = 0x5105) ∧
    (∀ x, (s.dev.die die).st ≠ 0 → s.dev.reseat = some x → x.1 ≠ die.val → die.val ∉ s.dev.reseats → Completes (.reseat die) s
      { s.dev.setRegBit .datCtl [die] 1 with reseats := s.dev.reseats ++ [die.val] }) ∧
    ((s.dev.die die).st ≠ 0 → s.dev.reseat = none → die.val ∉ s.dev.reseats →
      let orderly := s.dev.regBit .datCtl [die] 2 && !(s.dev.die die).linkFence
      (orderly = true → s.dev.instOfDie die ∉ s.dev.quiesced → Completes (.reseat die) s ((s.dev.setRegBit .datState [die] 19).clrRegBit .datCtl [die] 1)) ∧
      (orderly = false ∨ s.dev.instOfDie die ∈ s.dev.quiesced → Reaches (.reseat die) s fun d' =>
        d'.reseat = some (die.val, orderly) ∧ (d'.die die).st = 4 ∧ (∀ i, i ≠ die.val → d'.die i = s.dev.die i) ∧ d'.queues = s.dev.queues ∧
        ((s.dev.die die).st ≠ 3 → ∀ b n, dieOf b = die → n < 4 → ((d'.bench b).ctxN n).valid = true → ((d'.bench b).ctxN n).killed = true))) ∧
    (∀ orderly, s.dev.reseat = some (die.val, orderly) → s.dev.reseats = [] →
      (LinksUp s.dev die f → s.dev.mirrors.keys = [] → Reaches (.reseatDone true f) s fun d' =>
        d'.reseat = none ∧ (d'.die die).st = 2 ∧ d'.cycle die = 0 ∧ (∀ i, i ≠ die.val → d'.die i = s.dev.die i) ∧
        (∀ b, dieOf b = die → d'.bench b = {}) ∧ (∀ b, dieOf b ≠ die → d'.bench b = s.dev.bench b) ∧
        (∀ y, y / 8 = die.val → d'.bay y = {}) ∧ (∀ q, q / 16 = die.val → d'.slice q = {}) ∧
        d'.regFld .datState [die] 15 8 = min 255 (s.dev.regFld .datState [die] 15 8 + 1) ∧
        (orderly = true → d'.hbm = s.dev.hbm) ∧
        (orderly = false → d'.regBit .datState [die] 18 = true ∧ (∀ a, a < 2 ^ 37 → d'.hbm.read (die * 2 ^ 37 + a) = 0) ∧
          ∀ a, a / 2 ^ 37 ≠ die.val → d'.hbm.read a = s.dev.hbm.read a)) ∧
      Reaches (.reseatDone false f) s fun d' =>
        d'.reseat = none ∧ (d'.die die).st = 3 ∧ d'.regBit .datErrStatus [die] 8 = true ∧ (∃ r ∈ d'.reports, r.code = 0x5109) ∧
        ((s.dev.die die).linkFence = true → (d'.die die).linkFence = true) ∧ (¬ LinksUp s.dev die f → d'.hbm = s.dev.hbm))

/-- Die-attach modules (R233, R235, R236). -/
def Obligations.ModulesAndTheirLists : Prop :=
  ∀ (s : State) (die : DieIx) (site : Fin 24), s.dev.live = true →
    let x := s.dev.mod die site
    let key := fun r => listKey die r
    let tells (d' : Dev) (code : Nat) : Prop := ∃ r ∈ d'.reports, r.code = code
    (∀ (inb : Bool) (c : BeatClass), s.dev.modUp die site = true → (inb = true ∨ siteFacing die site = some 8) →
      (if inb then x.askIn else x.askOut) = false →
      (match c with
        | .bulk => (takeBest (s.dev.comesBy die site inb) s.dev.exitKey s.dev.net).isSome = true
        | k => s.dev.beatSite die (k == .clamp) = some site.val ∧ s.dev.beatComes die (k == .clamp) inb = true) →
      let fails := if inb then x.failsIn else x.failsOut
      let got (d' : Dev) : Prop := d'.mod die site = (if inb then { x with failsIn := 0 } else { x with failsOut := 0 }) ∧
        d'.benches = s.dev.benches ∧ d'.dies = s.dev.dies ∧ d'.slices = s.dev.slices ∧ d'.bays = s.dev.bays ∧ KeepsQueues s.dev d' ∧
        (c ≠ .bulk → d'.net = s.dev.net ∧ d'.clampDown = s.dev.clampDown) ∧
        ∀ m rest, c = .bulk → takeBest (s.dev.comesBy die site inb) s.dev.exitKey s.dev.net = some (m, rest) →
          ∃ m', d'.net = modFirst (· == m) (fun _ => m') s.dev.net ∧ m' = { m with
            gw := inb || (agentDie m.dst).isNone
            hub := m'.hub
            inBudget := m'.inBudget
            epoch := if inb then s.dev.cycle die / 1024 else m.epoch
            inj := if inb then s.dev.cycle die else m.inj } ∧ m'.hub = (m.hub || (!inb && (agentDie m.dst).isSome))
      (Reaches (.gatewayFlitReceive die site inb ⟨c, .ok⟩) s fun d' => got d' ∧ d'.reports = s.dev.reports ∧
        (∃ k, RegsBut [RegName.netLate.addr [k]] s.dev d') ∧
        ∀ m rest k, c = .bulk → takeBest (s.dev.comesBy die site inb) s.dev.exitKey s.dev.net = some (m, rest) → agentDie m.src = some k →
          (inb && m.hub) = false → m.dynamic = true → m.epoch < s.dev.cycle k / 1024 →
          d'.regFld .netLate [k] 31 0 = min (2 ^ 32 - 1) (s.dev.regFld .netLate [k] 31 0 + 1)) ∧
      (Reaches (.gatewayFlitReceive die site inb ⟨c, .corrected⟩) s fun d' => got d' ∧ tells d' 0x5101 ∧ d'.regBit .datErrStatus [die] 0 = true ∧
        d'.regFld .datCount [die] 15 0 = min 65535 (s.dev.regFld .datCount [die] 15 0 + 1)) ∧
      (fails + 1 < 5 → Reaches (.gatewayFlitReceive die site inb ⟨c, .uncorrectable⟩) s fun d' => d' = { s.dev with mods := d'.mods } ∧
        d'.mod die site = (if inb then { x with failsIn := fails + 1, askIn := true } else { x with failsOut := fails + 1, askOut := true })) ∧
      (5 ≤ fails + 1 → Reaches (.gatewayFlitReceive die site inb ⟨c, .uncorrectable⟩) s fun d' =>
        d'.modUp die site = false ∧ d'.quiet.has (modRcv die site) = true ∧ tells d' 0x5103 ∧ d'.regBit .datErrStatus [die] 2 = true)) ∧
    (∀ inb : Bool, (if inb then x.askIn else x.askOut) = true → Reaches (.linkReplay die site inb) s fun d' =>
      d'.mod die site = (if inb then { x with askIn := false } else { x with askOut := false }) ∧ tells d' 0x5102 ∧ d'.regBit .datErrStatus [die] 1 = true ∧
      d'.regFld .datCount [die] 31 16 = min 65535 (s.dev.regFld .datCount [die] 31 16 + 1) ∧ KeepsCompute s.dev d' ∧ KeepsQueues s.dev d') ∧
    (x.training = true → (s.dev.die die).st = 2 →
      (Reaches (.moduleTrainingDone die site true) s fun d' =>
        d'.mod die site = {} ∧ d'.modUp die site = true ∧ KeepsCompute s.dev d' ∧ KeepsQueues s.dev d' ∧ d'.modLists = s.dev.modLists ∧
        d'.regFld .fcRcv [modRcv die site] 15 0 = min 65535 (s.dev.regFld .fcRcv [modRcv die site] 15 0 + 1) ∧
        ∀ r, siteFacing die site = some r → d'.listPend.has (key r) = true) ∧
      Reaches (.moduleTrainingDone die site false) s fun d' => (d'.mod die site).failed = true ∧ d'.modUp die site = false ∧ tells d' 0x5104 ∧
        d'.regBit .datErrStatus [die] 3 = true ∧ KeepsCompute s.dev d' ∧ KeepsQueues s.dev d') ∧
    (∀ remote : Fin 9, s.dev.listPend.has (key remote) = true → s.dev.listQuiet die remote = true → Reaches (.moduleListApply die remote) s fun d' =>
      d'.modList die remote = s.dev.upSites die remote ∧ d'.listPend.has (key remote) = false ∧
      d' = { s.dev with modLists := d'.modLists, listPend := d'.listPend } ∧ ∀ k, k ≠ key remote → d'.modLists.find? k = s.dev.modLists.find? k)

/-- Epochs (R211) and the check at ejection (R217). -/
def Obligations.EpochsAndEjection : Prop :=
  ∀ s : State, s.dev.live = true →
    (∀ die : DieIx, s.dev.dieRuns die = true → s.dev.startsBefore die (nextMod (s.dev.cycle die + 1) 1024 0) = false → Reaches (.epochStart die) s fun d' =>
      d'.cycle die = nextMod (s.dev.cycle die + 1) 1024 0 ∧ (d'.die die).budget = s.dev.reg .netBudget [die] ∧ (∀ i, i ≠ die.val → d'.die i = s.dev.die i) ∧
      (∀ src plane, src < 1024 → plane < 2 → d'.spent.find? (2 * (1024 * die + src) + plane) = none) ∧ d' = { s.dev with dies := d'.dies, spent := d'.spent }) ∧
    (∀ (n : Nat) (m : Msg), s.dev.net[n]? = some m → m.ready = true → m.ejects = true →
      let die := ((agentDie m.dst).orElse fun _ => agentDie m.src).getD 0
      let told (d' : Dev) (code : Nat) : Prop := ∃ r, d'.reports = s.dev.reports ++ [r] ∧ r.code = code ∧ r.master = die * 0x1000 + 0x840
      (Completes (.bulkFlitEject n .ok) s s.dev) ∧
      (Reaches (.bulkFlitEject n .single) s fun d' => told d' 0x4101 ∧ KeepsCompute s.dev d' ∧ KeepsQueues s.dev d' ∧
        (die < 8 → d'.regFld .netCeCount [die] 15 0 = min 65535 (s.dev.regFld .netCeCount [die] 15 0 + 1))) ∧
      (Reaches (.bulkFlitEject n .payload) s fun d' => told d' 0x4102 ∧ d'.net = s.dev.net.set n { m with poison := true } ∧
        d'.benches = s.dev.benches ∧ d'.slices = s.dev.slices ∧ d'.bays = s.dev.bays ∧ KeepsQueues s.dev d') ∧
      (s.dev.fencedOff (m.reply m.replyKind m.src) = false → m.kind ∈ [.benchRead, .benchWrite, .benchRed, .benchAtomic, .wra, .ata, .red] → Reaches (.bulkFlitEject n .header) s fun d' =>
        told d' 0x4102 ∧ d'.benches = s.dev.benches ∧ d'.slices = s.dev.slices ∧ KeepsQueues s.dev d' ∧
        ∃ x, d'.net = s.dev.net.eraseIdx n ++ [x] ∧ x.dst = m.req.getD m.src ∧ x.kind = m.replyKind ∧ x.tag = m.tag ∧ x.line = m.line ∧ x.poison = true ∧ x.gw = true ∧
          x.code = if m.replyKind = .lineRsp then 0 else 0x4102))

/-- The scalar instructions (R182 to R184). -/
def Obligations.ScalarInstructions : Prop :=
  (∀ w : W64, majorOf w = 0x01 → jFn w ∉ [0, 1, 2, 3, 4, 5, 6, 7, 8, 9, 10, 11, 12, 13, 16, 17, 18, 20, 21, 22, 23] → jigStreamBad w ≠ none) ∧
  ∀ (s : State) (b : BenchIx) (f : Ecc) (w : W64), s.dev.live = true → JigReady s.dev b f w →
    let bn := s.dev.bench b
    let x := bn.j (jRs1 w)
    let y := bn.j (jRs2 w)
    let imm := w.extractLsb' 16 16
    let gives (c : Instr) (v : W32) : Prop := Reaches c s (JigDoes b (jRd w) v (bn.pc + 4) (s.dev.fetchedBy b f))
    (majorOf w = 0x01 →
      (jFn w = 0 → gives (.alu b f) (x + y)) ∧ (jFn w = 1 → gives (.alu b f) (x - y)) ∧ (jFn w = 2 → gives (.alu b f) (x &&& y)) ∧
      (jFn w = 3 → gives (.alu b f) (x ||| y)) ∧ (jFn w = 4 → gives (.alu b f) (x ^^^ y)) ∧
      (jFn w = 5 → gives (.alu b f) (BitVec.ofNat 32 (x.toNat * 2 ^ (y.toNat % 32)))) ∧
      (jFn w = 6 → gives (.alu b f) (BitVec.ofNat 32 (x.toNat / 2 ^ (y.toNat % 32)))) ∧
      (jFn w = 7 → gives (.alu b f) (BitVec.ofInt 32 (x.toInt / 2 ^ (y.toNat % 32)))) ∧
      (jFn w = 8 → gives (.alu b f) (if x.toInt < y.toInt then 1 else 0)) ∧ (jFn w = 9 → gives (.alu b f) (if x.toNat < y.toNat then 1 else 0)) ∧
      (jFn w = 10 → gives (.alu b f) (BitVec.ofInt 32 (min x.toInt y.toInt))) ∧ (jFn w = 11 → gives (.alu b f) (BitVec.ofInt 32 (max x.toInt y.toInt))) ∧
      (jFn w = 12 → gives (.alu b f) (BitVec.ofNat 32 (min x.toNat y.toNat))) ∧ (jFn w = 13 → gives (.alu b f) (BitVec.ofNat 32 (max x.toNat y.toNat))) ∧
      (jFn w = 16 → gives (.alu b f) (x * y)) ∧ (jFn w = 17 → gives (.alu b f) (BitVec.ofInt 32 (x.toInt * y.toInt / 2 ^ 32))) ∧
      (jFn w = 18 → gives (.alu b f) (BitVec.ofNat 32 (x.toNat * y.toNat / 2 ^ 32))) ∧
      (jFn w = 20 → gives (.alu b f) (if y = 0 then 0xFFFFFFFF else BitVec.ofInt 32 (x.toInt.tdiv y.toInt))) ∧
      (jFn w = 21 → gives (.alu b f) (if y = 0 then 0xFFFFFFFF else BitVec.ofNat 32 (x.toNat / y.toNat))) ∧
      (jFn w = 22 → gives (.alu b f) (if y = 0 then x else BitVec.ofInt 32 (x.toInt.tmod y.toInt))) ∧
      (jFn w = 23 → gives (.alu b f) (if y = 0 then x else BitVec.ofNat 32 (x.toNat % y.toNat)))) ∧
    (majorOf w = 0x02 → gives (.addi b f) (x + imm.signExtend 32)) ∧
    (majorOf w = 0x03 → gives (.andi b f) (x &&& imm.zeroExtend 32)) ∧
    (majorOf w = 0x04 → gives (.ori b f) (x ||| imm.zeroExtend 32)) ∧
    (majorOf w = 0x05 → gives (.xori b f) (x ^^^ imm.zeroExtend 32)) ∧
    (majorOf w = 0x06 → gives (.slti b f) (if x.toInt < imm.toInt then 1 else 0)) ∧
    (majorOf w = 0x07 → gives (.sltiu b f) (if x.toNat < (imm.signExtend 32).toNat then 1 else 0)) ∧
    (majorOf w = 0x08 → jFn w = 0 → gives (.shi b f) (BitVec.ofNat 32 (x.toNat * 2 ^ fld w 20 16))) ∧
    (majorOf w = 0x08 → jFn w = 1 → gives (.shi b f) (BitVec.ofNat 32 (x.toNat / 2 ^ fld w 20 16))) ∧
    (majorOf w = 0x08 → jFn w = 2 → gives (.shi b f) (BitVec.ofInt 32 (x.toInt / 2 ^ fld w 20 16))) ∧
    (majorOf w = 0x09 → gives (.lui b f) (BitVec.ofNat 32 (fld w 31 11 * 2048))) ∧
    (majorOf w = 0x1B → fld w 20 16 = 2 → gives (.rdcyc b f) (BitVec.ofNat 32 (s.dev.cycle (dieOf b))))

/-- Branches, system instructions, counter waits and fetch faults (R38, R55, R182, R184, R185). -/
def Obligations.BranchesWaitsAndFetchFaults : Prop :=
  ∀ (s : State) (b : BenchIx) (f : Ecc) (w : W64), s.dev.live = true →
    let bn := s.dev.bench b
    let x := bn.j (jRs1 w)
    let y := bn.j (jRd w)
    let d1 := s.dev.fetchedBy b f
    let goes (c : Instr) (pc : Nat) : Prop := Reaches c s (BenchBecomes b { bn with pc := pc } d1)
    let target (k : Nat) (v : Nat) : Nat := (((bn.pc : Int) + 4 * (BitVec.ofNat k v).toInt) % 2 ^ 32).toNat
    (JigReady s.dev b f w →
      (∀ holds : Bool, (majorOf w = 0x13 → (holds = true ↔ x = y)) → (majorOf w = 0x14 → (holds = true ↔ x ≠ y)) →
        (majorOf w = 0x15 → (holds = true ↔ x.toInt < y.toInt)) → (majorOf w = 0x16 → (holds = true ↔ y.toInt ≤ x.toInt)) →
        (majorOf w = 0x17 → (holds = true ↔ x.toNat < y.toNat)) → (majorOf w = 0x18 → (holds = true ↔ y.toNat ≤ x.toNat)) →
        0x13 ≤ majorOf w → majorOf w ≤ 0x18 → goes (.jigBranch b f) (if holds then target 16 (fld w 31 16) else bn.pc + 4)) ∧
      (majorOf w = 0x19 → Reaches (.jal b f) s (JigDoes b (jRd w) (BitVec.ofNat 32 (bn.pc + 4)) (target 21 (fld w 31 11)) d1)) ∧
      (majorOf w = 0x1A → Reaches (.jalr b f) s (JigDoes b (jRd w) (BitVec.ofNat 32 (bn.pc + 4)) (x + (w.extractLsb' 16 16).signExtend 32).toNat d1)) ∧
      (majorOf w = 0x1B → fld w 20 16 = 0 → goes (.sysNop b f) (bn.pc + 4)) ∧
      (majorOf w = 0x1B → fld w 20 16 = 1 → Reaches (.endOp b f) s (BenchBecomes b { bn with ended := true } d1)) ∧
      (∀ mp, majorOf w = 0x1B → fld w 20 16 = 3 → fld w 22 21 < 2 → goes (.sysFence b f mp) (bn.pc + 4)) ∧
      (majorOf w = 0x1C → Reaches (.cwait b f) s (BenchBecomes b { bn with
        pc := bn.pc + 4
        wait := .counter (fld w 9 6) ((x.toNat + fld w 31 16) % 65536) (w.getLsbD 10)
        waitAt := s.dev.cycle (dieOf b) } d1))) ∧
    (∀ c t al, bn.wait = .counter c t al → s.dev.dieRuns (dieOf b) = true → bn.running = true →
      let reached : Bool := decide ((bn.ctx.counters.toList.getD c 0 - BitVec.ofNat 16 t).toNat < 2 ^ 15)
      (reached = true → Reaches (.cwaitExit b) s fun d' => d'.bench b = { bn with wait := .none } ∧ BenchesBut b s.dev d' ∧
        (∀ i, i ≠ dieOf b → d'.die i = s.dev.die i) ∧ d' = { s.dev with benches := d'.benches, dies := d'.dies, spent := d'.spent } ∧
        d'.cycle (dieOf b) = if al then nextMod (s.dev.cycle (dieOf b) + 1) 8 0 else s.dev.cycle (dieOf b)) ∧
      s.dev.counterDue b = bn.waitAt + (if s.dev.reg .bchWaitWdog [b] = 0 then (RegName.bchWaitWdog.reset).toNat else (s.dev.reg .bchWaitWdog [b]).toNat) ∧
      ∀ d1, ComesAt (dieOf b) (fun d => some (d.counterDue b)) s.dev d1 → reached = false → d1.bench b = bn → d1.dieRuns (dieOf b) = true →
        Reaches (.counterWaitTimeout b) s (Kills b 0x1103 0 0 d1)) ∧
    (∀ c ∈ [Instr.alu b f, .addi b f, .andi b f, .ori b f, .xori b f, .slti b f, .sltiu b f, .shi b f, .lui b f, .rdcyc b f, .jigBranch b f, .jal b f,
        .jalr b f, .sysNop b f, .endOp b f, .cwait b f, .tm b f, .slot b f, .pf b f, .tglaunch b f, .tgpark b f, .tgact b f, .mark b f], s.dev.jigCanIssue b = true →
      (bn.fetchOk bn.pc = false → Reaches c s (Kills b 0x1605 0x18 bn.pc s.dev)) ∧
      (bn.fetchOk bn.pc = true → f = .double → Reaches c s (Kills b 0x2107 0x18 bn.pc s.dev)) ∧
      (bn.fetchOk bn.pc = true → f = .ok → major64 (majorOf (bn.instrAt bn.pc)) = true → bn.pc % 8 ≠ 0 → Reaches c s (Kills b 0x1604 0x18 bn.pc s.dev)) ∧
      (∀ code, bn.fetchOk bn.pc = true → f = .ok → (major64 (majorOf (bn.instrAt bn.pc)) = true → bn.pc % 8 = 0) → jigStreamBad (bn.instrAt bn.pc) = some code →
        Reaches c s (Kills b code 0x18 bn.pc s.dev)))

/-- Jig loads, stores and prefetches (R42, R43, R46 to R50, R181, R182). -/
def Obligations.JigLoadsStoresAndPrefetch : Prop :=
  ∀ (s : State) (b : BenchIx) (f dd : Ecc) (w : W64), s.dev.live = true → JigReady s.dev b f w → dd ≠ .double →
    let bn := s.dev.bench b
    let d1 := s.dev.fetchedBy b f
    let m := majorOf w
    let n := if m = 0x0A ∨ m = 0x0F then 4 else if m = 0x0B ∨ m = 0x0C ∨ m = 0x10 then 2 else 1
    let a := ((((bn.j (jRs1 w)).toNat + (bn.j (jRs1 w + 1)).toNat % 2 ^ 16 * 2 ^ 32 : Nat) : Int) + (w.extractLsb' 16 16).toInt) % 2 ^ 48 / n * n |>.toNat
    let val (bs : List Byte) : W32 := if m = 0x0B then (BitVec.ofNat 16 (leNat bs)).signExtend 32 else if m = 0x0D then (BitVec.ofNat 8 (leNat bs)).signExtend 32
      else BitVec.ofNat 32 (leNat bs)
    let next (d' : Dev) : Prop := (d'.bench b).pc = bn.pc + 4 ∧ (d'.bench b).jigSb = none ∧ BenchesBut b s.dev d' ∧ d'.dies = s.dev.dies ∧ d'.hbm = s.dev.hbm ∧
      KeepsQueues s.dev d'
    let loaded (v : W32) (d' : Dev) : Prop := next d' ∧ d'.net = s.dev.net ∧ (d'.bench b).tile = bn.tile ∧ (d'.bench b).wait = .none ∧
      ∀ r, r < 32 → (d'.bench b).j r = if r = jRd w ∧ r ≠ 0 then v else bn.j r
    let asked (line : Nat) (d' : Dev) : Prop := ∃ q, d'.net = s.dev.net ++ [q] ∧ q.kind = .benchRead ∧ q.src = .bench b ∧ q.dst = .bay (bayOf b) ∧ q.line = line
    let local' (wr : Bool) (off : Nat) : SbRange := { dev := false, first := off, last := off + n - 1, wr := wr, l1 := false }
    let far (wr l1 : Bool) (pa k : Nat) : SbRange := { dev := true, first := pa, last := pa + k - 1, wr := wr, l1 := l1 }
    (0x0A ≤ m → m ≤ 0x0E → ∀ pe : Bool,
      (classify a = .bad → Reaches (.jigLoad b f dd pe) s (Kills b 0x1102 0x10 a d1)) ∧
      (∀ off, classify a = .store off → bn.ctx.usable ≤ off → Reaches (.jigLoad b f dd pe) s (Kills b 0x1101 0x10 a d1)) ∧
      (∀ off i d2, classify a = .store off → off < bn.ctx.usable → Enters d1 b (local' false off) i d2 →
        Reaches (.jigLoad b f dd pe) s (loaded (val (bn.tile.readBytes (bn.ctx.base + off) n))) ∧
        (bn.ownerAt (bn.ctx.base + off) = some (bn.runCtx, bn.ctx) → Reaches (.jigLoad b f .double pe) s (Kills b 0x2102 0x10 (localAddr (off / 8 * 8)) d1))) ∧
      (∀ pa i d2 k, classify a = .device pa → Enters d1 b (far false true pa n) i d2 → bn.l1Find (pa / 128) = some k → (bn.l1.getD k ⟨0, none⟩).poison = none →
        Reaches (.jigLoad b f dd false) s (loaded (val (bn.tile.readBytes (bn.l1Off k + pa % 128) n)))) ∧
      (∀ pa i d2, classify a = .device pa → Enters d1 b (far false true pa n) i d2 → bn.l1Find (pa / 128) = none → (∀ e ∈ bn.infeed, e.line ≠ pa / 128) →
        (∀ x ∈ bn.fills, x.line ≠ pa / 128) → (∀ x ∈ bn.merge, x.line ≠ pa / 128) → Reaches (.jigLoad b f dd pe) s fun d' =>
          next d' ∧ (d'.bench b).wait = .load pa n (m = 0x0B ∨ m = 0x0D) (jRd w) i ∧ asked (pa / 128) d' ∧ (d'.bench b).tile = bn.tile ∧
          ∃ x ∈ (d'.bench b).fills, x.line = pa / 128 ∧ x.jig = true ∧ x.void = false)) ∧
    (0x0F ≤ m → m ≤ 0x11 →
      let bs := leBytes (bn.j (jRd w)).toNat n
      (∀ pe mp, classify a = .bad → Reaches (.jigStore b f dd pe mp) s (Kills b 0x1102 0x11 a d1)) ∧
      (∀ pe mp off, classify a = .store off → bn.ctx.usable ≤ off → Reaches (.jigStore b f dd pe mp) s (Kills b 0x1101 0x11 a d1)) ∧
      (∀ pe mp off i d2, classify a = .store off → off < bn.ctx.usable → Enters d1 b (local' true off) i d2 → Reaches (.jigStore b f dd pe mp) s fun d' =>
        next d' ∧ d'.net = s.dev.net ∧ (d'.bench b).jregs = bn.jregs ∧ (d'.bench b).tile.readBytes (bn.ctx.base + off) n = bs ∧
        ∀ x, x < bn.ctx.base + off ∨ bn.ctx.base + off + n ≤ x → (d'.bench b).tile.read x = bn.tile.read x) ∧
      (∀ pa i d2, classify a = .device pa → Enters d1 b (far true true pa n) i d2 → bn.mergeHolds (pa / 128) = true ∨ bn.merge.length < 16 →
        (∀ x ∈ bn.merge, x.pe = false) →
        Reaches (.jigStore b f dd false false) s fun d' =>
          next d' ∧ (d'.bench b).jregs = bn.jregs ∧
          (∃ e ∈ (d'.bench b).merge, e.line = pa / 128 ∧ ∀ k, k < n → e.be.getLsbD (pa % 128 + k) = true ∧ e.data.byte (pa % 128 + k) = bs.getD k 0) ∧
          (bn.l1Find (pa / 128) = none → (d'.bench b).tile = bn.tile) ∧
          ∀ k, bn.l1Find (pa / 128) = some k → (d'.bench b).tile.readBytes (bn.l1Off k + pa % 128) n = bs)) ∧
    (m = 0x12 →
      (classify a = .bad → Reaches (.pf b f) s (Kills b 0x1102 0x12 a d1)) ∧
      (∀ off, classify a = .store off → Reaches (.pf b f) s (BenchBecomes b { bn with pc := bn.pc + 4 } d1)) ∧
      (∀ pa i d2, classify a = .device pa → Enters d1 b (far false false pa 1) i d2 → bn.l1Find (pa / 128) = none → (∀ e ∈ bn.infeed, e.line ≠ pa / 128) →
        (∀ x ∈ bn.fills, x.line ≠ pa / 128) → (∀ x ∈ bn.merge, x.line ≠ pa / 128) →
        (bn.infeed.length < 8 → Reaches (.pf b f) s fun d' => next d' ∧ asked (pa / 128) d' ∧ (d'.bench b).jregs = bn.jregs ∧ (d'.bench b).tile = bn.tile ∧
          ∃ e, (d'.bench b).infeed = bn.infeed ++ [e] ∧ e.line = pa / 128 ∧ e.held = false) ∧
        (8 ≤ bn.infeed.length → (∀ c ∈ bn.slots.cells, c.2.fences = []) → Reaches (.pf b f) s fun d' => next d' ∧ d'.net = s.dev.net ∧ (d'.bench b).infeed = bn.infeed ∧
          (d'.reg .bchPfDrop [b]).toNat = min (2 ^ 32 - 1) ((s.dev.reg .bchPfDrop [b]).toNat + 1))) ∧
      ∀ pa i d2, classify a = .device pa → Enters d1 b (far false false pa 1) i d2 → (bn.l1Find (pa / 128)).isSome = true →
        (∀ c ∈ bn.slots.cells, c.2.fences = []) → Reaches (.pf b f) s fun d' => next d' ∧ d'.net = s.dev.net ∧ (d'.bench b).infeed = bn.infeed ∧ (d'.bench b).l1 = bn.l1)

/-- Fills, drains and retirement (R46, R48, R53). -/
def Obligations.FillsDrainsAndRetirement : Prop :=
  ∀ (s : State) (b : BenchIx), s.dev.live = true → s.dev.dieRuns (dieOf b) = true →
    let bn := s.dev.bench b
    let alone (d d' : Dev) : Prop := BenchesBut b d d' ∧ d'.hbm = d.hbm ∧ d'.dies = d.dies ∧ KeepsQueues d d'
    (∀ (m : Msg) d0 f pa n sgn rd sb, Serves (fun m => m.kind == .lineRsp && m.dst == .bench b && m.tag == 0) s.dev m d0 → bn.msgLive m = true →
      m.poison = false → bn.fills.find? (·.line == m.line) = some f → f.void = false → f.jig = true → f.plane = false →
      bn.wait = .load pa n sgn rd sb → pa / 128 = m.line →
      let own := bn.merge.foldl (fun (a : Line × ByteEn) e => if e.line == m.line then (mergeLine a.1 e.data e.be, a.2 ||| e.be) else a) (f.ovData, f.ovBe)
      let l := mergeLine m.data own.1 own.2
      Reaches (.lineFillArrival b) s fun d' => alone s.dev d' ∧ d'.net = d0.net ∧ (d'.bench b).wait = .none ∧ (d'.bench b).pc = bn.pc ∧
        (∀ r, r < 32 → (d'.bench b).j r = if r = rd ∧ r ≠ 0 then loadValue n sgn (Line.slice l (pa % 128) n) else bn.j r) ∧
        (bn.slots.cells = [] → (d'.bench b).fills = bn.fills.filter (·.line != m.line)) ∧
        (bn.slots.cells = [] → l1Sets bn.split ≠ 0 → (∀ k, f.way = some k → k / 8 = m.line % l1Sets bn.split) →
          ∃ k, (d'.bench b).l1Find m.line = some k ∧ (d'.bench b).tile.readLine ((d'.bench b).l1Off k) = l)) ∧
    (∀ n, s.dev.idleFirst b = some n → ∃ e ∈ bn.merge, e.draining = false ∧ n = e.last + max 1 (s.dev.regFld .bchMbCfg [b] 7 0)) ∧
    (∀ e d1, ComesAt (dieOf b) (·.idleFirst b) s.dev d1 → d1.bench b = bn → d1.dieRuns (dieOf b) = true → bn.merge.find? (!·.draining) = some e →
      (∀ x ∈ bn.merge, x.pe = false) → Reaches (.mergeBufferIdleDrain b false) s fun d' =>
      alone d1 d' ∧ (∃ x ∈ d'.net, x.kind = .benchWrite ∧ x.src = .bench b ∧ x.dst = .bay (bayOf b) ∧ x.line = e.line ∧ x.data = e.data ∧ x.be = e.be ∧ x.tag = e.id) ∧
      (∃ x ∈ (d'.bench b).merge, x = { e with draining := true }) ∧ (d'.bench b).tile = bn.tile ∧ (d'.bench b).sb = bn.sb) ∧
    (∀ (m : Msg) d0 e, Serves (fun m => m.kind == .writeAck && m.dst == .bench b && m.op == 0) s.dev m d0 → bn.msgLive m = true → m.poison = false →
      bn.merge.find? (·.id == m.tag) = some e → (∀ f ∈ bn.fills, f.line = e.line → f.sent = true) → (∀ x ∈ bn.merge, x.pe = false) →
      let left := bn.merge.filter (·.id != e.id)
      Reaches (.mergeBufferDrainAck b) s fun d' =>
        alone s.dev d' ∧ (d'.bench b).merge.map (·.id) = left.map (·.id) ∧ (d'.bench b).tile = bn.tile ∧
        (left.length < 12 → d'.net = d0.net ∧ (d'.bench b).merge = left) ∧
        (12 ≤ left.length → ∃ y, (d'.bench b).merge.head? = some y ∧ y.draining = true) ∧
        ∀ x ∈ bn.sb, x.id ∈ e.sbs → (∀ o ∈ bn.merge, o.id ≠ e.id → x.id ∉ o.sbs) → (∀ p ∈ bn.plane.pends, x.id ∉ p.sbs) → ∃ y ∈ (d'.bench b).sb, y.id = x.id ∧ y.done = true) ∧
    (∀ e, (∀ m ∈ s.dev.net, m.kind = .atomRsp → m.dst ≠ .bench b) → bn.sb.find? (·.done) = some e → Reaches (.scoreboardRetire b) s fun d' =>
      alone s.dev d' ∧ d'.net = s.dev.net ∧ (d'.bench b).sb = bn.sb.filter (fun x => x.id != e.id) ∧ (d'.bench b).tile = bn.tile ∧ (d'.bench b).merge = bn.merge)

/-- The tile mover (R51, R54, R184) and slot transfers (R168). -/
def Obligations.TileMoverAndSlots : Prop :=
  ∀ (s : State) (b : BenchIx) (f : Ecc) (w : W64), s.dev.live = true →
    let bn := s.dev.bench b
    let d1 := s.dev.fetchedBy b f
    let alone (d' : Dev) : Prop := BenchesBut b s.dev d' ∧ d'.hbm = s.dev.hbm ∧ KeepsQueues s.dev d'
    let r (i : Nat) : W32 := bn.j (8 * fld w 7 6 + i)
    let counted (d' : Dev) (c cnt : Nat) : Prop := cnt < 16 → ((d'.bench b).ctxN c).counters.toList.getD cnt 0 = (bn.ctxN c).counters.toList.getD cnt 0 + 1
    let started (t : TmDesc) (d' : Dev) : Prop := alone d' ∧ ∃ y ∈ (d'.bench b).tm, y.id = t.id ∧ y.active = true
    (JigReady s.dev b f w → majorOf w = 0x1D →
      let (src, dst, len, rows) := bn.tmRead w
      (tmLegal src dst len rows = true → src.bad bn.ctx.usable len rows = none → dst.bad bn.ctx.usable len rows = none → bn.tm.length < 16 → bn.sb.length + 2 ≤ 64 →
        (∀ x ∈ bn.merge, x.pe = false) → Reaches (.tm b f) s fun d' => alone d' ∧ (bn.merge = [] → d'.net = s.dev.net) ∧ (d'.bench b).pc = bn.pc + 4 ∧ (d'.bench b).tile = bn.tile ∧
          ∃ t e1 e2, (d'.bench b).tm = bn.tm ++ [t] ∧ (d'.bench b).sb = bn.sb ++ [e1, e2] ∧ e1.wr = false ∧ e2.wr = true ∧ t.sbSrc = e1.id ∧ t.sbDst = e2.id ∧
            t.cnt = fld w 11 8 ∧ t.rowLen = (r 4).toNat ∧ t.rows = (r 5).toNat % 65536 ∧ t.srcStride = (r 6).toInt ∧ t.dstStride = (r 7).toInt ∧
            t.src = src.addr ∧ t.dst = dst.addr ∧ t.fsrc = w.getLsbD 12 ∧ t.fdst = w.getLsbD 13 ∧ t.active = false ∧ t.slot = none) ∧
      (tmLegal src dst len rows = false → Reaches (.tm b f) s (Kills b 0x1104 0x40 (src.addr % 2 ^ 48) d1)) ∧
      (∀ c, tmLegal src dst len rows = true → src.bad bn.ctx.usable len rows = some c → Reaches (.tm b f) s (Kills b c 0x40 (src.addr % 2 ^ 48) d1)) ∧
      (∀ c, tmLegal src dst len rows = true → src.bad bn.ctx.usable len rows = none → dst.bad bn.ctx.usable len rows = some c →
        Reaches (.tm b f) s (Kills b c 0x41 (dst.addr % 2 ^ 48) d1))) ∧
    (s.dev.dieRuns (dieOf b) = true → bn.running = true →
      (∀ t, bn.tmNext = some t → bn.sbWaitsBut t.sbSrc [t.sbSrc, t.sbDst] = false → bn.sbWaitsBut t.sbDst [t.sbSrc, t.sbDst] = false →
        let from' (q k : Nat) : Nat := tmAt (spaceOff t.src) t.srcStride q k
        let to' (q k : Nat) : Nat := tmAt (spaceOff t.dst) t.dstStride q k
        (∀ q, q < t.rows → 0 ≤ (spaceOff t.src : Int) + t.srcStride * q ∧ 0 ≤ (spaceOff t.dst : Int) + t.dstStride * q) →
        (t.localSrc = true → t.localDst = true → (∀ q k p j, q < t.rows → k < t.rowLen → p < t.rows → j < t.rowLen → from' q k ≠ to' p j ∧ (to' q k = to' p j → q = p ∧ k = j)) →
          Reaches (.tileMoverDescriptorStart b {}) s fun d' => alone d' ∧ d'.net = s.dev.net ∧
            (∀ q k, q < t.rows → k < t.rowLen → (d'.bench b).tile.read (bn.ctx.base + to' q k) = bn.tile.read (bn.ctx.base + from' q k)) ∧
            (∀ a, (∀ q k, q < t.rows → k < t.rowLen → a ≠ bn.ctx.base + to' q k) → (d'.bench b).tile.read a = bn.tile.read a)) ∧
        (t.localSrc = true → t.localDst = false → t.fdst = false → 0 < t.rowLen → Reaches (.tileMoverDescriptorStart b {}) s fun d' =>
          alone d' ∧ (d'.bench b).tile = bn.tile ∧ ∀ q k, q < t.rows → k < t.rowLen →
            WritesByte d'.net (to' q k) (bn.tile.read (bn.ctx.base + from' q k))) ∧
        (t.localSrc = false → t.fsrc = false → 0 < t.rowLen → Reaches (.tileMoverDescriptorStart b {}) s fun d' =>
          started t d' ∧ (d'.bench b).tile = bn.tile ∧ ∀ q k, q < t.rows → k < t.rowLen →
            ∃ x ∈ d'.net, x.kind = .benchRead ∧ x.tag = t.id + 1 ∧ x.line = from' q k / 128 ∧ x.off ≤ from' q k % 128 ∧ from' q k % 128 < x.off + x.v1 ∧
              x.v0 + (from' q k % 128 - x.off) = to' q k)) ∧
      (∀ (m : Msg) d0 t, Serves (fun m => m.kind == .lineRsp && m.dst == .bench b && m.tag != 0) s.dev m d0 → bn.msgLive m = true → m.poison = false →
        bn.tm = [t] → t.id + 1 = m.tag → Reaches (.tileMoverResponse b) s fun d' => alone d' ∧ d'.net = d0.net ∧
          (d'.bench b).tile = bn.tile.writeBytes (bn.ctx.base + m.v0) (Line.slice m.data m.off m.v1) ∧
          (1 < t.reads → (d'.bench b).tm = [{ t with reads := t.reads - 1 }]) ∧
          (t.reads = 1 → t.writes = 0 → t.active = true → (d'.bench b).tm = [] ∧ counted d' t.ctx t.cnt)) ∧
      (∀ (m : Msg) d0 t, Serves (fun m => m.kind == .writeAck && m.dst == .bench b && m.op == 1) s.dev m d0 → bn.msgLive m = true → m.poison = false →
        bn.tm = [t] → t.id = m.tag → Reaches (.tileMoverWriteAck b) s fun d' => alone d' ∧ d'.net = d0.net ∧ (d'.bench b).tile = bn.tile ∧
          (1 < t.writes → (d'.bench b).tm = [{ t with writes := t.writes - 1 }]) ∧
          (t.writes = 1 → t.reads = 0 → t.active = true → (d'.bench b).tm = [] ∧ counted d' t.ctx t.cnt))) ∧
    (JigReady s.dev b f w → majorOf w = 0x1E →
      (∀ e, bn.ctx.slots[fld w 15 6]? = some e → s.dev.slotTarget b e ≠ none → e.srcOff + e.len ≤ bn.ctx.usable → bn.tm.length < 16 → bn.sb.length + 1 ≤ 64 →
        Reaches (.slot b f) s fun d' => alone d' ∧ d'.net = s.dev.net ∧ (d'.bench b).pc = bn.pc + 4 ∧ ∃ t e1, (d'.bench b).tm = bn.tm ++ [t] ∧ t.slot = some e ∧
          (d'.bench b).sb = bn.sb ++ [e1] ∧ e1.wr = false ∧ t.sbSrc = e1.id) ∧
      (bn.ctx.slots[fld w 15 6]? = none → Reaches (.slot b f) s (Kills b 0x1104 0x42 0 d1)) ∧
      ∀ e, bn.ctx.slots[fld w 15 6]? = some e → s.dev.slotTarget b e = none → Reaches (.slot b f) s (Kills b 0x1104 0x42 (localAddr e.srcOff) d1)) ∧
    (∀ t e tb tc, s.dev.dieRuns (dieOf b) = true → bn.running = true → bn.tm.find? (·.slot.isSome) = some t → t.slot = some e → bn.sbWaits t.sbSrc = false →
      s.dev.slotTarget b e = some (tb, tc) → e.phase < 1024 →
      s.dev.startsBefore (dieOf b) (nextMod (s.dev.cycle (dieOf b) + 1) 1024 e.phase) = false → Reaches (.slotTransferStart b {}) s fun d' => alone d' ∧
        d'.cycle (dieOf b) = nextMod (s.dev.cycle (dieOf b) + 1) 1024 e.phase ∧ (d'.bench b).tm = bn.tm.filter (·.id != t.id) ∧ (s.dev.slotTrains (dieOf b) = [] → d'.regs = s.dev.regs) ∧
        ∀ k, k < e.len → ∃ x ∈ d'.net, x.kind = .slotChunk ∧ x.dst = .bench tb ∧ x.ctx = tc ∧ x.v0 = e.dstCnt ∧ x.off ≤ e.dstOff + k ∧ e.dstOff + k < x.off + x.v1 ∧
          x.data.byte (e.dstOff + k - x.off) = bn.tile.read (bn.ctx.base + e.srcOff + k)) ∧
    (∀ m : Msg, s.dev.dieRuns (dieOf b) = true → s.dev.net.find? (fun m => m.kind == .slotChunk && m.dst == .bench b) = some m →
      let mine (x : Msg) : Bool := x.kind == .slotChunk && x.dst == .bench b && x.src == m.src && x.tag == m.tag
      (bn.ctxN m.ctx).gen = m.gen → (bn.ctxN m.ctx).valid = true → (∀ x ∈ s.dev.net, mine x = true → x.poison = false ∧ x.ctx = m.ctx) →
      (s.dev.net.filter mine).Pairwise (fun x y => x.off + x.v1 ≤ y.off ∨ y.off + y.v1 ≤ x.off) → Reaches (.slotTransferLanding b) s fun d' =>
        alone d' ∧ d'.net = s.dev.net.filter (fun x => !mine x) ∧ counted d' m.ctx m.v0 ∧
        ∀ x ∈ s.dev.net, mine x = true → (d'.bench b).tile.readBytes ((bn.ctxN m.ctx).base + x.off) x.v1 = Line.slice x.data 0 x.v1)

/-- Boundaries, switches, starts and kills (R57, R58, R155, R203, R216, R320, R321). -/
def Obligations.BoundariesStartsAndKills : Prop :=
  ∀ (s : State) (b : BenchIx), s.dev.live = true →
    let bn := s.dev.bench b
    let alone (d' : Dev) : Prop := BenchesBut b s.dev d' ∧ d'.hbm = s.dev.hbm ∧ d'.dies = s.dev.dies ∧ d'.slices = s.dev.slices ∧ KeepsQueues s.dev d'
    (s.dev.dieRuns (dieOf b) = true → bn.workDone = true →
      (∀ next pe vp, bn.merge ≠ [] → (∀ e ∈ bn.merge, e.pe = false) → Reaches (.commandBoundary b next ⟨pe, vp⟩) s fun d' => alone d' ∧ (d'.bench b).running = true ∧ (∀ e ∈ (d'.bench b).merge, e.draining = true) ∧
        ∀ e ∈ bn.merge, e.draining = false → ∃ x ∈ d'.net, x.kind = .benchWrite ∧ x.line = e.line ∧ x.data = e.data ∧ x.be = e.be) ∧
      (∀ next pe vp, bn.merge = [] → bn.mortise.region ≠ none → Reaches (.commandBoundary b next ⟨pe, vp⟩) s (Kills b 0x1204 0x20 0 s.dev)) ∧
      (∀ pe vp, bn.merge = [] → bn.mortise.region = none → Reaches (.commandBoundary b none ⟨pe, vp⟩) s fun d' => alone d' ∧ d'.net = s.dev.net ∧ d'.reports = s.dev.reports ∧
        (d'.bench b).running = false ∧ (d'.bench b).ended = false ∧ (d'.bench b).ctx.idle = true ∧ (d'.bench b).ctx.seq = 0 ∧ (d'.bench b).outfeed = [] ∧
        (d'.bench b).l1.cells = [] ∧ (d'.bench b).mortise.s0 = {} ∧ (d'.bench b).mortise.s1 = {} ∧ (d'.bench b).plane.vl = 64 ∧ (d'.bench b).tile = bn.tile ∧
        (d'.bench b).jregs = bn.jregs ∧ (bn.outfeed ≠ [] → d'.regBit .bchStatus [b] 8 = true) ∧ (bn.outfeed = [] → d'.regs = s.dev.regs)) ∧
      (∀ n : Fin 4, bn.merge = [] → bn.mortise.region = none → n.val ≠ bn.runCtx → (bn.ctxN n).valid = true → bn.ctx.save = true →
        (∀ r, Reaches (.commandBoundary b (some n) ⟨none, (some r)⟩) s fun d' => (d'.bench b).switchTo = some n.val ∧
          ((d'.bench b).ctxN bn.runCtx).killed = true ∧ ((d'.bench b).ctxN bn.runCtx).killCause = 0x2301 ∧ (d'.bench b).tile = bn.tile) ∧
        Reaches (.commandBoundary b (some n) ⟨none, none⟩) s fun d' => alone d' ∧ d'.net = s.dev.net ∧
          let o := bn.ctx.saveBase
          (d'.bench b).running = false ∧ (d'.bench b).switchTo = some n.val ∧ ((d'.bench b).ctxN bn.runCtx).savedOut = true ∧
          (∀ r, r < 32 → (d'.bench b).tile.readN (o + 0x14000 + 4 * r) 4 = (bn.jregs.toList.getD r 0).toNat) ∧ (d'.bench b).tile.readN (o + 0x14080) 8 = bn.pc % 2 ^ 64 ∧
          (∀ m, m < 7 → (d'.bench b).tile.readN (o + 0x140A8 + 8 * m) 8 = bn.mreg (m + 1) % 2 ^ 64) ∧
          (bn.plane.vl < 256 → (d'.bench b).tile.readN (o + 0x140E0) 1 = bn.plane.vl) ∧
          (∀ a, a < o ∨ o + 0x18000 ≤ a → (d'.bench b).tile.read a = bn.tile.read a))) ∧
    (∀ n, s.dev.dieRuns (dieOf b) = true → bn.switchTo = some n → Reaches (.contextStart ⟨b, {}⟩) s fun d' => alone d' ∧ d'.net = s.dev.net ∧
      (d'.bench b).running = true ∧ (d'.bench b).runCtx = n ∧ (d'.bench b).switchTo = none ∧ (d'.bench b).tile = bn.tile ∧
      ((d'.bench b).ctxN n).counters = (bn.ctxN n).counters ∧ (d'.bench b).plane.vl = 64 ∧
      ((bn.ctxN n).savedOut = true → (d'.bench b).pc = bn.tile.readN ((bn.ctxN n).saveBase + 0x14080) 8 ∧
        ∀ r, r < 32 → (d'.bench b).jregs.toList.getD r 0 = BitVec.ofNat 32 (bn.tile.readN ((bn.ctxN n).saveBase + 0x14000 + 4 * r) 4))) ∧
    (∀ n x, s.dev.dieRuns (dieOf b) = true → bn.switchTo = some n → (bn.ctxN n).savedOut = true → (bn.ctxN n).saveBase ≤ x.off →
      x.off < (bn.ctxN n).saveBase + 98304 → bn.ownerAt x.off = some (n, bn.ctxN n) → x.e = .double → Reaches (.contextStart ⟨b, x⟩) s fun d' => alone d' ∧
        ((d'.bench b).ctxN n).killed = true ∧ ((d'.bench b).ctxN n).killCause = 0x2102 ∧ ∃ r ∈ d'.reports, r.code = 0x2102 ∧ r.master = benchMaster b) ∧
    (∀ (die : DieIx) (q : QueueIx) pre m rest, s.dev.starts = pre ++ m :: rest → m.die = die.val → m.q = q.val → m.arrived = false →
      (∀ x ∈ pre, ¬(x.die = die.val ∧ x.q = q.val ∧ x.arrived = false)) →
      Completes (.startMessage die q) s { s.dev with starts := pre ++ { m with arrived := true } :: rest }) ∧
    (∀ (q : QueueIx) (l : Launch) pre m rest, s.dev.launch q = some l → s.dev.starts = pre ++ m :: rest → m.die = dieOf b → m.q = q.val → m.arrived = true →
      s.dev.startable m = true → s.dev.startsBefore (dieOf b) m.cycle = false →
      (∀ x ∈ pre, ¬(x.die = dieOf b ∧ x.q = q.val ∧ x.arrived = true)) → s.dev.dieRuns (dieOf b) = true → ∀ die : DieIx, die.val = dieOf b →
      (b.val, bn.runCtx) ∈ s.dev.ctxsOf l.cur → (∀ x ∈ s.dev.ctxsOf l.cur, x.1 = b.val → x.2 = bn.runCtx) → bn.ctx.killed = false → bn.running = false → bn.switchTo = none → ∀ fs,
      Reaches (.benchStart die ⟨q, fs⟩) s fun d' => d'.starts = pre ++ rest ∧ d'.cycle (dieOf b) = m.cycle ∧
        (d'.bench b).running = true ∧ (d'.bench b).pc = bn.ctx.entry ∧ (d'.bench b).jregs.toList.getD 1 0 = BitVec.ofNat 32 l.step ∧ (d'.bench b).ctx.idle = false ∧
        (d'.bench b).tile = bn.tile ∧ (∀ i, dieOf i ≠ dieOf b → d'.bench i = s.dev.bench i) ∧ d'.net = s.dev.net ∧
        (∀ r, r ≠ q.val → d'.queue r = s.dev.queue r) ∧ d'.launch q = some { l with ranBack := l.ranBack || l.onBack }) ∧
    (∀ pre k rest, s.dev.kills = pre ++ k :: rest → k.bench = b.val → (∀ x ∈ pre, x.bench ≠ b.val) →
      (((bn.ctxN k.ctx).valid && !(bn.ctxN k.ctx).idle && !(bn.ctxN k.ctx).killed) = true → Reaches (.killMessage b) s fun d' =>
        ((d'.bench b).ctxN k.ctx).killed = true ∧ ((d'.bench b).ctxN k.ctx).killCause = k.code ∧ (d'.bench b).tile = bn.tile ∧ BenchesBut b s.dev d' ∧ d'.kills = pre ++ rest) ∧
      ((bn.ctxN k.ctx).idle = true → Reaches (.killMessage b) s fun d' => d'.bench b = bn ∧ BenchesBut b s.dev d' ∧ d'.kills = pre ++ rest)) ∧
    (∀ (f : Ecc) (w : W64), JigReady s.dev b f w → majorOf w = 0x21 →
      let slot := s.dev.slots.find? bn.ctx.prog
      let go := BenchBecomes b { bn with pc := bn.pc + 4 } (s.dev.fetchedBy b f)
      ((∀ x, slot = some x → ∀ m, x.marks[fld w 15 6]? = some m → m.reporter ≠ bn.ctx.place) → Reaches (.mark b f) s go) ∧
      (∀ x m, slot = some x → x.marks[fld w 15 6]? = some m → m.reporter = bn.ctx.place → m.kind = 1 → Reaches (.mark b f) s fun d' =>
        d'.phaseMarks = s.dev.phaseMarks ++ [(bn.ctx.prog, m.op)] ∧ d'.bench b = { bn with pc := bn.pc + 4 } ∧ BenchesBut b s.dev d' ∧ d'.queues = s.dev.queues) ∧
      (∀ x m (q : QueueIx) l, slot = some x → x.marks[fld w 15 6]? = some m → m.reporter = bn.ctx.place → m.kind = 2 → q.val ∈ s.dev.queues.keys → s.dev.launch q = some l →
        l.running = true → l.onBack = false → l.prog = bn.ctx.prog → (∃ e ∈ l.marks, e.1 = m.progress) → Reaches (.mark b f) s fun d' =>
          d'.phaseMarks = s.dev.phaseMarks ∧ d'.bench b = { bn with pc := bn.pc + 4 } ∧ ∃ l', d'.launch q = some l' ∧ m.progress ∈ l'.arrived ∧ l'.running = true))

/-- The mortise engine (R65 to R82, R94, R96, R112, R129). -/
def Obligations.MortiseEngine : Prop :=
  ∀ (s : State) (b : BenchIx), s.dev.live = true → s.dev.dieRuns (dieOf b) = true → (s.dev.bench b).running = true →
    let bn := s.dev.bench b
    let m := bn.mortise
    let ctx := bn.ctx
    let kills (c : Instr) (code acc addr : Nat) : Prop := Reaches c s (Kills b code acc addr s.dev)
    let only (d' : Dev) : Prop := d' = { s.dev with
        benches := d'.benches
        regs := d'.regs } ∧ BenchesBut b s.dev d' ∧ (d'.bench b).tile = bn.tile ∧ (d'.bench b).jregs = bn.jregs ∧ (d'.bench b).plane = bn.plane ∧ (d'.bench b).pc = bn.pc
    let quiet (d' : Dev) : Prop := only d' ∧ d'.regs = s.dev.regs
    let idle : Prop := m.head = none ∧ m.region = none
    let seq := (ctx.seq + 1) % 64
    let starts (c : Instr) (sigma : W32) : Prop := Reaches c s fun d' => quiet d' ∧ (d'.bench b).ctx.seq = seq ∧ (d'.bench b).mortise.queue = m.queue ∧
      ∃ h, (d'.bench b).mortise.head = some h ∧ h.seq = seq ∧ h.sigma = sigma ∧ h.tile = 0 ∧ h.block = 0 ∧ h.slice = 0 ∧ h.pass = 0 ∧ h.since = 0
    (∀ (f : Ecc) (w : W64), JigReady s.dev b f w → 0x30 ≤ majorOf w → majorOf w < 0x36 → m.queue.length < 4 → bn.sb.length + (bn.mortisePanels w).length ≤ 64 →
      let quad (q : Nat) : List W32 := [bn.j (4 * q), bn.j (4 * q + 1), bn.j (4 * q + 2), bn.j (4 * q + 3)]
      Reaches (.jigIssueMortise b f) s fun d' => BenchesBut b s.dev d' ∧ (d'.bench b).pc = bn.pc + 8 ∧ (d'.bench b).jregs = bn.jregs ∧ (d'.bench b).tile = bn.tile ∧
        (d'.bench b).sb.length = bn.sb.length + (bn.mortisePanels w).length ∧ d'.net = s.dev.net ∧
        ∃ o, (d'.bench b).mortise.queue = m.queue ++ [o] ∧ o.word = w ∧ (majorOf w = 0x30 → o.quadA = quad (fld w 45 43) ∧ o.quadB = quad (fld w 48 46)) ∧
          (majorOf w = 0x31 → o.quadA = quad (fld w 38 36)) ∧ (majorOf w = 0x32 → o.quadB = quad (fld w 22 20)) ∧ (majorOf w = 0x35 → o.rs = bn.j (fld w 17 13))) ∧
    (∀ o rest, m.queue = o :: rest → idle →
      let w := o.word
      let at' := localAddr (o.quadA.getD 0 0).toNat
      let popped (d' : Dev) : Prop := quiet d' ∧ (d'.bench b).mortise.queue = rest
      (majorOf w = 0x30 →
        let f := foldOp w
        let badFmt : Prop := 10 < f.fa ∨ 10 < f.fb ∨ (f.fa = 10 ↔ f.fb ≠ 10) ∨ 6 ≤ f.out % 8
        let badChain : Prop := ctx.chain = true ∧ (ctx.chainStream = true ∨ f.cont = false ∧ (f.m ≠ ctx.chainM ∨ f.n ≠ ctx.chainN)) ∨ f.cont = true ∧ (32 < f.m ∨ 32 < f.n)
        let bad (p : Panel) (q : List W32) := quadBad ctx.usable p q
        let pa := panelOf f.fa o.quadA f.m f.k
        let pb := panelOf f.fb o.quadB f.n f.k
        (badFmt → kills (.fold b) 0x1201 0x20 at') ∧ (¬badFmt → badChain → kills (.fold b) 0x1202 0x20 at') ∧
        (¬badFmt → ¬badChain → (∀ c x, (bad pa o.quadA = some (c, x) ∨ bad pa o.quadA = none ∧ bad pb o.quadB = some (c, x)) → kills (.fold b) c 0x20 x) ∧
          (bad pa o.quadA = none → bad pb o.quadB = none → starts (.fold b) (sigmaOf ctx f.fa f.sca f.fb f.scb)))) ∧
      (majorOf w = 0x31 →
        let f := streamOp w
        let st := if f.s then m.s1 else m.s0
        let badFmt : Prop := 9 < f.fa ∨ 6 ≤ f.out % 8
        let badChain : Prop := ctx.chain = true ∧ ctx.chainStream = false
        let badStat : Prop := st.valid = false ∨ rateGroup f.fa ≠ rateGroup st.fmt ∨ (f.cont = true ∨ ctx.chain = true) ∧ (32 < f.rows ∨ ctx.chain = true ∧ st.ns ≠ ctx.chainN)
        (badFmt → kills (.stream b) 0x1201 0x20 at') ∧ (¬badFmt → badChain → kills (.stream b) 0x1202 0x20 at') ∧
        (¬badFmt → ¬badChain → badStat → kills (.stream b) 0x1203 0x20 at') ∧
        (¬badFmt → ¬badChain → ¬badStat → quadBad ctx.usable (panelOf f.fa o.quadA f.rows st.ks) o.quadA = none → starts (.stream b) (sigmaOf ctx f.fa f.sca st.fmt st.scb))) ∧
      (majorOf w = 0x33 →
        let fa := fld w 15 12
        let fb := fld w 19 16
        let out := fld w 23 20
        let badFmt : Prop := 10 < fa ∨ 10 < fb ∨ 6 ≤ out % 8
        let next := if ctx.nextSet then m.setB else m.setA
        (m.due.isSome = true → Completes (.gopen b) s s.dev) ∧ (m.due = none → (badFmt → kills (.gopen b) 0x1201 0x20 0) ∧ (¬badFmt → ctx.chain = true → kills (.gopen b) 0x1202 0x20 0) ∧
        (¬badFmt → ctx.chain = false → (fa < 6 ∨ fa = 10 → kills (.gopen b) 0x1204 0x20 0) ∧
          (6 ≤ fa → fa ≠ 10 → rateGroup fb ≠ rateGroup fa → kills (.gopen b) 0x1201 0x20 0) ∧
          (6 ≤ fa → fa ≠ 10 → rateGroup fb = rateGroup fa → (next.phase ≠ .idle → Completes (.gopen b) s s.dev) ∧
            (next.phase = .idle → Reaches (.gopen b) s fun d' =>
              let m' := (d'.bench b).mortise
              popped d' ∧ (d'.bench b).ctx.seq = seq ∧ (d'.bench b).ctx.nextSet = !ctx.nextSet ∧ m'.region = some (fld w 11 6) ∧
                (if ctx.nextSet then m'.setB else m'.setA).phase = .filling ∧ (if ctx.nextSet then m'.setB else m'.setA).data = 0 ∧
                (if ctx.nextSet then m'.setA = m.setA else m'.setB = m.setB)))))) ∧
      (majorOf w = 0x35 →
        (fld w 9 6 = 0 → Reaches (.scset b) s fun d' => popped d' ∧ ∀ k, k < 8 → (d'.bench b).ctx.scale.toList.getD k 0 = if k = fld w 12 10 then o.rs else ctx.scale.toList.getD k 0) ∧
        (fld w 9 6 = 1 → Reaches (.srseed b) s fun d' => popped d' ∧ (d'.bench b).ctx.srSeed = o.rs ∧ (d'.bench b).ctx.srTile = 0) ∧
        (fld w 9 6 = 2 → Reaches (.air b) s fun d' => popped d' ∧ (d'.bench b).mortise.air = fld w 11 10 ∧
          (d'.bench b).mortise.gap = if fld w 11 10 = 1 then none else m.gap))) ∧
    (∀ o rest, m.queue = o :: rest → m.head = none → majorOf o.word = 0x34 → (∀ p ∈ bn.plane.pends, majorOf p.iss.word ≠ 0x3D) → Reaches (.gclose b) s fun d' => quiet d' ∧ (d'.bench b).mortise.queue = rest ∧
      (d'.bench b).mortise.region = none ∧ ∀ k, m.regionSet = some k → (if k then (d'.bench b).mortise.setB else (d'.bench b).mortise.setA).phase = .idle) ∧
    (∀ pre o post, m.queue = pre ++ o :: post → majorOf o.word = 0x32 →
      let w := o.word
      let k := w.getLsbD 6
      let st := if k then m.s1 else m.s0
      let fb := fld w 10 7
      let ns := 4 * (fld w 13 11 + 1)
      let ks := 4 * (fld w 16 14 + 1)
      let at' := localAddr (o.quadB.getD 0 0).toNat
      (∀ x ∈ pre, majorOf x.word ≠ 0x32 ∧ (majorOf x.word = 0x31 → x.word.getLsbD 6 ≠ k)) → st.load = none →
        (9 < fb → kills (.sload b) 0x1201 0x21 at') ∧ (fb ≤ 9 → 16 < ks → fb ≠ 0 → kills (.sload b) 0x1202 0x21 at') ∧
        (fb ≤ 9 → ks ≤ 16 ∨ fb = 0 → quadBad ctx.usable (panelOf fb o.quadB ns ks) o.quadB = none → Reaches (.sload b) s fun d' =>
          let st' := if k then (d'.bench b).mortise.s1 else (d'.bench b).mortise.s0
          quiet d' ∧ (d'.bench b).mortise.queue = pre ++ post ∧ st'.valid = true ∧ st'.ready = false ∧ st'.fmt = fb ∧ st'.ks = ks ∧ st'.ns = ns ∧
            st'.load = some (o.quadB, o.sbs) ∧ (if k then (d'.bench b).mortise.s0 = m.s0 else (d'.bench b).mortise.s1 = m.s1))) ∧
    (∀ (k : Bool) q ids,
      let st := if k then m.s1 else m.s0
      let p := panelOf st.fmt q st.ns st.ks
      st.load = some (q, ids) → (∀ id ∈ ids, bn.sbWaits id = false) → (k = true → m.s0.load = none) → Reaches (.stationaryReady b {}) s fun d' =>
        let st' := if k then (d'.bench b).mortise.s1 else (d'.bench b).mortise.s0
        quiet d' ∧ st'.ready = true ∧ st'.load = none ∧ st'.fmt = st.fmt ∧ (∀ e ∈ (d'.bench b).sb, e.id ∈ ids → e.done = true) ∧
          ∀ c e, c < st.ns → e < st.ks → st'.elems.getD (c * st.ks + e) 0 = elemRaw (fun a => bn.tile.read (ctx.base + a)) st.fmt (p.base + c * p.stride) e) ∧
    (s.dev.cycleAllowed b = false → Completes (.mortiseStep b {} none none) s s.dev) ∧
    (m.queue = [] → s.dev.cycleAllowed b = true →
      let cut (d' : Dev) (n : Nat) : Prop := only d' ∧ (d'.bench b).mortise.gap = m.gap.map (· + 1) ∧
        (d'.reg .mrtAircuts [b]).toNat = min (2 ^ 32 - 1) ((s.dev.reg .mrtAircuts [b]).toNat + n)
      (m.air = 2 → Reaches (.mortiseStep b {} none none) s fun d' => cut d' 1) ∧ (m.air = 1 → Reaches (.mortiseStep b {} none none) s fun d' => cut d' 0) ∧
      (∀ g, m.air = 0 → m.gap = some g → g < s.dev.regFld .mrtAirCfg [b] 5 0 → Reaches (.mortiseStep b {} none none) s fun d' => cut d' 1) ∧
      (∀ g, m.air = 0 → m.gap = some g → s.dev.regFld .mrtAirCfg [b] 5 0 ≤ g → s.dev.regBit .mrtAirCfg [b] 8 = false →
        Reaches (.mortiseStep b {} none none) s fun d' => cut d' 0)) ∧
    (∀ o rest h, m.queue = o :: rest → m.head = some h → s.dev.cycleAllowed b = true → m.due = none → (∀ id ∈ o.sbs, bn.sbWaits id = false) →
      let w := o.word
      let n := headNext o h
      let steps (d' : Dev) : Prop :=
        let m' := (d'.bench b).mortise
        only d' ∧ m'.head = n.head ∧ m'.queue = (if n.head = none then rest else m.queue) ∧ m'.gap = some 0 ∧ m'.setA = m.setA ∧ m'.setB = m.setB ∧
          (m'.due.isSome = n.due) ∧ (∀ x, m'.due = some x → x.sigma = h.sigma ∧ x.seq = h.seq ∧ x.tileDone = n.tileDone ∧ m'.rough = ⟨[]⟩) ∧
          (n.head = none → ∀ e ∈ (d'.bench b).sb, e.id ∈ o.sbs → e.done = true) ∧
          (d'.reg .mrtSteps [b]).toNat = min (2 ^ 32 - 1) ((s.dev.reg .mrtSteps [b]).toNat + 1)
      (majorOf w = 0x30 →
        let f := foldOp w
        let g := pairGroup f.fa f.fb
        let shape := (f.here h).1
        let slices := (f.k + shapeK (kcOf g) shape - 1) / shapeK (kcOf g) shape
        let every := if g = 0 then 8 else 4
        (Reaches (.mortiseStep b {} none none) s steps) ∧ (∀ x, kills (.mortiseStep b {} (some x) none) 0x2202 0x20 x) ∧
        (n.due = true ↔ g = 3 ∨ h.since + 1 = every ∨ slices ≤ h.slice + 1) ∧
        (g ≠ 3 → h.slice + 1 < slices → ∃ h', n.head = some h' ∧ h'.slice = h.slice + 1 ∧ h'.since = (if h.since + 1 = every then 0 else h.since + 1) ∧
          h'.tile = h.tile ∧ h'.block = h.block ∧ h'.seq = h.seq) ∧
        (n.tileDone = true → slices ≤ h.slice + 1)) ∧
      (majorOf w = 0x31 → (if (streamOp w).s then m.s1 else m.s0).ready = true →
        (Reaches (.mortiseStep b {} none none) s steps) ∧ (∀ x, kills (.mortiseStep b {} none (some x)) 0x2201 0x20 x) ∧ n.due = true)) ∧
    (∀ x, m.due = some x →
      let has (k : Bool) : GlueSet := if k then m.setB else m.setA
      let fresh (k : Bool) : Prop := m.tileSet = none ∧ x.tile.chained = false ∧ ctx.nextSet = k ∧ (has k).phase = .idle
      let takes (k : Bool) : Prop := m.tileSet = some k ∨ m.tileSet = none ∧ x.tile.chained = true ∧ (has k).phase = .chained ∧ (k = true → m.setA.phase ≠ .chained) ∨ fresh k
      ((∀ k, ¬takes k) → Completes (.dressing b none) s s.dev) ∧
      ∀ k, takes k →
        (∀ off, kills (.dressing b (some off)) 0x2203 0x22 ((if k then 0x2000 else 0) + off % 0x2000)) ∧
        Reaches (.dressing b none) s fun d' =>
          let m' := (d'.bench b).mortise
          let set' := if k then m'.setB else m'.setA
          only d' ∧ m'.due = none ∧ m'.head = m.head ∧ m'.queue = m.queue ∧ (if k then m'.setA = m.setA else m'.setB = m.setB) ∧
            (fresh k → set'.data = (dressAll 0 x.elems x.sigma.toNat).1) ∧ (¬fresh k → set'.data = (dressAll (has k).data x.elems x.sigma.toNat).1) ∧
            (x.tileDone = true → m'.tileSet = none ∧ set'.phase = if x.tile.cont then .chained else .drain) ∧ (x.tileDone = false → m'.tileSet = some k)) ∧
    (∀ k : Bool,
      let set := if k then m.setB else m.setA
      let other := if k then m.setA else m.setB
      set.phase = .drain → (other.phase = .drain → ctx.nextSet = k) → bn.outfeed.length < 8 →
        (∀ off, kills (.glueUpDrain b (some off)) 0x2203 0x22 ((if k then 0x2000 else 0) + off % 0x2000)) ∧
        Reaches (.glueUpDrain b none) s fun d' => only d' ∧ (if k then (d'.bench b).mortise.setB else (d'.bench b).mortise.setA).phase = .idle ∧
          (if k then (d'.bench b).mortise.setA else (d'.bench b).mortise.setB) = other ∧ (d'.bench b).ctx.srTile = ctx.srTile + 1 ∧
          ∃ t, (d'.bench b).outfeed = bn.outfeed ++ [t] ∧
            t.tag = BitVec.ofNat 32 (set.vrows + set.vcols * 2 ^ 8 + set.seq * 2 ^ 16 + set.out * 2 ^ 24 + if set.last then 2 ^ 31 else 0) ∧
            (set.out % 8 = 0 → ∀ e, e < 1024 → laneN t.data 64 e = if e / 32 < set.vrows ∧ e % 32 < set.vcols then laneN set.data 64 e else 0)) ∧
    ∀ (slot : Fin 8) (f : Ecc) (i : Issue) (d1 : Dev), PlaneReady s.dev b (.group slot) f i d1 → majorOf i.word = 0x3D → fld i.word 11 6 = 0x10 →
      bn.pendNext (some slot) (isTctl 0x10) = none →
      let w := i.word
      let off := laneN ((d1.bench b).vreg (32 * slot + fld w 21 17)) 32 0
      let stride := (if isPlain8 (m.regionFmt % 16) then 16 else 8) * elemBits (m.regionFmt / 16 % 16) / 8
      let last := m.gmmaBase off + 16 * stride - 1
      let stops (code : Nat) : Prop := ∀ pe, Reaches (.gmma b slot f {} ⟨pe, none⟩) s (Kills b code 0x20 (localAddr off) d1)
      (m.region ≠ some i.num → stops 0x1204) ∧ (m.region = some i.num → i.mask ≠ 2 ^ 64 - 1 → stops 0x1205) ∧
      (m.region = some i.num → i.mask = 2 ^ 64 - 1 → 2 ^ 20 ≤ off → stops 0x1102) ∧
      (m.region = some i.num → i.mask = 2 ^ 64 - 1 → off < 2 ^ 20 → ctx.usable ≤ last → stops 0x1101) ∧
      (m.region = some i.num → i.mask = 2 ^ 64 - 1 → off < 2 ^ 20 → last < ctx.usable → bn.sb = [] → bn.plane.pends = [] →
        (s.dev.cycleAllowed b = false → ∀ pe, Reaches (.gmma b slot f {} ⟨pe, none⟩) s fun d' => d'.net = s.dev.net ∧ BenchesBut b s.dev d' ∧
          (d'.bench b).mortise = m ∧ ∃ p, (d'.bench b).plane.pends = [p] ∧ p.iss = i) ∧
        ∀ k, s.dev.cycleAllowed b = true → m.regionSet = some k →
        (∀ off', Reaches (.gmma b slot f {} ⟨(some off'), none⟩) s (Kills b 0x2203 0x22 ((if k then 0x2000 else 0) + off' % 0x2000) d1)) ∧
        Reaches (.gmma b slot f {} ⟨none, none⟩) s fun d' =>
          let m' := (d'.bench b).mortise
          d'.net = s.dev.net ∧ BenchesBut b s.dev d' ∧ (d'.bench b).tile = bn.tile ∧ (d'.bench b).plane.vregs = bn.plane.vregs ∧ m'.region = m.region ∧
            (d'.bench b).plane.pends = [] ∧ m'.gap = some 0 ∧
            (d'.reg .mrtSteps [b]).toNat = min (2 ^ 32 - 1) ((s.dev.reg .mrtSteps [b]).toNat + if isPlain8 (m.regionFmt % 16) then 2 else 1) ∧
            (if k then m'.setB else m'.setA).phase = (if w.getLsbD 29 then .drain else .filling) ∧ (if k then m'.setA = m.setA else m'.setB = m.setB) ∧
            m'.regionSet = (if w.getLsbD 29 then none else some k) ∧
            ∀ e, e < 1024 → e / 512 ≠ fld w 28 27 / 2 ∨ e % 32 / 16 ≠ fld w 28 27 % 2 →
              laneN (if k then m'.setB else m'.setA).data 64 e = laneN (if k then m.setB else m.setA).data 64 e)

/-- Element-wise instructions (R118, R119, R121, R188, R189). -/
def Obligations.ElementWise : Prop :=
  ∀ (s : State) (b : BenchIx) (src : PlaneSrc) (f : Ecc) (i : Issue) (d1 : Dev), s.dev.live = true → PlaneReady s.dev b src f i d1 → majorOf i.word = 0x38 →
    let w := i.word
    let bn := d1.bench b
    let fn := pFn w
    let ty := pTy w
    let es := esBits (pEs w)
    let x (e : Nat) : Nat := laneN (i.src bn (pVa w)) es (if pBcA w then 0 else e)
    let y (e : Nat) : Nat := laneN (i.src bn (pVb w)) es (if pBcB w then 0 else e)
    let z (e : Nat) : Nat := laneN (i.src bn (pVc w)) es (if pBcC w then 0 else e)
    let m (v : Int) : Nat := (v % 2 ^ es).toNat
    let a (e : Nat) : Int := intElem ty es (x e)
    let c (e : Nat) : Int := intElem ty es (y e)
    let fm := tyFmt ty
    let sticks (d' : Dev) : Prop := ∀ k, d1.regBit .plnFlags [b] k = true → d'.regBit .plnFlags [b] k = true
    let gives (cmd : Instr) (val : Nat → Nat) : Prop := Reaches cmd s fun d' => LaneWise b i (i.vnum (pVd w)) es val d1 d' ∧ PlaneRetired b i d1 d' ∧ sticks d'
    let masks (cmd : Instr) (bit : Nat → Bool) : Prop := Reaches cmd s fun d' => PlaneRetired b i d1 d' ∧ (∀ r, (d'.bench b).vreg r = bn.vreg r) ∧
      (∀ k, k ≠ pVd w % 8 → (d'.bench b).mreg k = bn.mreg k) ∧ (pVd w % 8 ≠ 0 → ∀ l, l < 64 → ((d'.bench b).mreg (pVd w % 8)).testBit l = bit l)
    (ty < 2 → (fn = 0 → gives (.vopArith b src f none) fun e => m (a e + c e)) ∧ (fn = 1 → gives (.vopArith b src f none) fun e => m (a e - c e)) ∧
      (fn = 2 → gives (.vopArith b src f none) fun e => m (a e * c e)) ∧ (fn = 3 → gives (.vopArith b src f none) fun e => m (min (a e) (c e))) ∧
      (fn = 4 → gives (.vopArith b src f none) fun e => m (max (a e) (c e)))) ∧
    (2 ≤ ty → (fn = 0 → gives (.vopArith b src f none) fun e => (fm.enc ((fm.dec (x e)).add (fm.dec (y e)))).1) ∧
      (fn = 1 → gives (.vopArith b src f none) fun e => (fm.enc ((fm.dec (x e)).add (fm.dec (y e)).neg)).1) ∧
      (fn = 2 → gives (.vopArith b src f none) fun e => (fm.enc ((fm.dec (x e)).mul (fm.dec (y e)))).1) ∧
      (fn = 3 → gives (.vopArith b src f none) fun e => fm.minMax false (x e) (y e)) ∧ (fn = 4 → gives (.vopArith b src f none) fun e => fm.minMax true (x e) (y e)) ∧
      (fn = 5 → gives (.vopArith b src f none) fun e => x e % 2 ^ (es - 1)) ∧ (fn = 6 → gives (.vopArith b src f none) fun e => x e ^^^ 2 ^ (es - 1)) ∧
      (fn = 8 → gives (.fma b src f none) fun e => (fm.enc (((fm.dec (x e)).mul (fm.dec (y e))).add (fm.dec (z e)))).1) ∧
      (fn = 9 → gives (.fma b src f none) fun e => (fm.enc (((fm.dec (x e)).mul (fm.dec (y e))).add (fm.dec (z e)).neg)).1) ∧
      (fn = 10 → gives (.fma b src f none) fun e => (fm.enc (((fm.dec (x e)).mul (fm.dec (y e))).neg.add (fm.dec (z e)))).1)) ∧
    (fn = 0x10 → gives (.rcpRsqSqrtExp2Log2 b src f none) fun e => (fp32.enc (fp32.dec (x e)).rcp).1) ∧
    (fn = 0x11 → gives (.rcpRsqSqrtExp2Log2 b src f none) fun e => (fp32.enc (fp32.dec (x e)).rsq).1) ∧
    (fn = 0x12 → gives (.rcpRsqSqrtExp2Log2 b src f none) fun e => (fp32.enc (fp32.dec (x e)).sqrt).1) ∧
    (fn = 0x13 → gives (.rcpRsqSqrtExp2Log2 b src f none) fun e => (fp32.enc (fp32.dec (x e)).exp2).1) ∧
    (fn = 0x14 → gives (.rcpRsqSqrtExp2Log2 b src f none) fun e => (fp32.enc (fp32.dec (x e)).log2).1) ∧
    (fn = 0x18 → gives (.mulh b src f none) fun e => m (a e * c e / 2 ^ es)) ∧
    (fn = 0x19 → gives (.shlShr b src f none) fun e => x e * 2 ^ (y e % es) % 2 ^ es) ∧
    (fn = 0x1A → gives (.shlShr b src f none) fun e => m (a e / 2 ^ (y e % es))) ∧
    (fn = 0x1B → gives (.andOrXor b src f none) fun e => x e &&& y e) ∧ (fn = 0x1C → gives (.andOrXor b src f none) fun e => x e ||| y e) ∧
    (fn = 0x1D → gives (.andOrXor b src f none) fun e => x e ^^^ y e) ∧
    (fn = 0x20 →
      let sty := pVc w % 8
      let ses := esBits (pVc w / 8 % 4)
      let v (e : Nat) : Nat := laneN (i.src bn (pVa w)) ses (if pBcA w then 0 else e)
      let lo : Int := if ty = 0 then -2 ^ (es - 1) else 0
      let hi : Int := if ty = 0 then 2 ^ (es - 1) - 1 else 2 ^ es - 1
      let here (e : Nat) : Bool := decide (e < i.vl * (32 / ses))
      (ty < 2 → sty < 2 → gives (.cvt b src f none) fun e => if here e then m (max lo (min hi (intElem sty ses (v e)))) else 0) ∧
      (ty < 2 → 2 ≤ sty → gives (.cvt b src f none) fun e => if here e then (toInt ty es ((tyFmt sty).dec (v e))).1 else 0) ∧
      (2 ≤ ty → ty ≤ 4 → sty < 2 → gives (.cvt b src f none) fun e => if here e then (fm.enc (Fv.ofInt (intElem sty ses (v e)) 0 false)).1 else 0) ∧
      (2 ≤ ty → ty ≤ 4 → 2 ≤ sty → gives (.cvt b src f none) fun e => if here e then (fm.enc ((tyFmt sty).dec (v e))).1 else 0) ∧
      (5 ≤ ty → sty < 2 → gives (.cvt b src f none) fun e => if here e then (toFloat fm (Fv.ofInt (intElem sty ses (v e)) 0 false) (.fin false 0 0)).1 else 0) ∧
      (5 ≤ ty → 2 ≤ sty → gives (.cvt b src f none) fun e => if here e then (toFloat fm ((tyFmt sty).dec (v e)) ((tyFmt sty).dec (v e))).1 else 0)) ∧
    (0x28 ≤ fn → fn ≤ 0x2D → ∀ holds : Nat → Bool,
      (∀ l, l < 64 →
        let e := l * (32 / es)
        let o : Option Ordering := if ty < 2 then some (compare (a e) (c e)) else (fm.dec (x e)).cmp (fm.dec (y e))
        (holds l = true ↔ (fn = 0x28 ∧ o = some .eq) ∨ (fn = 0x29 ∧ o ≠ some .eq) ∨ (fn = 0x2A ∧ o = some .lt) ∨ (fn = 0x2B ∧ (o = some .lt ∨ o = some .eq)) ∨
          (fn = 0x2C ∧ o = some .gt) ∨ (fn = 0x2D ∧ (o = some .gt ∨ o = some .eq)))) →
      masks (.cmp b src f none) fun l => if i.writes l then holds l else decide (l < i.vl) && !i.zm && (bn.mreg (pVd w % 8)).testBit l) ∧
    (fn = 0x30 → gives (.sel b src f none) fun e => if (bn.mreg (pVc w % 8)).testBit (e / (32 / es)) then x e else y e) ∧
    (∀ bit : Nat → Bool, (∀ l, bit l =
        let p := (bn.mreg (pVa w % 8)).testBit l
        let q := (bn.mreg (pVb w % 8)).testBit l
        if fn = 0x38 then p && q else if fn = 0x39 then p || q else if fn = 0x3A then p != q else if fn = 0x3B then p && !q else !p) →
      0x38 ≤ fn → fn ≤ 0x3C → masks (.maskLogic b src f none) bit)

/-- Permutes, packs, compress and expand, summaries (R122 to R125, R127). -/
def Obligations.MovesAndSummaries : Prop :=
  ∀ (s : State) (b : BenchIx) (src : PlaneSrc) (f : Ecc) (i : Issue) (d1 : Dev), s.dev.live = true → PlaneReady s.dev b src f i d1 →
    let w := i.word
    let bn := d1.bench b
    let fn := pFn w
    let ty := pTy w
    let es := esBits (pEs w)
    let ve := i.vl * (32 / es)
    let im := pVc w
    let at' (n : Nat) (bc : Bool) (k : Nat) : Nat := laneN (i.src bn n) es (if bc then 0 else k)
    let x := at' (pVa w) (pBcA w)
    let y := at' (pVb w) (pBcB w)
    let a (k : Nat) : Nat := if ve ≤ k then 0 else x k
    let c (k : Nat) : Nat := if ve ≤ k then 0 else y k
    let h := (ve + 1) / 2
    let writes (cmd : Instr) (sz : Nat) (val : Nat → Nat) : Prop := Reaches cmd s fun d' => LaneWise b i (i.vnum (pVd w)) sz val d1 d' ∧ PlaneRetired b i d1 d'
    let jd (k : Nat) (v : W32) (d' : Dev) : Prop := ∀ r, r < 32 → (d'.bench b).j r = if r = k ∧ r ≠ 0 then v else bn.j r
    (majorOf w = 0x39 →
      (fn = 0 → writes (.perm b src f none) es (fun e => a (y e)) ∧ Reaches (.perm b src f none) s fun d' =>
        (d'.regBit .plnFlags [b] 0 = true ↔ d1.regBit .plnFlags [b] 0 = true ∨ ∃ e, e < 64 * (32 / es) ∧ i.writes (e / (32 / es)) = true ∧ ve ≤ y e)) ∧
      (fn = 1 → writes (.perm2 b src f none) es fun e =>
        let k := at' (pVc w) (pBcC w) e
        if k < ve then x k else c (k - ve)) ∧
      (fn = 2 → writes (.rot b src f none) es fun e => x ((e + im) % ve)) ∧
      (fn = 3 → writes (.rev b src f none) es fun e => x (ve - 1 - e)) ∧
      (fn = 4 → writes (.xswap b src f none) es fun e => a (e ^^^ im)) ∧
      (fn = 5 → writes (.bcast b src f none) es fun _ => a im) ∧
      (fn = 6 → writes (.zipUnzip b src f none) es fun e => if e % 2 = 0 then a (e / 2) else c (e / 2)) ∧
      (fn = 7 → writes (.zipUnzip b src f none) es fun e => if e % 2 = 0 then a (e / 2 + h) else c (e / 2 + h)) ∧
      (fn = 8 → writes (.zipUnzip b src f none) es fun e => if e < h then a (2 * e) else c (2 * (e - h))) ∧
      (fn = 9 → writes (.zipUnzip b src f none) es fun e => if e < h then a (2 * e + 1) else c (2 * (e - h) + 1)) ∧
      (fn = 0x10 → es ≠ 8 →
        let v (e : Nat) : Nat := if e < ve then x e else y (e - ve)
        let t : Int := 2 ^ (es / 2)
        (im = 0 → writes (.pack b src f none) (es / 2) fun e => v e % 2 ^ (es / 2)) ∧
        (im = 1 → writes (.pack b src f none) (es / 2) fun e => (max (-(t / 2)) (min (t / 2 - 1) (intElem ty es (v e))) % t).toNat) ∧
        (im = 2 → writes (.pack b src f none) (es / 2) fun e => (max 0 (min (t - 1) (intElem ty es (v e)))).toNat) ∧
        (3 ≤ im → writes (.pack b src f none) (es / 2) fun e => (packElem im ty es (v e)).1)) ∧
      (fn = 0x11 ∨ fn = 0x12 → es ≠ 32 →
        let o := if fn = 0x11 then 0 else i.vl * (32 / (2 * es))
        (im = 0 → writes (.unpk b src f none) (2 * es) fun e => ((BitVec.ofNat es (x (e + o))).toInt % 2 ^ (2 * es)).toNat) ∧
        (im = 1 → writes (.unpk b src f none) (2 * es) fun e => x (e + o)) ∧
        (2 ≤ im → writes (.unpk b src f none) (2 * es) fun e => unpkElem im ty es (x (e + o))))) ∧
    (majorOf w = 0x3B →
      let cap := fld w 63 48 + 1
      let sel := (List.range 64).filter fun l => decide (l < i.vl) && (bn.mreg (fld w 45 43)).testBit l
      let k := min sel.length cap
      let vd := fld w 15 8
      let ends (d' : Dev) : Prop := PlaneRetired b i d1 d' ∧ jd (fld w 28 24) (BitVec.ofNat 32 (sel.length - k)) d' ∧ (∀ r, r ≠ vd → (d'.bench b).vreg r = bn.vreg r) ∧
        (∀ m, (d'.bench b).mreg m = bn.mreg m) ∧ (d'.regBit .plnFlags [b] 1 = true ↔ d1.regBit .plnFlags [b] 1 = true ∨ k < sel.length)
      (fld w 7 6 = 0 → Reaches (.compress b src f none) s fun d' => ends d' ∧ ∀ l, l < 64 → laneN ((d'.bench b).vreg vd) 32 l =
        if l < k then laneN (bn.vreg (fld w 23 16)) 32 (sel.getD l 0) else if l < cap then 0 else laneN (bn.vreg vd) 32 l) ∧
      (fld w 7 6 = 1 → Reaches (.expand b src f none) s fun d' => ends d' ∧
        (∀ q, q < sel.length → laneN ((d'.bench b).vreg vd) 32 (sel.getD q 0) = if q < cap then laneN (bn.vreg (fld w 23 16)) 32 q else 0) ∧
        ∀ l, l < 64 → l ∉ sel → laneN ((d'.bench b).vreg vd) 32 l = if l < i.vl ∧ i.zm = true then 0 else laneN (bn.vreg vd) 32 l)) ∧
    (majorOf w = 0x3C → 8 ≤ fld w 11 6 → fld w 11 6 ≤ 0x11 →
      let op := fld w 11 6
      let lanes := (List.range 64).filter i.writes
      let bit (l : Nat) : Bool := (bn.mreg (fld w 27 20 % 8)).testBit l
      let v (l : Nat) : BitVec 32 := BitVec.ofNat 32 (laneN (bn.vreg (fld w 27 20)) 32 l)
      ∃ r : W32, (Reaches (.sum b src f none) s fun d' => PlaneRetired b i d1 d' ∧ jd (fld w 32 28) r d' ∧ (∀ n, (d'.bench b).vreg n = bn.vreg n)) ∧
        (op = 8 → r = if ∃ l ∈ lanes, bit l = true then 1 else 0) ∧ (op = 9 → r = if ∀ l ∈ lanes, bit l = true then 1 else 0) ∧
        (op = 0xA → r = BitVec.ofNat 32 (lanes.filter bit).length) ∧ (op = 0xB → r = BitVec.ofNat 32 ((lanes.find? bit).getD 64)) ∧
        (op = 0xC → r.toInt = lanes.foldl (fun m l => min m (v l).toInt) (2 ^ 31 - 1)) ∧ (op = 0xD → r.toNat = lanes.foldl (fun m l => min m (v l).toNat) (2 ^ 32 - 1)) ∧
        (op = 0xF → r.toInt = lanes.foldl (fun m l => max m (v l).toInt) (-2 ^ 31)) ∧ (op = 0x10 → r.toNat = lanes.foldl (fun m l => max m (v l).toNat) 0) ∧
        (op = 0xE → lanes = [] → r = 0x7F800000) ∧ (op = 0x11 → lanes = [] → r = 0xFF800000) ∧
        (op = 0xE → lanes ≠ [] → r.toNat = lanes.foldl (fun m l => fp32.minMax false m (v l).toNat) 0x7F800000) ∧
        (op = 0x11 → lanes ≠ [] → r.toNat = lanes.foldl (fun m l => fp32.minMax true m (v l).toNat) 0xFF800000))

/-- Handing over to the plane queue, control, and the outfeed (R116, R117, R121, R128 to R130, R193). -/
def Obligations.PlaneControlAndOutfeed : Prop :=
  ∀ (s : State) (b : BenchIx), s.dev.live = true →
    (∀ (f : Ecc) (w : W64), JigReady s.dev b f w → 0x38 ≤ majorOf w → (s.dev.bench b).plane.queue.length < 8 →
      let bn := s.dev.bench b
      let pair (r : Nat) : Nat := (bn.j r).toNat + (bn.j (r + 1)).toNat % 65536 * 2 ^ 32
      ∃ p : POp, p.word = w ∧ (majorOf w = 0x3A → p.base = pair (fld w 26 22) ∧ p.stride = bn.j (fld w 31 27)) ∧
        (majorOf w = 0x3B → 2 ≤ fld w 7 6 → p.base = pair (fld w 38 34) ∧ p.fill = bn.j (fld w 33 29)) ∧
        (majorOf w = 0x3C → p.value = bn.j (fld w 37 33)) ∧
        Reaches (.planeQueueIssue b f) s (BenchBecomes b { bn with
          pc := bn.pc + 8
          plane := { bn.plane with
            queue := bn.plane.queue ++ [p]
            headAt := if bn.plane.queue = [] then s.dev.cycle (dieOf b) else bn.plane.headAt } } (s.dev.fetchedBy b f))) ∧
    (∀ (f : Ecc) (p : POp) rest, (s.dev.bench b).plane.queue = p :: rest →
      let bn := s.dev.bench b
      let fn := fld p.word 11 6
      majorOf p.word = 0x3C → (fn = 0x18 ∨ fn = 0x19) ∧ bn.outfeed.length ≤ fld p.word 44 42 ∨ fn = 0x1A ∧ bn.outfeed = [] →
        Completes (.ofrd b .jig f none) s s.dev ∧ Completes (.oftag b .jig f) s s.dev ∧ Completes (.ofpop b .jig f) s s.dev ∧
        s.dev.outfeedDue b = bn.plane.headAt + (if s.dev.reg .bchWaitWdog [b] = 0 then (RegName.bchWaitWdog.reset).toNat else (s.dev.reg .bchWaitWdog [b]).toNat) ∧
        ∀ d1, ComesAt (dieOf b) (fun d => some (d.outfeedDue b)) s.dev d1 → d1.bench b = bn → bn.running = true → d1.dieRuns (dieOf b) = true →
          Reaches (.outfeedWaitTimeout b) s (Kills b 0x1302 0x35 0 d1)) ∧
    (∀ (f : Ecc) (i : Issue) (d1 : Dev), PlaneReady s.dev b .jig f i d1 → majorOf i.word = 0x3C →
      let w := i.word
      let bn := d1.bench b
      let fn := fld w 11 6
      let dep := fld w 44 42
      let jd (v : W32) (d' : Dev) : Prop := ∀ r, r < 32 → (d'.bench b).j r = if r = fld w 32 28 ∧ r ≠ 0 then v else bn.j r
      let others (n : Nat) (d' : Dev) : Prop := (∀ r, r ≠ n → (d'.bench b).vreg r = bn.vreg r) ∧ (d'.bench b).jregs = bn.jregs
      let flags (d' : Dev) : Prop := d'.reg .plnFlags [b] = d1.reg .plnFlags [b]
      let keeps (d' : Dev) : Prop := PlaneRetired b i d1 d' ∧ (d'.bench b).plane.masks = bn.plane.masks
      let outs (d' : Dev) : Prop := (d'.bench b).outfeed = bn.outfeed
      (fn = 0 →
        (i.pop.value = 0 → Reaches (.setvl b .jig f) s (Kills b 0x1301 0x00 0 d1)) ∧
        (i.pop.value ≠ 0 → Reaches (.setvl b .jig f) s fun d' => keeps d' ∧ flags d' ∧ outs d' ∧ (d'.bench b).plane.vregs = bn.plane.vregs ∧
          (d'.bench b).plane.vl = min i.pop.value.toNat 64 ∧ jd (BitVec.ofNat 32 (min i.pop.value.toNat 64)) d')) ∧
      (fn = 1 → Reaches (.mvjp b .jig f none) s fun d' => keeps d' ∧ flags d' ∧ outs d' ∧ others (fld w 19 12) d' ∧ (d'.bench b).plane.vl = bn.plane.vl ∧
        ∀ l, l < 64 → laneN ((d'.bench b).vreg (fld w 19 12)) 32 l = if l = 0 then i.pop.value.toNat else laneN (bn.vreg (fld w 19 12)) 32 l) ∧
      (fn = 2 → Reaches (.pflags b .jig f) s fun d' => keeps d' ∧ outs d' ∧ (d'.bench b).plane.vregs = bn.plane.vregs ∧ (d'.bench b).plane.vl = bn.plane.vl ∧
        d'.reg .plnFlags [b] = 0 ∧ jd (d1.reg .plnFlags [b]) d') ∧
      (∀ t : OutTile, bn.outfeed[dep]? = some t →
        (fn = 0x18 →
          let past := decide (4 * outBytes (fld t.tag 27 24) ≤ fld w 49 45)
          (Reaches (.ofrd b .jig f none) s fun d' => keeps d' ∧ outs d' ∧ others (fld w 19 12) d' ∧
            (d'.regBit .plnFlags [b] 0 = true ↔ d1.regBit .plnFlags [b] 0 = true ∨ past = true) ∧
            ∀ l, l < 64 → laneN ((d'.bench b).vreg (fld w 19 12)) 32 l = if past then 0 else laneN t.data 32 (64 * fld w 49 45 + l)) ∧
          ∀ x : Fin 8192, Reaches (.ofrd b .jig f (some x)) s (Kills b 0x2302 0x35 (0x2000 * dep + x) d1)) ∧
        (fn = 0x19 → Reaches (.oftag b .jig f) s fun d' => keeps d' ∧ flags d' ∧ outs d' ∧ (d'.bench b).plane.vregs = bn.plane.vregs ∧ jd t.tag d')) ∧
      (fn = 0x1A → bn.outfeed ≠ [] → Reaches (.ofpop b .jig f) s fun d' => keeps d' ∧ flags d' ∧ (d'.bench b).outfeed = bn.outfeed.drop 1 ∧
        (d'.bench b).plane.vregs = bn.plane.vregs ∧ (d'.bench b).jregs = bn.jregs))

/-- Memory accesses of the plane engine (R120, R127, R144, R145, R191, R196). Where threads store to one place, the higher thread's value
stays, the base of a CSTORE or XLOAD is taken at a multiple of 4, and F + k is what a register named by JD and JF holds: choices of the model
(logs 18 and 73). -/
def Obligations.PlaneMemory : Prop :=
  ∀ (s : State) (b : BenchIx) (src : PlaneSrc) (f : Ecc) (i : Issue) (d1 : Dev), s.dev.live = true → PlaneReady s.dev b src f i d1 → (d1.bench b).plane.pends = [] →
    let w := i.word
    let bn := d1.bench b
    let ctx := bn.ctx
    let fine (a : Nat) : Prop := match classify a with
      | .bad => False
      | .store o => o < ctx.usable
      | .device _ => True
    let elems (xs : List Nat) (ad : Nat → Nat) : List MemElem := xs.map fun x => ⟨x, ad x, []⟩
    let faults (c : Instr) (acc : Nat) (xs : List Nat) (ad : Nat → Nat) : Prop := ∀ pre x post, xs = pre ++ x :: post → (∀ y ∈ pre, fine (ad y)) →
      (classify (ad x) = .bad → Reaches c s (Kills b 0x1102 acc (ad x) d1)) ∧
      ∀ o, classify (ad x) = .store o → ctx.usable ≤ o → Reaches c s (Kills b 0x1101 acc (ad x) d1)
    let got (n a : Nat) : Nat := match classify a with
      | .store o => leNat (bn.tile.readBytes (ctx.base + o) n)
      | .device p => match bn.l1Find (p / 128) with
        | some k => leNat (bn.tile.readBytes (bn.l1Off k + p % 128) n)
        | none => 0
      | .bad => 0
    let loads (c : Instr) (acc : Nat) (xs : List Nat) (ad : Nat → Nat) (rs : List SbRange) (writes : Dev → Prop) : Prop := faults c acc xs ad ∧
      (xs = [] → Reaches c s fun d' => PlaneMoved b i d1 d' ∧ (d'.bench b).tile = bn.tile ∧ d'.net = d1.net ∧ writes d') ∧
      (xs ≠ [] → (∀ x ∈ xs, fine (ad x)) → AccessFree d1 b rs →
        ((∀ x ∈ xs, ∀ p, classify (ad x) = .device p → ∃ q, bn.l1Find (p / 128) = some q ∧ (bn.l1.getD q ⟨0, none⟩).poison = none) →
          Reaches c s fun d' => PlaneMoved b i d1 d' ∧ (d'.bench b).tile = bn.tile ∧ d'.net = d1.net ∧ writes d') ∧
        ((∃ x ∈ xs, ∃ p, classify (ad x) = .device p) →
          (∀ x ∈ xs, ∀ p, classify (ad x) = .device p → bn.l1Find (p / 128) = none ∧ ∀ e ∈ bn.infeed, e.line ≠ p / 128) →
          Reaches c s fun d' => (∃ p, (d'.bench b).plane.pends = [p] ∧ p.iss = i ∧ p.wait = .line) ∧ (d'.bench b).plane.vregs = bn.plane.vregs ∧
            (d'.bench b).tile = bn.tile ∧ (d'.reg .plnIssued [b]).toNat = min (2 ^ 32 - 1) ((d1.reg .plnIssued [b]).toNat + 1) ∧
            (src = .jig → (d'.bench b).plane.queue = bn.plane.queue.drop 1) ∧
            ∃ x ∈ (d'.bench b).fills, x.plane = true ∧ ∃ y ∈ xs, ∃ p, classify (ad y) = .device p ∧ x.line = p / 128))
    let stores (c : Instr) (acc n : Nat) (xs : List Nat) (ad : Nat → Nat) (rs : List SbRange) (val : Nat → Nat) : Prop := faults c acc xs ad ∧
      (xs = [] → Reaches c s fun d' => PlaneMoved b i d1 d' ∧ (d'.bench b).tile = bn.tile ∧ d'.net = d1.net) ∧
      (xs ≠ [] → (∀ x ∈ xs, fine (ad x)) → AccessFree d1 b rs → bn.merge.length + xs.length ≤ 16 →
        Reaches c s fun d' => PlaneMoved b i d1 d' ∧ (d'.bench b).plane.vregs = bn.plane.vregs ∧ (d'.bench b).jregs = bn.jregs ∧
          ((∀ x ∈ xs, ∀ p, classify (ad x) = .device p → bn.l1Find (p / 128) = none) →
            (∀ x ∈ xs, ∀ o, classify (ad x) = .store o → (∀ y ∈ xs, x < y → ad y ≠ ad x) → (d'.bench b).tile.readBytes (ctx.base + o) n = leBytes (val x) n) ∧
            ∀ a, (∀ x ∈ xs, ∀ o, classify (ad x) = .store o → a < ctx.base + o ∨ ctx.base + o + n ≤ a) → (d'.bench b).tile.read a = bn.tile.read a) ∧
          ∀ x ∈ xs, ∀ p, classify (ad x) = .device p → (∀ y ∈ xs, x < y → ad y ≠ ad x) →
            (∃ e ∈ (d'.bench b).merge, e.line = p / 128 ∧ ∀ j, j < n → e.be.getLsbD (p % 128 + j) = true ∧ e.data.byte (p % 128 + j) = (leBytes (val x) n).getD j 0) ∧
            ∀ q, (∀ y ∈ xs, ∃ p', classify (ad y) = .device p') → bn.l1Find (p / 128) = some q →
              (d'.bench b).tile.readBytes (bn.l1Off q + p % 128) n = leBytes (val x) n)
    (majorOf w = 0x3A →
      let es := esBits (fld w 37 36)
      let n := es / 8
      let xs := (List.range (64 * (32 / es))).filter fun e => i.writes (e / (32 / es))
      let straight (e : Nat) : Nat := (((i.pop.base : Int) + i.pop.stride.toInt * e) % 2 ^ 48).toNat / n * n
      let indexed (e : Nat) : Nat := (i.pop.base + laneN (bn.vreg (fld w 21 14 + e / 64)) 32 (e % 64) * n) % 2 ^ 48 / n * n
      let vd := fld w 13 6
      (fld w 41 38 = 0 → loads (.vld b {} none none) 0x30 xs straight (memRanges (elems xs straight) n false) (LaneWise b i vd es (fun e => got n (straight e)) d1)) ∧
      (fld w 41 38 = 1 → stores (.vst b {} none none false) 0x31 n xs straight (memRanges (elems xs straight) n true) (laneN (bn.vreg vd) es)) ∧
      (fld w 41 38 = 2 → loads (.vldx b {} none none) 0x32 xs indexed [i.indexedRange bn es false] (LaneWise b i vd es (fun e => got n (indexed e)) d1)) ∧
      (fld w 41 38 = 3 → stores (.vstx b {} none none false) 0x33 n xs indexed [i.indexedRange bn es true] (laneN (bn.vreg vd) es)) ∧
      (fld w 41 38 = 4 →
        (classify i.pop.base = .bad → Reaches (.vpf b) s (Kills b 0x1102 0x30 i.pop.base d1)) ∧
        (∀ o, classify i.pop.base = .store o → Reaches (.vpf b) s fun d' => PlaneMoved b i d1 d' ∧ d'.net = d1.net ∧ (d'.bench b).infeed = bn.infeed) ∧
        ∀ p, classify i.pop.base = .device p → AccessFree d1 b [{ dev := true, first := p, last := p, wr := false, l1 := false }] →
          bn.l1Find (p / 128) = none → (∀ e ∈ bn.infeed, e.line ≠ p / 128) → (∀ x ∈ bn.fills, x.line ≠ p / 128) → (∀ x ∈ bn.merge, x.line ≠ p / 128) →
          bn.infeed.length < 8 → Reaches (.vpf b) s fun d' => PlaneMoved b i d1 d' ∧ (d'.bench b).tile = bn.tile ∧
            (∃ e, (d'.bench b).infeed = bn.infeed ++ [e] ∧ e.line = p / 128 ∧ e.held = false) ∧
            ∃ q, d'.net = d1.net ++ [q] ∧ q.kind = .benchRead ∧ q.src = .bench b ∧ q.dst = .bay (bayOf b) ∧ q.line = p / 128)) ∧
    (majorOf w = 0x3B →
      let sel := (List.range 64).filter fun l => decide (l < i.vl) && (bn.mreg (fld w 45 43)).testBit l
      let cap := fld w 63 48 + 1
      let fill := i.pop.fill.toNat
      let k := min sel.length (cap - fill)
      let ends (d' : Dev) : Prop := PlaneMoved b i d1 d' ∧ d'.net = d1.net ∧
        (d'.regBit .plnFlags [b] 1 = true ↔ d1.regBit .plnFlags [b] 1 = true ∨ k < sel.length) ∧
        ∀ r, r < 32 → (d'.bench b).j r = if r = 0 then 0 else if r = fld w 33 29 then BitVec.ofNat 32 (fill + k)
          else if r = fld w 28 24 then BitVec.ofNat 32 (sel.length - k) else bn.j r
      let far (c : Instr) (acc : Nat) : Prop := (∀ p, classify i.pop.base = .device p → Reaches c s (Kills b 0x1303 acc i.pop.base d1)) ∧
        (classify i.pop.base = .bad → Reaches c s (Kills b 0x1102 acc i.pop.base d1))
      (fld w 7 6 = 2 → far (.cstore b src f none {}) 0x31 ∧
        ∀ o, classify i.pop.base = .store o → (∀ q, q < k → o / 4 * 4 + 4 * (fill + q) < min ctx.usable (2 ^ 20)) →
          AccessFree d1 b [{ dev := false, first := o / 4 * 4, last := o / 4 * 4 + 4 * cap - 1, wr := true, l1 := false }] →
          Reaches (.cstore b src f none {}) s fun d' => ends d' ∧ (d'.bench b).plane.vregs = bn.plane.vregs ∧
            (∀ q, q < k → (d'.bench b).tile.readBytes (ctx.base + o / 4 * 4 + 4 * (fill + q)) 4 = leBytes (laneN (bn.vreg (fld w 23 16)) 32 (sel.getD q 0)) 4) ∧
            ∀ a, a < ctx.base + o / 4 * 4 + 4 * fill ∨ ctx.base + o / 4 * 4 + 4 * (fill + k) ≤ a → (d'.bench b).tile.read a = bn.tile.read a) ∧
      (fld w 7 6 = 3 → far (.xload b src f none {}) 0x30 ∧
        ∀ o, classify i.pop.base = .store o → (∀ q, q < k → o / 4 * 4 + 4 * (fill + q) < min ctx.usable (2 ^ 20)) →
          AccessFree d1 b [{ dev := false, first := o / 4 * 4, last := o / 4 * 4 + 4 * cap - 1, wr := false, l1 := false }] →
          Reaches (.xload b src f none {}) s fun d' => ends d' ∧ (d'.bench b).tile = bn.tile ∧ (∀ r, r ≠ fld w 15 8 → (d'.bench b).vreg r = bn.vreg r) ∧
            (∀ q, q < sel.length → laneN ((d'.bench b).vreg (fld w 15 8)) 32 (sel.getD q 0) =
              if q < k then leNat (bn.tile.readBytes (ctx.base + o / 4 * 4 + 4 * (fill + q)) 4) else 0) ∧
            ∀ l, l < 64 → l ∉ sel → laneN ((d'.bench b).vreg (fld w 15 8)) 32 l = if l < i.vl ∧ i.zm = true then 0 else laneN (bn.vreg (fld w 15 8)) 32 l)) ∧
    (majorOf w = 0x3E → ∀ slot : Fin 8, src = .group slot →
      let fn := fld w 11 6
      let es := esBits (fld w 38 37)
      let n := es / 8
      let lane (r t : Nat) : Nat := laneN (i.src bn r) 32 t
      let ts := (List.range 64).filter fun t => i.mask.testBit t
      let ad (t : Nat) : Nat := (((lane (fld w 21 17) t + lane (fld w 26 22) t % 65536 * 2 ^ 32 : Nat) : Int) + (w.extractLsb' 39 16).toInt) % 2 ^ 48 / n * n |>.toNat
      let ud := i.vnum (fld w 16 12)
      (fn = 0 → loads (.tmemLd b slot f {} none none) 0x30 ts ad (memRanges (elems ts ad) n false)
        (LaneWise b i ud 32 (fun t => ((BitVec.ofNat es (got n (ad t))).signExtend 32).toNat) d1)) ∧
      (fn = 1 → loads (.tmemLd b slot f {} none none) 0x30 ts ad (memRanges (elems ts ad) n false) (LaneWise b i ud 32 (fun t => got n (ad t)) d1)) ∧
      (fn = 2 → stores (.tmemSt b slot f {} none none false) 0x31 n ts ad (memRanges (elems ts ad) n true) fun t => lane (fld w 31 27) t % 2 ^ es) ∧
      (0x10 ≤ fn → faults (.threadAtomic b slot f {} none) 0x34 ts ad ∧
        ((∀ t ∈ ts, fine (ad t)) → AccessFree d1 b ((memRanges (elems ts ad) 4 true).map fun r => { r with l1 := false }) →
          let x (t : Nat) : Nat := lane (fld w 31 27) t
          let y (t : Nat) : Nat := lane (fld w 36 32) t
          (∀ off : Nat → Nat, (∀ t ∈ ts, classify (ad t) = .store (off t)) →
            let run := ts.foldl (fun (a : Mem × List (Nat × Nat)) t =>
              let old := leNat (a.1.readBytes (ctx.base + off t) 4)
              (a.1.writeBytes (ctx.base + off t) (leBytes (atomicOp fn old (x t) (y t)) 4), a.2 ++ [(t, old)])) (bn.tile, [])
            Reaches (.threadAtomic b slot f {} none) s fun d' => PlaneMoved b i d1 d' ∧ d'.net = d1.net ∧ (d'.bench b).tile = run.1 ∧
              LaneWise b i ud 32 (fun t => ((run.2.find? (·.1 = t)).map (·.2)).getD 0) d1 d') ∧
          ∀ pa : Nat → Nat, (∀ t ∈ ts, classify (ad t) = .device (pa t)) →
            Reaches (.threadAtomic b slot f {} none) s fun d' => PlaneMoved b i d1 d' ∧ (d'.bench b).tile = bn.tile ∧ (d'.bench b).plane.vregs = bn.plane.vregs ∧
              (∃ ms, d'.net = d1.net ++ ms ∧ ms.map (fun m => [m.line, m.off, m.op, m.v0, m.v1, m.data.toNat]) =
                ts.map fun t => [pa t / 128, pa t % 128, fn, t, x t, y t]) ∧
              (∀ t ∈ ts, (d'.bench b).l1Find (pa t / 128) = none) ∧
              ∃ g g' a, bn.group slot = some g ∧ (d'.bench b).group slot = some g' ∧ g'.atoms = g.atoms ++ [a] ∧ a.pc = i.pc ∧ a.ud = fld w 16 12 ∧
                ∀ t, t < 64 → (a.wait.getLsbD t = true ↔ t ∈ ts))))

/-- Thread groups (R134 to R141, R146, R147, R195). -/
def Obligations.ThreadGroups : Prop :=
  ∀ (s : State) (b : BenchIx), s.dev.live = true →
    let bn := s.dev.bench b
    let ctx := bn.ctx
    (∀ (f : Ecc) (w : W64), JigReady s.dev b f w → majorOf w = 0x1F →
      let d1 := s.dev.fetchedBy b f
      let next (d' : Dev) : Prop := (d'.bench b).pc = bn.pc + 4 ∧ BenchesBut b s.dev d' ∧ d'.net = s.dev.net ∧ (d'.bench b).jregs = bn.jregs ∧ d'.hbm = s.dev.hbm ∧ d'.dies = s.dev.dies
      (fld w 7 6 = 0 →
        let g := fld w 13 8
        let dest := fld w 17 14
        let entry := (bn.j (fld w 26 22)).toNat
        let arg := (bn.j (fld w 31 27)).toNat
        let a := ctx.base + ctx.parkBase * 1024 + 0x2400 * g
        let bad : Prop := bn.groups.has g = true ∨ dest < 8 ∧ (bn.slotAfter dest).isSome = true ∨ entry % 8 ≠ 0 ∨ ctx.istrSize * 1024 < entry + 8 ∨
          dest = 8 ∧ ctx.parkSize * 1024 / 0x2400 ≤ g
        (bad → Reaches (.tglaunch b f) s (Kills b 0x1401 0x00 0 d1)) ∧
        (¬bad → dest < 8 → (∀ m ∈ bn.moves, m.slot ≠ dest) → Reaches (.tglaunch b f) s fun d' => next d' ∧ (d'.bench b).tile = bn.tile ∧
          (∀ r l, r < 32 → l < 64 → laneN ((d'.bench b).vreg (32 * dest + r)) 32 l = if r = 0 then l else if r = 1 then g else if r = 2 then arg else 0) ∧
          (∀ n, n / 32 ≠ dest → (d'.bench b).vreg n = bn.vreg n) ∧
          (d'.bench b).groups.find? g = some { ctx := bn.runCtx, cnt := fld w 21 18, slot := some dest } ∧
          ∃ q, (d'.bench b).group dest = some q ∧ q.num = g ∧ q.exited = 0 ∧ q.arrived = 0 ∧ q.clampWait = 0 ∧ q.fences = [] ∧ ∀ t, t < 64 → q.pc t = entry) ∧
        (¬bad → dest = 8 → (∀ c ∈ bn.slots.cells, c.2.fences = []) → ∀ i d2, Enters d1 b { dev := false, first := a - ctx.base, last := a - ctx.base + 0x23FF, wr := true, l1 := false } i d2 →
          Reaches (.tglaunch b f) s fun d' => next d' ∧ (d'.bench b).plane = bn.plane ∧ (d'.bench b).slots = bn.slots ∧
            (d'.bench b).groups.find? g = some { ctx := bn.runCtx, cnt := fld w 21 18, slot := none } ∧
            (∀ x, x < a ∨ a + 0x2400 ≤ x → (d'.bench b).tile.read x = bn.tile.read x) ∧
            ∀ t, t < 64 → (d'.bench b).tile.readBytes (a + 4 * t) 4 = leBytes t 4 ∧ (d'.bench b).tile.readBytes (a + 256 + 4 * t) 4 = leBytes g 4 ∧
              (d'.bench b).tile.readBytes (a + 512 + 4 * t) 4 = leBytes arg 4 ∧ (d'.bench b).tile.readBytes (a + 0x2000 + 4 * t) 4 = leBytes entry 4)) ∧
      (fld w 7 6 = 1 →
        let slot := fld w 10 8
        (bn.slotAfter slot = none → Reaches (.tgpark b f) s (Kills b 0x1402 0x00 0 d1)) ∧
        ∀ g, bn.slotAfter slot = some g →
          (ctx.parkSize * 1024 / 0x2400 ≤ g → Reaches (.tgpark b f) s (Kills b 0x1402 0x00 0 d1)) ∧
          (g < ctx.parkSize * 1024 / 0x2400 → bn.sb.length < 64 → Reaches (.tgpark b f) s fun d' => next d' ∧ (d'.bench b).slots = bn.slots ∧ (d'.bench b).plane = bn.plane ∧
            (d'.bench b).moves = bn.moves ++ [{ slot := slot, group := g, park := true, sb := bn.nextId }])) ∧
      (fld w 7 6 = 2 →
        let g := fld w 13 8
        let slot := fld w 16 14
        let good : Prop := bn.pendingAfter g = true ∧ bn.slotAfter slot = none
        (¬good → Reaches (.tgact b f) s (Kills b 0x1402 0x00 0 d1)) ∧
        (good → bn.sb.length < 64 → Reaches (.tgact b f) s fun d' => next d' ∧ (d'.bench b).slots = bn.slots ∧ (d'.bench b).plane = bn.plane ∧
          (d'.bench b).moves = bn.moves ++ [{ slot := slot, group := g, park := false, sb := bn.nextId }]))) ∧
    (∀ slot : Fin 8, s.dev.dieRuns (dieOf b) = true → bn.running = true →
      let quiet (g : TGroup) : Prop := (∀ p ∈ bn.plane.pends, p.iss.slot ≠ some slot.val) ∧ g.fences = [] ∧ g.atoms = []
      let only (d' : Dev) : Prop := d' = { s.dev with benches := d'.benches } ∧ BenchesBut b s.dev d' ∧ (d'.bench b).pc = bn.pc ∧ (d'.bench b).jregs = bn.jregs
      (∀ pre m post, bn.moves = pre ++ m :: post → (∀ x ∈ pre, x.slot ≠ slot.val) → m.slot = slot.val → bn.sbWaits m.sb = false → (∀ r ∈ bn.regsPending, r / 32 ≠ slot.val) →
        let a := ctx.base + ctx.parkBase * 1024 + 0x2400 * m.group
        (∀ g, m.park = true → bn.group slot = some g → quiet g → (∀ r, Reaches (.tgMoveDone b slot ⟨{}, (some r)⟩) s (Kills b 0x2301 0x36 r s.dev)) ∧ Reaches (.tgMoveDone b slot ⟨{}, none⟩) s fun d' => only d' ∧ (d'.bench b).moves = pre ++ post ∧
          (d'.bench b).group slot = none ∧ (∃ q, (d'.bench b).groups.find? m.group = some q ∧ q.slot = none) ∧
          (∀ r, r < 32 → (d'.bench b).tile.readBytes (a + 256 * r) 256 = leBytes (bn.vreg (32 * slot + r)).toNat 256) ∧
          (g.pcs.length = 64 → ∀ t, t < 64 → (d'.bench b).tile.readBytes (a + 0x2000 + 4 * t) 4 = leBytes (g.pc t) 4) ∧
          ∀ x, x < a → (d'.bench b).tile.read x = bn.tile.read x) ∧
        (∀ vp, m.park = false → Reaches (.tgMoveDone b slot ⟨{}, vp⟩) s fun d' => only d' ∧ (d'.bench b).moves = pre ++ post ∧ (d'.bench b).tile = bn.tile ∧
          (∃ q, (d'.bench b).groups.find? m.group = some q ∧ q.slot = some slot.val) ∧
          (∀ r, r < 32 → ((d'.bench b).vreg (32 * slot + r)).toNat = leNat (bn.tile.readBytes (a + 256 * r) 256)) ∧
          ∃ q, (d'.bench b).group slot = some q ∧ q.num = m.group ∧ q.exited.toNat = leNat (bn.tile.readBytes (a + 0x2140) 8) ∧
            ∀ t, t < 64 → q.pc t = leNat (bn.tile.readBytes (a + 0x2000 + 4 * t) 4))) ∧
      ∀ g i, bn.group slot = some g → g.exited = BitVec.allOnes 64 → quiet g → (∀ e ∈ bn.sb, e.group ≠ some g.num) → (∀ m ∈ bn.moves, m.slot ≠ slot.val) →
        bn.groups.find? g.num = some i → i.cnt < 16 → Reaches (.groupRetire b slot) s fun d' => only d' ∧ (d'.bench b).group slot = none ∧
          (d'.bench b).groups.find? g.num = none ∧ (d'.bench b).tile = bn.tile ∧
          ((d'.bench b).ctxN i.ctx).counters.toList.getD i.cnt 0 = (bn.ctxN i.ctx).counters.toList.getD i.cnt 0 + 1) ∧
    ∀ (slot : Fin 8) (f : Ecc) (i : Issue) (d1 : Dev) (g : TGroup), PlaneReady s.dev b (.group slot) f i d1 → majorOf i.word = 0x3D → bn.group slot = some g →
      let w := i.word
      let fn := fld w 11 6
      let m := BitVec.ofNat 64 i.mask
      let target := (((i.pc : Int) + 8 * (w.extractLsb' 40 24).toInt) % 2 ^ 32).toNat
      let tested (t : Nat) : Nat := laneN (bn.vreg (32 * slot + fld w 16 12)) 32 t
      let keeps (d' : Dev) : Prop := d' = { d1 with
          benches := d'.benches
          regs := d'.regs } ∧ BenchesBut b d1 d' ∧ (d'.bench b).tile = bn.tile ∧ (d'.bench b).jregs = bn.jregs ∧ (d'.bench b).plane.masks = bn.plane.masks ∧
        (d'.reg .plnIssued [b]).toNat = min (2 ^ 32 - 1) ((d1.reg .plnIssued [b]).toNat + 1)
      let group' (c : Instr) (P : TGroup → Prop) : Prop := Reaches c s fun d' => keeps d' ∧ (d'.bench b).plane.vregs = bn.plane.vregs ∧
        ∃ g', (d'.bench b).group slot = some g' ∧ g'.num = g.num ∧ P g'
      let branches (c : Instr) (goes : Nat → Bool) : Prop := group' c fun g' => g'.exited = g.exited ∧ g'.arrived = g.arrived ∧
        ∀ t, t < 64 → g'.pc t = if i.mask.testBit t then (if goes t then target else i.pc + 8) else g.pc t
      let next (g' : TGroup) : Prop := ∀ t, t < 64 → g'.pc t = if i.mask.testBit t then i.pc + 8 else g.pc t
      (fn = 0 → branches (.bnz b slot f none) fun t => tested t != 0) ∧ (fn = 1 → branches (.bz b slot f none) fun t => tested t == 0) ∧
      (fn = 2 → branches (.jmp b slot f) fun _ => true) ∧
      (fn = 3 → group' (.exitThreads b slot f) fun g' => next g' ∧ g'.exited = g.exited ||| m ∧
        g'.arrived = if g.exited ||| m ≠ BitVec.allOnes 64 ∧ g.arrived ||| (g.exited ||| m) = BitVec.allOnes 64 then 0 else g.arrived) ∧
      (fn = 4 → group' (.bar b slot f) fun g' => next g' ∧ g'.exited = g.exited ∧
        g'.arrived = if g.exited ≠ BitVec.allOnes 64 ∧ g.arrived ||| m ||| g.exited = BitVec.allOnes 64 then 0 else g.arrived ||| m) ∧
      (fn = 4 → group' (.bar b slot f) fun g' => g'.arrived ≠ 0 → g'.wdog = if g.arrived = 0 then d1.cycle (dieOf b) else g.wdog) ∧
      (fn = 5 →
        let acq := w.getLsbD 30
        (∀ mp, fld w 28 27 < 2 → group' (.tctlFence b slot f mp) fun g' => next g' ∧ g'.fences = g.fences) ∧
        (∀ mp, 2 ≤ fld w 28 27 → w.getLsbD 29 = false → Reaches (.tctlFence b slot f mp) s fun d' => keeps d' ∧ (d'.bench b).l1 = ⟨[]⟩ ∧ ∀ e ∈ (d'.bench b).infeed, e.held = false) ∧
        (2 ≤ fld w 28 27 → w.getLsbD 29 = true → bn.merge = [] →
          (bn.sb = [] → group' (.tctlFence b slot f false) (fun g' => next g' ∧ g'.fences = []) ∧
            (acq = true → Reaches (.tctlFence b slot f false) s fun d' => (d'.bench b).l1 = ⟨[]⟩)) ∧
          ((∃ e ∈ bn.sb, e.id < bn.nextId ∧ e.ctx = bn.runCtx ∧ e.done = false ∧ e.dev = true ∧ e.fabric = false) →
            group' (.tctlFence b slot f false) fun g' => next g' ∧ { mask := m, sys := fld w 28 27 == 3, acq := acq, upto := bn.nextId } ∈ g'.fences))) ∧
      (fn = 6 → Reaches (.li b slot f) s fun d' => PlaneRetired b i d1 d' ∧ LaneWise b i (32 * slot + fld w 26 22) 32 (fun _ => fld w 63 32) d1 d')

/-- Clamps (R148, R157, R218 to R224). -/
def Obligations.Clamps : Prop :=
  ∀ (s : State), s.dev.live = true →
    let phys (b idx : Nat) : Nat := (s.dev.bench b).ctx.prog / 16 * (256 / s.dev.instN) + idx
    let cfg (i k : Nat) : Bool := s.dev.regBit .clpIdcfg [i] k
    let outside (b : Nat) (dev : Bool) (idx : Nat) : Prop := dev = true ∧ (256 / s.dev.instN ≤ idx ∨ cfg (phys b idx) 31 = false ∨
      s.dev.regFld .clpIdcfg [phys b idx] 18 16 ≠ (s.dev.bench b).ctx.prog / 16 ∨ cfg (phys b idx) 29 = false ∧ s.dev.regFld .clpIdcfg [phys b idx] 26 24 ≠ dieOf b)
    let foreign (b : Nat) (dev : Bool) (idx : Nat) : Prop := dev = false ∧ ∃ o, (s.dev.bench b).clampOwner.find? idx = some o ∧ o ≠ (s.dev.bench b).runCtx
    let seen (b : Nat) (dev : Bool) (idx : Nat) : W32 := if dev then (s.dev.bench b).shadow.getD (phys b idx) 0 else (s.dev.bench b).clampVal.getD idx 0
    let added (b : Nat) (dev : Bool) (idx : Nat) (v : W32) (d' : Dev) : Prop :=
      let bn := s.dev.bench b
      BenchesBut b s.dev d' ∧ (d'.bench b).tile = bn.tile ∧ (d'.bench b).jregs = bn.jregs ∧ (∀ k, d'.reg .clpIdval [k] = s.dev.reg .clpIdval [k]) ∧
        (dev = false → d'.net = s.dev.net ∧ (d'.bench b).clampOwner.find? idx = some bn.runCtx ∧ (∀ k, k ≠ idx → (d'.bench b).clampVal.getD k 0 = bn.clampVal.getD k 0) ∧
          (d'.bench b).clampVal.getD idx 0 = (if bn.clampOwner.has idx then bn.clampVal.getD idx 0 else 0) + v) ∧
        (dev = true → (d'.bench b).clampVal = bn.clampVal ∧ (cfg (phys b idx) 30 = true → d'.net = s.dev.net) ∧
          (cfg (phys b idx) 30 = false → ∃ m, d'.net = s.dev.net ++ [m] ∧ m.kind = .clampUp ∧ m.src = .bench b ∧ m.v0 = phys b idx ∧ m.v1 = v.toNat ∧
            m.dst = if cfg (phys b idx) 29 then .clampIod else .clampRoot (s.dev.regFld .clpIdcfg [phys b idx] 26 24)))
    (∀ (b : BenchIx) (f : Ecc) (w : W64), JigReady s.dev b f w → majorOf w = 0x20 →
      let bn := s.dev.bench b
      let d1 := s.dev.fetchedBy b f
      let dev := w.getLsbD 8
      let idx := fld w 16 9
      let v := bn.j (fld w 22 18)
      let cmd : Instr := if fld w 7 6 = 0 then .clpArrive b f else if fld w 7 6 = 1 then .clpAdd b f else .clpWait b f
      (outside b dev idx → Reaches cmd s (Kills b 0x1503 0x00 0 d1)) ∧ (foreign b dev idx → Reaches cmd s (Kills b 0x1502 0x00 0 d1)) ∧
      (¬outside b dev idx → ¬foreign b dev idx →
        (fld w 7 6 = 0 → Reaches (.clpArrive b f) s fun d' => added b dev idx 1 d' ∧ (d'.bench b).pc = bn.pc + 4) ∧
        (fld w 7 6 = 1 → Reaches (.clpAdd b f) s fun d' => added b dev idx v d' ∧ (d'.bench b).pc = bn.pc + 4) ∧
        (fld w 7 6 = 2 → (dev = true → cfg (phys b idx) 30 = true → Reaches (.clpWait b f) s (Kills b 0x1504 0x00 0 d1)) ∧
          (dev = false ∨ cfg (phys b idx) 30 = false → Reaches (.clpWait b f) s fun d' => (d'.bench b).pc = bn.pc + 4 ∧ BenchesBut b s.dev d' ∧ d'.net = s.dev.net ∧
            (d'.bench b).wait = .clamp dev idx v.toNat (w.getLsbD 17) ∧ (d'.bench b).waitAt = s.dev.cycle (dieOf b) ∧ (d'.bench b).tile = bn.tile ∧ (d'.bench b).jregs = bn.jregs)))) ∧
    (∀ (b : BenchIx) (slot : Fin 8) (f : Ecc) (i : Issue) (d1 : Dev) (g : TGroup), PlaneReady s.dev b (.group slot) f i d1 → majorOf i.word = 0x3D → (s.dev.bench b).group slot = some g →
      let w := i.word
      let bn := s.dev.bench b
      let dev := w.getLsbD 31
      let idx := fld w 39 32
      let ts := (List.range 64).filter fun t => i.mask.testBit t
      let next (d' : Dev) : Prop := (d'.bench b).plane.vregs = bn.plane.vregs ∧ ∃ g', (d'.bench b).group slot = some g' ∧ g'.exited = g.exited ∧ g'.clampWait = g.clampWait ∧
        ∀ t, t < 64 → g'.pc t = if i.mask.testBit t then i.pc + 8 else g.pc t
      let cmd : Instr := if fld w 11 6 = 8 then .carrive b slot f else if fld w 11 6 = 9 then .cadd b slot f none else .tctlCwait b slot f none
      (8 ≤ fld w 11 6 → fld w 11 6 ≤ 10 → (outside b dev idx → Reaches cmd s (Kills b 0x1503 0x00 0 d1)) ∧ (foreign b dev idx → Reaches cmd s (Kills b 0x1502 0x00 0 d1))) ∧
      (¬outside b dev idx → ¬foreign b dev idx →
        (fld w 11 6 = 8 → Reaches (.carrive b slot f) s fun d' => added b dev idx (BitVec.ofNat 32 ts.length) d' ∧ next d') ∧
        (fld w 11 6 = 9 → Reaches (.cadd b slot f none) s fun d' =>
          added b dev idx (BitVec.ofNat 32 (ts.map fun t => laneN (bn.vreg (32 * slot + fld w 21 17)) 32 t).sum) d' ∧ next d') ∧
        (fld w 11 6 = 10 → (dev = true → cfg (phys b idx) 30 = true → Reaches (.tctlCwait b slot f none) s (Kills b 0x1504 0x00 0 d1)) ∧
          (dev = false ∨ cfg (phys b idx) 30 = false → Reaches (.tctlCwait b slot f none) s fun d' => BenchesBut b s.dev d' ∧ d'.net = s.dev.net ∧ (d'.bench b).tile = bn.tile ∧
            (d'.bench b).plane.vregs = bn.plane.vregs ∧ ∃ g', (d'.bench b).group slot = some g' ∧ g'.exited = g.exited ∧ g'.clampWait = g.clampWait ||| BitVec.ofNat 64 i.mask ∧
              (∀ t ∈ ts, g'.clampAt.getD t 0 = s.dev.cycle (dieOf b)) ∧ ∀ t, t < 64 → g'.pc t = if i.mask.testBit t then i.pc else g.pc t)))) ∧
    (∀ (b : BenchIx), s.dev.dieRuns (dieOf b) = true → (s.dev.bench b).running = true →
      let bn := s.dev.bench b
      let limit := s.dev.limitOf .clpWdog b
      let comes (k : Option (Fin 8)) : Prop := ∀ d1, ComesAt (dieOf b) (·.clampDue b (k.map (·.val))) s.dev d1 → d1.bench b = bn → d1.dieRuns (dieOf b) = true →
        Reaches (.clampWatchdogExpiry b k) s (Kills b 0x1501 0x00 0 d1)
      (∀ dev idx t al, bn.wait = .clamp dev idx t al →
        let reached : Prop := (seen b dev idx - BitVec.ofNat 32 t).toNat < 2 ^ 31
        (reached → Reaches (.clampWaitExit b none) s fun d' => d'.bench b = { bn with wait := .none } ∧ BenchesBut b s.dev d' ∧ d'.net = s.dev.net ∧
          d'.cycle (dieOf b) = if al then nextMod (s.dev.cycle (dieOf b) + 1) 8 0 else s.dev.cycle (dieOf b)) ∧
        (¬reached → Completes (.clampWaitExit b none) s s.dev ∧ s.dev.clampDue b none = some (bn.waitAt + limit) ∧ comes none)) ∧
      ∀ (slot : Fin 8) (g : TGroup), bn.group slot = some g →
        let at' (t : Nat) : W64 := BitVec.ofNat 64 (bn.istore.readN (bn.ctx.istrBase * 1024 + g.pc t) 8)
        let out (t : Nat) : Prop := g.clampWait.getLsbD t = true ∧
          (seen b ((at' t).getLsbD 31) (fld (at' t) 39 32) - BitVec.ofNat 32 (laneN (bn.vreg (32 * slot + fld (at' t) 21 17)) 32 t)).toNat < 2 ^ 31
        (Reaches (.clampWaitExit b (some slot)) s fun d' => d' = { s.dev with benches := d'.benches } ∧ BenchesBut b s.dev d' ∧ (d'.bench b).plane = bn.plane ∧ (d'.bench b).tile = bn.tile ∧
          ∃ g', (d'.bench b).group slot = some g' ∧ g'.exited = g.exited ∧ g'.arrived = g.arrived ∧ ∀ t, t < 64 →
            (out t → g'.pc t = g.pc t + 8 ∧ g'.clampWait.getLsbD t = false) ∧ (¬out t → g'.pc t = g.pc t ∧ g'.clampWait.getLsbD t = g.clampWait.getLsbD t)) ∧
        (∀ t, t < 64 → (g.arrived.getLsbD t = true → ∃ c, s.dev.clampDue b (some slot.val) = some c ∧ c ≤ g.wdog + limit) ∧
          (g.clampWait.getLsbD t = true → ¬out t → ∃ c, s.dev.clampDue b (some slot.val) = some c ∧ c ≤ g.clampAt.getD t 0 + limit)) ∧
        ((∃ t, t < 64 ∧ (g.arrived.getLsbD t = true ∨ g.clampWait.getLsbD t = true ∧ ¬out t)) → comes (some slot))) ∧
    (∀ (i : Fin 256) (k : Nat),
      let mine (m : Msg) : Bool := m.kind == .clampUp && m.v0 == i
      let ms := s.dev.net.filter mine
      let sum := BitVec.ofNat 32 (ms.map (·.v1)).sum
      let scope := if cfg i 29 then (List.range 8).filter fun x => s.dev.instOfDie x == s.dev.regFld .clpIdcfg [i.val] 18 16 else [s.dev.regFld .clpIdcfg [i.val] 26 24]
      ms ≠ [] → ms.length ≤ k →
        (cfg i 31 = true → cfg i 30 = false → (cfg i 29 = true → s.dev.regBit .fabXclpCfg [i] 31 = false) → Reaches (.clampRootUpdate i k .ok) s fun d' =>
          d' = { s.dev with
            net := s.dev.net.filter (!mine ·)
            regs := d'.regs
            clampDown := d'.clampDown } ∧ RegsBut [RegName.clpIdval.addr [i]] s.dev d' ∧ d'.reg .clpIdval [i] = s.dev.reg .clpIdval [i] + sum ∧
          ∀ x ∈ scope, (s.dev.die x).st = 2 → { die := x, id := i, value := s.dev.reg .clpIdval [i] + sum, left := BitVec.allOnes 144 } ∈ d'.clampDown) ∧
        (cfg i 31 = false ∨ cfg i 30 = true → Reaches (.clampRootUpdate i k .ok) s fun d' => d' = { s.dev with net := s.dev.net.filter (!mine ·) }) ∧
        Reaches (.clampRootUpdate i k .double) s fun d' => d'.net = s.dev.net.filter (!mine ·) ∧ d'.regBit .clpIdcfg [i] 30 = true ∧
          d'.reg .clpIdval [i] = s.dev.reg .clpIdval [i] ∧ ∃ r ∈ d'.reports, r.code = 0x4302) ∧
    ∀ (die : DieIx) (node : Fin 144) (i : Fin 256) pre x post, s.dev.dieRuns die = true → s.dev.clampDown = pre ++ x :: post →
      x.die = die.val → x.id = i.val → x.left.getLsbD node = true → (∀ y ∈ pre, ¬(y.die = die.val ∧ y.id = i.val)) → x ∉ post →
      Reaches (.clampShadowUpdate die node i .ok) s fun d' => d' = { s.dev with
          benches := d'.benches
          clampDown := d'.clampDown } ∧
        (∀ b, d'.bench b = { s.dev.bench b with shadow := (d'.bench b).shadow } ∧ (d'.bench b).shadow.getD i 0 =
          if b / 576 = die ∧ b % 24 / 2 = node % 12 ∧ b % 576 / 24 / 2 = node / 12 then x.value else (s.dev.bench b).shadow.getD i 0) ∧
        (∀ b k, k ≠ i.val → (d'.bench b).shadow.getD k 0 = (s.dev.bench b).shadow.getD k 0) ∧
        let left := x.left &&& ~~~(1#144 <<< node.val)
        d'.clampDown = pre ++ (if left = 0 then [] else [{ x with left := left }]) ++ post

/-- Bay caches (R253 to R256, R260, R262 to R266). -/
def Obligations.BayCaches : Prop :=
  ∀ (s : State) (y : BayIx), s.dev.live = true → s.dev.dieRuns (y / 8) = true →
    let bay := s.dev.bay y
    let only (d' : Dev) : Prop := BayOnly y s.dev d'
    let lines (d' : Dev) : Prop := ∀ k, (d'.bay y).lines.find? k = bay.lines.find? k
    let held (line k : Nat) (x : BayLine) : Prop := bay.find line = some k ∧ bay.lines.find? k = some x
    let free (line : Nat) : Prop := (bay.misses.filter fun x => x.line % 2 == line % 2).length < 64 ∧ ∀ w ∈ bay.wbs, w.line ≠ line
    (∀ (m : Msg) (d1 : Dev) (b : Nat), Serves (fun x => x.kind == m.kind && x.dst == .bay y) s.dev m d1 → m.src = .bench b → m.req = none → dieOf b = y / 8 →
      m.kind = .benchRead ∨ m.kind = .benchWrite ∨ m.kind = .benchAtomic →
      let pa := m.line * 128
      let rd := m.kind = .benchRead
      let whole := m.be = BitVec.allOnes 128
      let cmd : Instr := if m.kind = .benchRead then .bayLoadRequest y .ok else if m.kind = .benchWrite then .bayMaskedWrite y .ok else .bayAtomic y .ok
      let dies (code acc : Nat) : Prop := ((s.dev.bench b).ctxN m.ctx).valid = true → ((s.dev.bench b).ctxN m.ctx).gen = m.gen → ((s.dev.bench b).ctxN m.ctx).killed = false →
        Reaches cmd s fun d' => d'.net = d1.net ∧ d'.bays = s.dev.bays ∧ ((d'.bench b).ctxN m.ctx).killed = true ∧ ((d'.bench b).ctxN m.ctx).killCause = code ∧
          ∃ r, d'.reports = s.dev.reports ++ [r] ∧ r.code = code ∧ r.access = acc ∧ r.addr = pa ∧ r.master = benchMaster b
      let acc := s.dev.benchAccess m
      (s.dev.access (.inst (s.dev.instOfDie (y / 8))) pa = none → dies 0x3101 acc) ∧
      ∀ l, s.dev.access (.inst (s.dev.instOfDie (y / 8))) pa = some l →
        let home := homeSlice l.die l.x
        let lost : Prop := Reaches cmd s fun d' => d'.bays = s.dev.bays ∧ ∃ r, d'.net = d1.net ++ [r] ∧ r.dst = .bench b ∧ r.poison = true ∧ r.code = 0x5108 ∧ r.line = m.line
        let asks (want : MsgKind) : Prop := free m.line → ((s.dev.die l.die).st = 2 → Reaches cmd s fun d' => only d' ∧ lines d' ∧ (d'.bay y).wbs = bay.wbs ∧
            (d'.bay y).misses = bay.misses ++ [{ line := m.line, want := want, waiting := [m] }] ∧ Counted .ucBayMisses [y] s.dev d' ∧
            Sent d1.net { kind := want, src := .bay y, dst := .slice home, line := m.line, loc := l.x / 128 } d') ∧
          ((s.dev.die l.die).st ≠ 2 → bay.find m.line = none → lost)
        let forwards (kind : MsgKind) (ac ty : Nat) : Prop := ((s.dev.die l.die).st = 2 → Reaches cmd s fun d' => only d' ∧ d'.bays = s.dev.bays ∧
            Sent d1.net { m with kind := kind, src := .bay y, dst := .slice home, loc := l.x / 128, req := some (.bench b), ty := ty, acc := ac } d') ∧
          ((s.dev.die l.die).st ≠ 2 → lost)
        let joins : Prop := (∃ x ∈ bay.misses, x.line = m.line) → Reaches cmd s fun d' => only d' ∧ d'.net = d1.net ∧ lines d' ∧ ∃ x ∈ (d'.bay y).misses, x.line = m.line ∧ m ∈ x.waiting
        let unasked : Prop := ∀ x ∈ bay.misses, x.line ≠ m.line
        let becomes (k : Nat) (x : BayLine) (r : Msg) : Prop := Reaches cmd s fun d' => only d' ∧ (d'.bay y).misses = bay.misses ∧ (d'.bay y).wbs = bay.wbs ∧
          (∀ j, (d'.bay y).lines.find? j = if j = k then some x else bay.lines.find? j) ∧ Counted .ucBayHits [y] s.dev d' ∧ Sent d1.net r d'
        (rd → joins ∧ (unasked → (∀ k x, held m.line k x → becomes k x { m.reply .lineRsp (.bay y) with data := x.data, poison := x.poison }) ∧ (bay.find m.line = none → asks .rds))) ∧
        (¬rd → l.ro = true → dies 0x1701 (if m.kind = .benchWrite then acc else 0x34)) ∧
        (¬rd → l.ro = false → ∀ op ty, s.dev.redWindow (s.dev.instOfDie (y / 8)) pa = some (op, ty) →
          (m.kind = .benchWrite → (m.op = 1 → forwards .red 0x52 (4 * op + ty)) ∧ (m.op ≠ 1 → dies 0x1702 0x11)) ∧ (m.kind = .benchAtomic → forwards .ata 0x53 0)) ∧
        (¬rd → l.ro = false → s.dev.redWindow (s.dev.instOfDie (y / 8)) pa = none → s.dev.mirOf pa ≠ [] →
          if m.kind = .benchWrite then forwards .wra acc 0 else forwards .ata 0x53 0) ∧
        (¬rd → l.ro = false → s.dev.redWindow (s.dev.instOfDie (y / 8)) pa = none → s.dev.mirOf pa = [] → joins ∧ (unasked →
          let want : MsgKind := if m.kind = .benchWrite ∧ whole then .rdxn else .rdx
          (bay.find m.line = none → asks want) ∧ (∀ k x, held m.line k x → x.line = m.line → x.loc = l.x / 128 → x.st = .s → asks want) ∧
          (∀ k x, held m.line k x → x.st ≠ .s →
            (m.kind = .benchWrite → becomes k { x with st := .m, data := mergeLine x.data m.data m.be, poison := x.poison && m.be != BitVec.allOnes 128 } (m.reply .writeAck (.bay y))) ∧
            (m.kind = .benchAtomic → x.poison = true → becomes k x { m.reply .atomRsp (.bay y) with poison := true }) ∧
            (m.kind = .benchAtomic → x.poison = false →
              let old := laneN x.data 32 (m.off / 4)
              becomes k { x with st := .m, data := setLaneN x.data 32 (m.off / 4) (atomicOp m.op old m.v1 (m.data.toNat % 2 ^ 32)) } { m.reply .atomRsp (.bay y) with v1 := old }))))) ∧
    (∀ g d1 mi k, Serves (fun x => x.kind == .grant && x.dst == .bay y) s.dev g d1 → bay.misses.find? (·.line == g.line) = some mi → bay.place g.line = some k →
      (∀ r ∈ mi.waiting, s.dev.fencedOff (r.reply r.replyKind (.bay y)) = false) →
      let x : BayLine := { line := g.line, loc := g.loc, st := if g.op = 0 then .s else .e, data := g.data, poison := g.poison }
      let takes (x : BayLine) (d' : Dev) : Prop := only d' ∧ (d'.bay y).misses = bay.misses.filter (·.line != g.line) ∧
        ∀ j, (d'.bay y).lines.find? j = if j = k then some x else bay.lines.find? j
      ((∀ o, bay.lines.find? k = some o → o.line = g.line ∨ o.st ≠ .m) →
        ((∀ r ∈ mi.waiting, r.kind = .benchRead) → Reaches (.bayGrant y) s fun d' => takes x d' ∧ (d'.bay y).wbs = bay.wbs ∧ ∃ ms, d'.net = d1.net ++ ms ∧
          ms.map (fun r => (r.kind, r.data, r.poison, r.tag)) = mi.waiting.map (fun r => (MsgKind.lineRsp, x.data, x.poison, r.tag)) ∧
          ms.map (·.dst) = mi.waiting.map fun r => r.req.getD r.src) ∧
        (∀ r, mi.waiting = [r] → r.kind = .benchWrite → g.op ≠ 0 → Reaches (.bayGrant y) s fun d' => (d'.bay y).wbs = bay.wbs ∧ Sent d1.net (r.reply .writeAck (.bay y)) d' ∧
          takes { x with st := .m, data := mergeLine x.data r.data r.be, poison := x.poison && r.be != BitVec.allOnes 128 } d')) ∧
      (∀ o l, bay.lines.find? k = some o → o.line ≠ g.line → o.st = .m → (bay.wbs.filter fun w => w.line % 2 == g.line % 2).length < 16 → mi.waiting = [] →
        s.dev.access .manager (o.line * 128) = some l → (s.dev.die l.die).st = 2 → Reaches (.bayGrant y) s fun d' => takes x d' ∧
          (d'.bay y).wbs = bay.wbs ++ [⟨o.line, o.data, o.poison⟩] ∧
          Sent d1.net { kind := .wb, src := .bay y, dst := .slice (homeSlice l.die l.x), line := o.line, loc := o.loc, data := o.data, poison := o.poison } d')) ∧
    (∀ a d1, Serves (fun x => x.kind == .wbAck && x.dst == .bay y) s.dev a d1 → Reaches (.bayWbAck y) s fun d' => only d' ∧ d'.net = d1.net ∧
      d'.bay y = { bay with wbs := bay.wbs.filter (·.line != a.line) }) ∧
    (∀ (kind : MsgKind) m d1 q (i : Fin 89), i.val = y.val → Serves (fun x => x.kind == kind && x.dst == .bay y && !s.dev.grantComing (.bay y) x.line) s.dev m d1 → m.src = .slice q → (s.dev.die (q / 16)).st = 2 →
      kind = .inv ∨ kind = .dwn ∨ kind = .rcl →
      let cmd : Instr := if kind = .inv then .inv i else if kind = .dwn then .dwn y else .rcl y
      let r (rk : MsgKind) : Msg := { kind := rk, src := .bay y, dst := .slice q, line := m.line, loc := m.loc }
      (∀ k x, held m.line k x → Reaches cmd s fun d' => only d' ∧ (d'.bay y).misses = bay.misses ∧ (d'.bay y).wbs = bay.wbs ∧
        (∀ j, (d'.bay y).lines.find? j = if j = k then (if kind = .dwn then some { x with st := .s } else none) else bay.lines.find? j) ∧
        Sent d1.net (if x.st = .m then { r .replyData with data := x.data, poison := x.poison } else r .replyAck) d') ∧
      (bay.find m.line = none → Reaches cmd s fun d' => only d' ∧ d'.bay y = bay ∧
        Sent d1.net (match bay.wbs.find? (·.line == m.line) with
          | some w => { r .replyData with data := w.data, poison := w.poison }
          | none => r .replyNp) d')) ∧
    ∀ (i : Fin 89) m d1 q, 64 ≤ i.val → m.src = .slice q → (s.dev.die (q / 16)).st = 2 → Serves (fun x => x.kind == .inv && x.dst == .iod (i - 64)) s.dev m d1 →
      Reaches (.inv i) s fun d' => d' = { s.dev with
          net := d'.net
          iodLines := d'.iodLines } ∧ (∀ e ∈ d'.iodLines, ¬(e.agent = i - 64 ∧ e.line = m.line ∧ e.shared = true)) ∧
        Sent d1.net { kind := if ∃ e ∈ s.dev.iodLines, e.agent = i - 64 ∧ e.line = m.line ∧ e.shared = true then .replyAck else .replyNp, src := .iod (i - 64), dst := m.src, line := m.line, loc := m.loc } d'

/-- Slices (R254 to R259, R263, R265 to R270). -/
def Obligations.HomeSlices : Prop :=
  ∀ (s : State) (q : SliceIx), s.dev.live = true → (s.dev.die (q / 16)).st = 2 →
    let sl := s.dev.slice q
    let only (d' : Dev) : Prop := SliceOnly q s.dev d'
    let has (loc k : Nat) (x : SLine) : Prop := sl.find loc = some k ∧ sl.lines.find? k = some x
    let line (k : Nat) (x : SLine) (d' : Dev) : Prop := (∃ u, (d'.slice q).lines.find? k = some { x with used := u }) ∧ ∀ j, j ≠ k → (d'.slice q).lines.find? j = sl.lines.find? j
    let idle (d' : Dev) : Prop := (d'.slice q).pend = []
    let pends (m : Msg) (ph : SPhase) (d' : Dev) : Prop := ∃ p, (d'.slice q).pend = [p] ∧ p.req = m ∧ p.phase = ph
    let grant (m : Msg) (x : SLine) (op : Nat) : Msg :=
      { kind := .grant, src := .slice q, dst := m.src, line := m.line, loc := m.loc, op := op, data := x.data, poison := x.poison && op != 2 }
    let read (m : Msg) : Msg := { kind := .hbmRead, src := .slice q, dst := .slice q, line := m.line, loc := m.loc }
    let own (c : Nat) (x : SLine) : SLine := { x with dir := .x c, presence := 1#96 <<< c }
    let share (c : Nat) (x : SLine) : SLine := { x with dir := .s, presence := if x.dir = .s then x.presence ||| 1#96 <<< c else 1#96 <<< c }
    let cmd (kind : MsgKind) : Instr := match kind with
      | .rds => .rds q .ok none 0
      | .rdx => .rdx q .ok
      | .rdxn => .rdxn q .ok
      | .wb => .wb q .ok
      | .wra => .wra q .ok
      | .ata => .ata q .ok
      | _ => .red q .ok
    (sl.pend = [] → ∀ m d1 c, Serves (fun x => x.kind == m.kind && x.dst == .slice q) s.dev m d1 → m.src = .bay c → c < 64 → (s.dev.die (c / 8)).st = 2 → s.dev.fencedOff (m.reply m.replyKind (.slice q)) = false →
      m.kind ∈ [MsgKind.rds, .rdx, .rdxn, .wb, .wra, .ata, .red] → (m.kind = .red → reduceWhole (m.ty % 4) m.be = true) → s.dev.mirOf (m.line * 128) = [] →
      let kd := m.kind
      let reads : Prop := kd = .rds ∨ kd = .rdx ∨ kd = .rdxn
      let serves (k : Nat) (x : SLine) (r : Msg) : Prop := Reaches (cmd kd) s fun d' => only d' ∧ idle d' ∧ line k x d' ∧ Sent d1.net r d' ∧ Counted .ucSlHits [q] s.dev d'
      (∀ k x, has m.loc k x →
        let apart := (List.range 96).filter fun i => x.presence.getLsbD i && (i != c || !(kd == .rdx || kd == .rdxn))
        let alone : Prop := x.dir = .v ∨ x.dir = .x c ∧ reads ∨ x.dir = .s ∧ apart = []
        (kd = .rds → x.valid = true → x.dir = .v ∨ x.dir = .s ∨ x.dir = .x c → serves k (share c x) (grant m x 0)) ∧
        (kd = .rdx → x.valid = true → alone → serves k (own c x) (grant m x 1)) ∧ (kd = .rdxn → alone → serves k (own c x) (grant m x 2)) ∧
        (kd = .wb → serves k (if x.dir = .x c then { x with data := m.data, poison := m.poison, valid := true, dirty := true, dir := .v, presence := 0 } else x)
          { kind := .wbAck, src := .slice q, dst := m.src, line := m.line, loc := m.loc }) ∧
        (kd = .wra → x.valid = true ∨ m.be = BitVec.allOnes 128 → alone → serves k
          { x with data := mergeLine x.data m.data m.be, dirty := true, valid := true, dir := .v, presence := 0, poison := m.poison || (x.poison && m.be != BitVec.allOnes 128) }
          (m.reply .writeAck (.slice q))) ∧
        (kd = .ata → x.valid = true → alone → x.poison = false →
          let old := laneN x.data 32 (m.off / 4)
          serves k { x with data := setLaneN x.data 32 (m.off / 4) (atomicOp m.op old m.v1 (m.data.toNat % 2 ^ 32)), dirty := true, dir := .v, presence := 0 }
            { m.reply .atomRsp (.slice q) with v1 := old }) ∧
        (kd = .red → x.valid = true → alone → Reaches (cmd kd) s fun d' => only d' ∧ pends m .apply d' ∧ d'.net = d1.net) ∧
        (kd = .rds ∨ kd = .rdx ∨ kd = .ata ∨ kd = .red → x.valid = false → x.dir = .v → Reaches (cmd kd) s fun d' => only d' ∧ pends m (.fill k) d' ∧
          Sent d1.net { read m with line := x.line } d') ∧
        (∀ (sk : MsgKind) (who : List Nat), (x.dir = .s ∧ kd ≠ .rds ∧ kd ≠ .wb ∧ sk = .inv ∧ who = apart ∨
            (∃ b, x.dir = .x b ∧ kd ≠ .wb ∧ (reads → b ≠ c) ∧ sk = (if kd = .rds then .dwn else .rcl) ∧ who = [b])) → who ≠ [] → (∀ i ∈ who, i < 64 ∧ (s.dev.die (i / 8)).st = 2) →
          Reaches (cmd kd) s fun d' => only d' ∧ pends m (.snoop who) d' ∧ (d'.slice q).lines = sl.lines ∧ ∃ ms, d'.net = d1.net ++ ms ∧
            ms.map (fun x => (x.kind, x.src, x.dst, x.line, x.loc)) = who.map fun i => (sk, Agent.slice q, Agent.bay i, x.line, m.loc))) ∧
      (sl.find m.loc = none →
        (kd = .wb → Reaches (cmd kd) s fun d' => only d' ∧ idle d' ∧ (d'.slice q).lines = sl.lines ∧
          Sent d1.net { kind := .wbAck, src := .slice q, dst := m.src, line := m.line, loc := m.loc } d') ∧
        (kd ≠ .wb → s.dev.winFind (m.line * 128) = none → Reaches (cmd kd) s fun d' => only d' ∧ idle d' ∧ (d'.slice q).lines = sl.lines ∧
          ∃ r, d'.net = d1.net ++ [r] ∧ r.dst = (if reads then m.src else m.req.getD m.src) ∧ r.line = m.line ∧ (r.poison = true ∨ kd = .rdxn)) ∧
        ∀ w, kd ≠ .wb → s.dev.winFind (m.line * 128) = some w →
          (s.dev.choosePlace q m.loc w (m.line * 128) = none → Reaches (cmd kd) s fun d' => only d' ∧ pends m .noWay d' ∧ d'.net = d1.net ∧ Counted .ucSlFillwait [q] s.dev d') ∧
          ∀ k shelf c', s.dev.choosePlace q m.loc w (m.line * 128) = some (k, shelf, c') → (∀ v, sl.lines.find? k = some v → v.presence = 0) →
            let new : SLine := { line := m.line, loc := m.loc, shelf := shelf, cls := c' }
            let out : List Msg := match sl.lines.find? k with
              | some v => if v.dirty then [{ kind := .hbmWrite, src := .slice q, dst := .slice q, line := v.line, loc := v.loc, data := v.data, poison := v.poison }] else []
              | none => []
            (kd = .rdxn → Reaches (cmd kd) s fun d' => only d' ∧ idle d' ∧ line k (own c new) d' ∧ Sent (d1.net ++ out) (grant m new 2) d') ∧
            (kd ≠ .rdxn → Reaches (cmd kd) s fun d' => only d' ∧ pends m (.fill k) d' ∧ line k new d' ∧ Sent (d1.net ++ out) (read m) d' ∧ Counted .ucSlMisses [q] s.dev d'))) ∧
    (∀ m d1 b, Serves (fun x => x.kind == .red && x.dst == .slice q) s.dev m d1 → m.req = some (.bench b) → reduceWhole (m.ty % 4) m.be = false →
      ((s.dev.bench b).ctxN m.ctx).valid = true → ((s.dev.bench b).ctxN m.ctx).gen = m.gen → ((s.dev.bench b).ctxN m.ctx).killed = false →
      Reaches (.red q .ok) s fun d' => d'.net = d1.net ∧ d'.slices = s.dev.slices ∧ ((d'.bench b).ctxN m.ctx).killed = true ∧ ((d'.bench b).ctxN m.ctx).killCause = 0x1703) ∧
    (∀ p k x, sl.pend = [p] → p.phase = .apply → has p.req.loc k x → s.dev.mirOf (p.req.line * 128) = [] → s.dev.fencedOff (p.req.reply .writeAck (.slice q)) = false →
      (x.poison = false → Reaches (.reductionApply q) s fun d' => only d' ∧ idle d' ∧ Sent s.dev.net (p.req.reply .writeAck (.slice q)) d' ∧ Counted .ucSlReds [q] s.dev d' ∧
        line k { x with data := reduceLine (p.req.ty / 4) (p.req.ty % 4) x.data p.req.data p.req.be, dirty := true } d') ∧
      (x.poison = true → Reaches (.reductionApply q) s fun d' => idle d' ∧ (d'.slice q).lines = sl.lines ∧
        Sent s.dev.net { p.req.reply .writeAck (.slice q) with poison := true, code := 0x2506 } d' ∧ ∃ r, d'.reports = s.dev.reports ++ [r] ∧ r.code = 0x2506)) ∧
    (∀ (k : Fin 25) (ln : Fin 8589934592),
      let pa := ln.val * 128
      (s.dev.access .core pa = none → ∀ c ∈ [Instr.rds q .ok (some k) ln, .rdu q .ok k ln], Reaches c s fun d' => KeepsCompute s.dev d' ∧
        ∃ r, d'.reports = s.dev.reports ++ [r] ∧ r.code = 0x3101 ∧ r.access = 0x51 ∧ r.addr = pa) ∧
      ∀ l i x, s.dev.access .core pa = some l → homeSlice l.die l.x = q → sl.pend = [] → has (l.x / 128) i x → x.valid = true → x.dir = .v ∨ x.dir = .s →
        let got (shared : Bool) (d' : Dev) : Prop := d'.net = s.dev.net ∧ idle d' ∧ { agent := k, line := ln, data := x.data, poison := x.poison, shared := shared } ∈ d'.iodLines
        (Reaches (.rds q .ok (some k) ln) s fun d' => got true d' ∧ line i (share (64 + k) x) d') ∧ (Reaches (.rdu q .ok k ln) s fun d' => got false d' ∧ line i x d')) ∧
    (∀ r d1 p b k x, Serves (fun x => (x.kind == .replyNp || x.kind == .replyAck || x.kind == .replyData) && x.dst == .slice q) s.dev r d1 → r.src = .bay b → b < 64 →
      sl.pend = [p] → p.phase = .snoop [b] → has p.req.loc k x → r.loc = p.req.loc → x.dir = .x b → x.presence = 1#96 <<< b → x.valid = true → ∀ c, p.req.src = .bay c → c ≠ b → c < 64 → (s.dev.die (c / 8)).st = 2 →
      let dirty := r.kind = .replyData
      let y : SLine := { x with data := if dirty then r.data else x.data, poison := if dirty then r.poison else x.poison, dirty := x.dirty || decide dirty, valid := true }
      (p.req.kind = .rds → Reaches (.snoopReply q) s fun d' => only d' ∧ idle d' ∧ Sent d1.net (grant p.req y 0) d' ∧
        line k { y with dir := .s, presence := if r.kind = .replyNp then 1#96 <<< c else 1#96 <<< b ||| 1#96 <<< c } d') ∧
      (p.req.kind = .rdx → Reaches (.snoopReply q) s fun d' => only d' ∧ idle d' ∧ Sent d1.net (grant p.req y 1) d' ∧ line k (own c y) d')) ∧
    (∀ m d1 p k x b, Serves (fun x => x.kind == .wb && x.dst == .slice q) s.dev m d1 → m.src = .bay b → (s.dev.die (b / 8)).st = 2 → s.dev.mirOf (m.line * 128) = [] →
      sl.pend = [p] → p.phase = .snoop [b] → has p.req.loc k x → m.loc = p.req.loc → x.dir = .x b → Reaches (.wb q .ok) s fun d' => only d' ∧ (d'.slice q).pend = [p] ∧
        line k { x with data := m.data, poison := m.poison, valid := true, dirty := true, dir := .v, presence := 0 } d' ∧
        Sent d1.net { kind := .wbAck, src := .slice q, dst := m.src, line := m.line, loc := m.loc } d') ∧
    (∀ m d1 p k x c, Serves (fun x => x.kind == .hbmData && x.dst == .slice q) s.dev m d1 → sl.pend = [p] → p.phase = .fill k → p.req.loc = m.loc → has m.loc k x →
      p.req.src = .bay c → c < 64 → (s.dev.die (c / 8)).st = 2 → p.req.kind = .rds ∨ p.req.kind = .rdx → x.dir = .v →
      let y : SLine := { x with data := m.data, poison := m.poison, valid := true }
      Reaches (.sliceHbmFill q) s fun d' => only d' ∧ idle d' ∧ line k (if p.req.kind = .rds then share c y else own c y) d' ∧
        Sent d1.net (grant p.req y (if p.req.kind = .rds then 0 else 1)) d') ∧
    ∀ p w k shelf c', sl.pend = [p] → p.phase = .noWay → s.dev.winFind (p.req.line * 128) = some w → s.dev.choosePlace q p.req.loc w (p.req.line * 128) = some (k, shelf, c') →
      sl.find p.req.loc = none → sl.lines.find? k = none → p.req.kind = .rds ∨ p.req.kind = .rdx → Reaches (.sliceFillWaitRetry q) s fun d' => only d' ∧ pends p.req (.fill k) d' ∧
        line k { line := p.req.line, loc := p.req.loc, shelf := shelf, cls := c' } d' ∧ Sent s.dev.net (read p.req) d'

/-- The window table (R294, R298, R299). -/
def Obligations.WindowTable : Prop :=
  ∀ (s : State) (e : Fin 144) (base sizem1 : Fin 1024), s.dev.live = true →
    let w := s.dev.win e
    let set := Instr.windowValidSet e base sizem1
    let clear := Instr.windowValidClear e base sizem1
    let word (v : Bool) : W32 := BitVec.ofNat 32 (base + sizem1 * 2 ^ 16 + b2n v * 2 ^ 31)
    let shut : Prop := e.val < 16 ∧ s.dev.regBit .secStatus [] 31 = true
    let reports (code master access : Nat) (d' : Dev) : Prop := ∃ r, d'.reports = s.dev.reports ++ [r] ∧ r.code = code ∧ r.master = master ∧ r.access = access
    let same (d' : Dev) : Prop := KeepsQueues s.dev d' ∧ d'.benches = s.dev.benches ∧ d'.net = s.dev.net ∧ d'.bays = s.dev.bays ∧ d'.slices = s.dev.slices ∧ d'.hbm = s.dev.hbm
    let refused (why : Nat) (d' : Dev) : Prop := KeepsCompute s.dev d' ∧ same d' ∧ RegsBut [RegName.hbmMapStatus.addr []] s.dev d' ∧ d'.winFlush = s.dev.winFlush ∧
      reports 0x3102 0xF820 0 d' ∧
      d'.reg .hbmMapStatus [] = if s.dev.regBit .hbmMapStatus [] 31 then s.dev.reg .hbmMapStatus [] else BitVec.ofNat 32 (2 ^ 31 + e * 2 ^ 8 + why)
    (∀ c v, c = set ∧ v = true ∨ c = clear ∧ v = false → shut →
      (word v = s.dev.reg .hbmWinBase [e] → Completes c s s.dev) ∧
      (word v ≠ s.dev.reg .hbmWinBase [e] → Reaches c s fun d' => RegsBut [RegName.secErrStatus.addr []] s.dev d' ∧ d'.regBit .secErrStatus [] 1 = true ∧
        reports 0x8102 0xF840 0x80 d' ∧ KeepsCompute s.dev d' ∧ same d')) ∧
    (¬ shut →
      (w.busy = true ∨ w.valid = true → Reaches set s (refused 8)) ∧
      (w.busy = true → Reaches clear s (refused 8)) ∧
      (w.busy = false → w.valid = false →
        let new : Win := { w with base := base, size := sizem1 + 1, valid := true }
        (∀ why, s.dev.winReason new false = some why → Reaches set s (refused why)) ∧
        (s.dev.winReason new false = none → Reaches set s (fun d' => same d' ∧
          d'.reg .hbmWinBase [e] = word true ∧ (d'.win e).busy = true ∧ (∀ pa, (d'.win e).holds pa = false) ∧ d'.winFlush.find? e = some (base.val, sizem1.val + 1) ∧
          (∀ i ∈ w.dies, (s.dev.die i).st = 0 → (d'.die i).st = 1) ∧ (∀ i, i ∉ w.dies → d'.die i = s.dev.die i) ∧
          RegsBut (RegName.hbmWinBase.addr [e] :: RegName.hbmWinState.addr [e] :: w.dies.map fun i => RegName.pwrDieCtl.addr [i]) s.dev d') ∧
          base.val + sizem1 + 1 ≤ 1024 ∧ w.mode ≠ 3 ∧ (∀ v, v < 144 → v ≠ e → (s.dev.win v).valid = true →
            (s.dev.win v).base + (s.dev.win v).size ≤ base ∨ base + sizem1 + 1 ≤ (s.dev.win v).base) ∧
          (∀ k, w.owner = some k → w.mgmt = false ∧ ∀ i ∈ w.dies, s.dev.instOfDie i = k)) ∧
        Reaches clear s fun d' => d' = { s.dev with regs := d'.regs } ∧ d'.reg .hbmWinBase [e] = word false ∧ RegsBut [RegName.hbmWinBase.addr [e]] s.dev d') ∧
      (w.busy = false → w.valid = true →
        (∀ k, w.owner = some k → s.dev.instBusy k = true → Reaches clear s (refused 1)) ∧
        ((∀ k, w.owner = some k → s.dev.instBusy k = false) → Reaches clear s fun d' => KeepsCompute s.dev d' ∧ same d' ∧ d'.reg .hbmWinBase [e] = word false ∧
          (d'.win e).busy = true ∧ d'.winFlush.find? e = some (w.base, w.size) ∧ RegsBut [RegName.hbmWinBase.addr [e], RegName.hbmWinState.addr [e]] s.dev d'))) ∧
    (∀ a n, s.dev.winFlush.find? e = some (a, n) → s.dev.rangeActive a n = false →
      let hit (x : SLine) : Prop := a * 2 ^ 23 ≤ x.line ∧ x.line < (a + n) * 2 ^ 23
      let ended (d' : Dev) : Prop := (d'.win e).busy = false ∧ d'.winFlush.find? e = none ∧ (d'.win e).valid = w.valid ∧ (∀ q, ∀ c ∈ (d'.slice q).lines.cells, ¬ hit c.2) ∧
        RegsBut [RegName.hbmWinState.addr [e]] s.dev d' ∧ KeepsQueues s.dev d' ∧ d'.benches = s.dev.benches
      (w.valid = true → (∀ i ∈ w.dies, s.dev.powering i = false) → (∀ q, ∀ c ∈ (s.dev.slice q).lines.cells, ¬ hit c.2) →
        Reaches (.windowBusyEnd e) s fun d' => ended d' ∧
          ∀ i x, i < 8 → x < 2 ^ 37 → (i ∈ w.dies ∧ (w.doff * 2 ^ 30 ≤ x ∧ x < (w.doff + w.backed) * 2 ^ 30 ∨
              w.detecting = false ∧ 124 * 2 ^ 30 + w.doff * 2 ^ 25 ≤ x ∧ x < 124 * 2 ^ 30 + (w.doff + w.backed) * 2 ^ 25) →
            s.dev.channelFailed i (x / 128) = false → d'.hbm.read (i * 2 ^ 37 + x) = 0 ∧ d'.hbmBad i (x / 128) = false)) ∧
      (w.valid = false → ∀ q k x, (s.dev.slice q).lines.cells = [(k, x)] → (∀ p, p ≠ q → ∀ c ∈ (s.dev.slice p).lines.cells, ¬ hit c.2) → hit x → x.dir = .v → x.valid = true →
        Reaches (.windowBusyEnd e) s fun d' => ended d' ∧
          (x.dirty = true → s.dev.channelFailed (q / 16) x.loc = false → d'.hbmLine (q / 16) x.loc = x.data ∧ d'.hbmBad (q / 16) x.loc = x.poison) ∧
          (x.dirty = false ∨ s.dev.channelFailed (q / 16) x.loc = true → d'.hbm = s.dev.hbm)))

/-- The HBM controllers (R302 to R307). -/
def Obligations.HbmControllers : Prop :=
  ∀ (s : State) (q : SliceIx), s.dev.live = true → (s.dev.die (q / 16)).st = 2 →
    let me := Agent.slice q
    let master : Nat := q.val / 16 * 0x1000 + 0x880 + q.val % 16
    let memory (d' : Dev) : Prop := d'.dies = s.dev.dies ∧ d'.benches = s.dev.benches ∧ d'.bays = s.dev.bays ∧
      ∀ z, (d'.slice z).lines = (s.dev.slice z).lines ∧ (d'.slice z).pend = (s.dev.slice z).pend
    let stored (d' : Dev) : Prop := d'.hbm = s.dev.hbm ∧ d'.hbmPoison = s.dev.hbmPoison
    let quiet (d' : Dev) : Prop := d'.reports = s.dev.reports
    let cause (code bit acc addr : Nat) (d' : Dev) : Prop := d'.regBit .hbmCtErrStatus [q] bit = true ∧
      ∃ r, d'.reports = s.dev.reports ++ [r] ∧ r.code = code ∧ r.master = master ∧ r.access = acc ∧ r.addr = addr
    let counts (r : RegName) (hi lo : Nat) (d' : Dev) : Prop := d'.regFld r [q] hi lo = min 0xFFFF (s.dev.regFld r [q] hi lo + 1)
    let prior (k : MsgKind) (m : Msg) : Bool := (s.dev.net.takeWhile (· != m)).any fun x => x.kind == k && x.dst == me && x.loc == m.loc
    let gone (m : Msg) (wr : Bool) : List CheckLine := if s.dev.correcting m.line then (((s.dev.slice q).useCheck (checkLoc m.loc) wr).drop 256).filter (·.dirty) else []
    let beside (m : Msg) (wr : Bool) (d' : Dev) : Prop := (∀ x, (∀ c ∈ gone m wr, x < hbmAt (q / 16) c.loc ∨ hbmAt (q / 16) c.loc + 128 ≤ x) →
        wr = false ∨ x < hbmAt (q / 16) m.loc ∨ hbmAt (q / 16) m.loc + 128 ≤ x → d'.hbm.read x = s.dev.hbm.read x) ∧
      ∀ l, (∀ c ∈ gone m wr, c.loc ≠ l) → wr = false ∨ l ≠ m.loc → d'.hbmBad (q / 16) l = s.dev.hbmBad (q / 16) l
    (∀ m d1 f, Serves (fun m => m.kind == .hbmRead && m.dst == me && !prior .hbmWrite m) s.dev m d1 → (∀ c ∈ gone m false, c.loc ≠ m.loc) →
      let hold := s.dev.hbmLine (q / 16) m.loc
      let gives (data : Line) (poison : Bool) (d' : Dev) : Prop := memory d' ∧ beside m false d' ∧
        Sent d1.net { kind := .hbmData, src := me, dst := me, line := m.line, loc := m.loc, data := data, poison := poison } d'
      let failed := s.dev.channelFailed (q / 16) m.loc
      let bad := s.dev.hbmBad (q / 16) m.loc
      let cor := s.dev.correcting m.line
      let fetched := s.dev.checkFetched q m.line m.loc
      let addr := m.line * 128
      (failed = true → Reaches (.hbmRead q f) s fun d' => gives hold true d' ∧ quiet d' ∧ d'.regs = s.dev.regs) ∧
      (failed = false → bad = true → Reaches (.hbmRead q f) s fun d' => gives hold true d' ∧ quiet d' ∧ Counted .hbmCtPoisonRd [q] s.dev d') ∧
      (failed = false → bad = false →
        (f = .ok ∨ fetched = false ∧ (∃ l, f = .checkLine l) → Reaches (.hbmRead q f) s fun d' => gives hold false d' ∧ quiet d' ∧ d'.regs = s.dev.regs) ∧
        (f = .single → Reaches (.hbmRead q f) s fun d' => gives hold false d' ∧ cause 0x3201 0 0x58 addr d' ∧ counts .hbmCtCeCount 15 0 d') ∧
        (f = .symbol → cor = true → Reaches (.hbmRead q f) s fun d' => gives hold false d' ∧ cause 0x3202 1 0x58 addr d' ∧ counts .hbmCtCeCount 31 16 d') ∧
        (f = .symbol → cor = false → Reaches (.hbmRead q f) s fun d' => (∃ l, gives l false d') ∧ quiet d') ∧
        (f = .uncorrectable → s.dev.mirOf addr = [] → Reaches (.hbmRead q f) s fun d' => gives hold true d' ∧
          (cor = true → cause 0x3203 2 0x58 addr d' ∧ counts .hbmCtUeCount 15 0 d') ∧ (cor = false → cause 0x3204 3 0x58 addr d' ∧ counts .hbmCtUeCount 31 16 d')) ∧
        (f = .checkLine [] → fetched = true → Reaches (.hbmRead q f) s fun d' => gives hold false d' ∧ cause 0x3207 5 0x58 addr d') ∧
        (∀ i : Fin 32, f = .checkLine [i] → fetched = true → (∀ a, s.dev.repairable a = none) →
          let x := (checkData (checkLoc m.loc)).getD i 0
          (x ≠ m.loc → s.dev.channelFailed (q / 16) x = false → Reaches (.hbmRead q f) s fun d' =>
            d'.hbmBad (q / 16) x = true ∧ d'.regBit .hbmCtErrStatus [q] 2 = true ∧ d'.regBit .hbmCtErrStatus [q] 5 = true ∧
            counts .hbmCtUeCount 15 0 d' ∧ ∃ y, y ∈ d'.net ∧ y.kind = .hbmData ∧ y.line = m.line ∧ y.poison = false) ∧
          (x = m.loc → Reaches (.hbmRead q f) s fun d' => gives hold true d' ∧ d'.regBit .hbmCtErrStatus [q] 2 = true ∧ d'.regBit .hbmCtErrStatus [q] 5 = true ∧
            counts .hbmCtUeCount 15 0 d')))) ∧
    (∀ m d1 bad, Serves (fun m => m.kind == .hbmWrite && m.dst == me && !prior .hbmRead m) s.dev m d1 →
      let writes (d' : Dev) : Prop := d'.net = d1.net ∧ d'.dies = s.dev.dies ∧ d'.hbmLine (q / 16) m.loc = m.data ∧ d'.hbmBad (q / 16) m.loc = m.poison ∧ beside m true d' ∧
        ∀ z, (d'.slice z).lines = (s.dev.slice z).lines ∧ (d'.slice z).pend = (s.dev.slice z).pend
      (s.dev.channelFailed (q / 16) m.loc = true → Completes (.hbmWrite ⟨q, bad⟩) s d1) ∧
      (s.dev.channelFailed (q / 16) m.loc = false → (bad = none ∨ s.dev.checkFetched q m.line m.loc = false → Reaches (.hbmWrite ⟨q, bad⟩) s fun d' =>
          writes d' ∧ quiet d' ∧ d'.regs = s.dev.regs) ∧
        (bad = some [] → s.dev.checkFetched q m.line m.loc = true → Reaches (.hbmWrite ⟨q, bad⟩) s fun d' => writes d' ∧ cause 0x3207 5 0x58 (m.line * 128) d'))) ∧
    Completes (.hbmRefresh q) s s.dev ∧
    (∀ n, Reaches (.hbmEcs q n) s fun d' => memory d' ∧ stored d' ∧ d'.net = s.dev.net ∧
      let old := s.dev.regFld .hbmCtEcs [q] 15 0
      let lim := s.dev.regFld .hbmCtEcsThr [q] 15 0
      d'.regFld .hbmCtEcs [q] 15 0 = min 0xFFFF (old + n) ∧
      (if lim ≠ 0 ∧ old ≤ lim ∧ lim < min 0xFFFF (old + n) then cause 0x3208 6 0x5A (2 * (q / 16) + q % 16 / 8) d' else quiet d')) ∧
    ∀ k : Fin 4,
      let stack : Nat := 2 * (q.val / 16) + q.val % 16 / 8
      let st := s.dev.hbmStacks.getD stack {}
      let soon : Prop := ∃ t, st.last = some t ∧ s.dev.ticks < t + 50000
      let down (d' : Dev) : Prop := d'.regBit .hbmCtStatus [q] (8 + k) = true ∧ cause 0x3206 4 0x5A stack d'
      (soon → Completes (.hbmRetrain q k true) s s.dev ∧ Completes (.hbmRetrain q k false) s s.dev ∧ Reaches (.caParityError q k true) s down ∧ Reaches (.caParityError q k false) s down) ∧
      (¬ soon → ∀ ok,
        (st.skip = true → Reaches (.hbmRetrain q k ok) s fun d' => d' = { s.dev with hbmStacks := d'.hbmStacks } ∧ (d'.hbmStacks.getD stack {}).skip = false) ∧
        (st.skip = false → Reaches (.hbmRetrain q k ok) s fun d' => memory d' ∧ stored d' ∧ d'.hbmStacks.find? stack = some { last := some s.dev.ticks, skip := false } ∧
          counts .hbmCtRetrain 15 0 d' ∧ (ok = true → quiet d') ∧ (ok = false → down d')) ∧
        Reaches (.caParityError q k ok) s fun d' => memory d' ∧ stored d' ∧ d'.hbmStacks.find? stack = some { last := some s.dev.ticks, skip := true } ∧
          counts .hbmCtRetrain 15 0 d' ∧ counts .hbmCtRetrain 31 16 d' ∧ (ok = true → quiet d') ∧ (ok = false → down d'))

/-- Command queues and their plain commands (R311 to R316, R328 to R331). -/
def Obligations.CommandQueues : Prop :=
  (∀ (d : Dev) (q : Nat) (c : Cmd) (st info fault : Nat), q < 512 → (d.queue q).run = some c →
    let f := if c.fault = 0 then fault else c.fault
    let bytes : List Byte := leBytes (q * 2 ^ 23 + c.seq) 4 ++ leBytes st 2 ++ leBytes (c.n 0 1) 1 ++
      leBytes ((if c.seq / 2 ^ d.queueDepth q % 2 = 0 then 1 else 0) + 2 * (c.launch.map fun l => b2n l.ranBack).getD 0 + 4 * b2n c.overrun) 1 ++
      leBytes (c.n 4 4) 4 ++ leBytes f 2 ++ [0, 0] ++ leBytes info 8 ++ leBytes d.time 8
    let a := d.reg64 .cpQcbaseLo .cpQcbaseHi [q] + 32 * (c.seq % 2 ^ d.queueDepth q)
    let fn := d.queueFn q
    let v := d.regFld .cpQcfg [q] 10 0
    let device := d.regBit .cpQcfg [q] 28
    let irq : Prop := c.n 1 1 % 2 = 1 ∧ d.fnOn fn = true ∧ v < d.vecCount fn
    let left (d' : Dev) : Prop := d'.queue q = { d.queue q with run := none } ∧ d'.queueDone q = (c.seq + 1) % 2 ^ 23 ∧ (∀ r, r ≠ q → d'.queue r = d.queue r) ∧ d'.benches = d.benches
    (device = false → ∃ d1, left d1 ∧ RegsBut [RegName.cpQdone.addr [q]] d d1 ∧ KeepsCompute d d1 ∧
      ((d.fn fn).d3 = false → a % 4096 ≤ 4064 → d1.out = d.out ++ [.hostWrite fn a bytes false]) ∧ ((d.fn fn).d3 = true → d1.out = d.out ∧ d1.heldMsgs = d.heldMsgs ++ [(fn, .write a bytes false)]) ∧
      (¬ irq → d.finish q st info fault = d1) ∧ (irq → d.finish q st info fault = d1.msixEvent fn v)) ∧
    (device = true → d.mapped (d.queueWho q) true a 32 = false → left (d.finish q st info fault) ∧ (d.finish q st info fault).queueErr q = true ∧
      (d.finish q st info fault).out = d.out ∧ ∃ r, (d.finish q st info fault).reports = d.reports ++ [r] ∧ r.code = 0x9102 ∧ r.access = 0x68 ∧ r.addr = a) ∧
    (∀ l k x, device = true → d.mapped (d.queueWho q) true a 32 = true → d.access (d.queueWho q) a = some l → HomeHolds d l k x → a % 128 ≤ 96 → d.mirOf a = [] →
      ∃ d1, left d1 ∧ RegsBut [RegName.cpQdone.addr [q], RegName.ucSlHits.addr [homeSlice l.die l.x]] d d1 ∧ d1.out = d.out ∧
        (∃ y, (d1.slice (homeSlice l.die l.x)).lines.find? k = some y ∧ y.data = mergeLine x.data (linePut (a % 128) bytes) (beRange (a % 128) 32) ∧ y.dirty = true) ∧
        (¬ irq → d.finish q st info fault = d1) ∧ (irq → d.finish q st info fault = d1.msixEvent fn v)) ∧
    (∀ l, device = true → d.mapped (d.queueWho q) true a 32 = true → d.access (d.queueWho q) a = some l → (d.die l.die).st = 2 → a % 128 ≤ 96 →
      (∃ p ∈ (d.slice (homeSlice l.die l.x)).pend, p.req.loc = l.x / 128) →
      ((d.finish q st info fault).queue q).run = some { c with fault := f, fin := some (st, info) } ∧ (d.finish q st info fault).queueDone q = d.queueDone q)) ∧
  ∀ (s : State) (q : QueueIx), s.dev.live = true →
    let d := s.dev
    let who := d.queueWho q
    let fn := d.queueFn q
    let base := d.reg64 .cpQbaseLo .cpQbaseHi [q]
    let cbase := d.reg64 .cpQcbaseLo .cpQcbaseHi [q]
    let dep := d.regFld .cpQcfg [q] 20 16
    let good : Prop := 6 ≤ dep ∧ dep ≤ 16 ∧ base % 64 = 0 ∧ cbase % 32 = 0 ∧ (d.regBit .cpQcfg [q] 29 = true → d.mapped who false base (64 * 2 ^ dep) = true) ∧
      (d.regBit .cpQcfg [q] 28 = true → d.mapped who true cbase (32 * 2 ^ dep) = true)
    (d.queueEn q = true → Completes (.queueEnable q) s d) ∧
    (d.queueEn q = false → good → Reaches (.queueEnable q) s fun d' => d'.queueEn q = true ∧ d'.queueTail q = 0 ∧ d'.cqHead q = 0 ∧ d'.queueDone q = 0 ∧
      d' = { d with regs := d'.regs } ∧ RegsBut [RegName.cpQcfg.addr [q], RegName.cpQtail.addr [q], RegName.cpQhead.addr [q], RegName.cpQdone.addr [q]] d d') ∧
    (d.queueEn q = false → ¬ good → Reaches (.queueEnable q) s fun d' => d'.queueEn q = false ∧ d'.regBit .cpQstate [q] 4 = true ∧ d' = { d with regs := d'.regs } ∧ RegsBut [RegName.cpQstate.addr [q]] d d') ∧
    Reaches (.queueDisable q) s (fun d' => d'.queueEn q = false ∧ d'.queueErr q = false ∧
      ((d.queue q).fetch = none → d'.queue q = d.queue q ∧ d'.orphans = d.orphans) ∧
      (∀ h, (d.queue q).fetch = some h → (d'.queue q).fetch = none ∧ ((d.queue q).run = none → (d'.queue q).run = none ∧ d'.orphans = d.orphans ++ [(q.val, h)])) ∧ (∀ r, r ≠ q.val → d'.queue r = d.queue r) ∧
      RegsBut [RegName.cpQcfg.addr [q], RegName.cpQstate.addr [q]] d d' ∧ KeepsCompute d d' ∧ d'.out = d.out) ∧
    (∀ v, d.writesWait fn = true → Completes (.doorbell q v) s (d.hostHold (.doorbell fn q v))) ∧
    (∀ v : Fin 8388608, d.writesWait fn = false → let ahead := ((v.val : Int) - d.queueDone q) % 2 ^ 23
      (ahead ≤ 2 ^ dep → Reaches (.doorbell q v) s fun d' => d'.queueTail q = v ∧ d' = { d with regs := d'.regs } ∧ RegsBut [RegName.cpQtail.addr [q]] d d') ∧
      (2 ^ dep < ahead → Reaches (.doorbell q v) s fun d' => d'.queueTail q = d.queueTail q ∧ KeepsQueues d d' ∧ ∃ r, d'.reports = d.reports ++ [r] ∧ r.code = 0x9101 ∧ r.master = 0xF820)) ∧
    (let turn (r : Nat) : Nat := ((if d.queueMgr r then 8 else d.queueInst r) + 8 - d.cpTurn) % 9
     let may : Prop := d.queueEn q = true ∧ d.queueStopped q = false ∧ d.queueErr q = false ∧ (d.queue q).run = none ∧ (d.queue q).fetch = none ∧ d.cqHead q ≠ d.queueTail q ∧
        (d.fn fn).d3 = false ∧ (d.fn fn).flr = false ∧ (d.queues.keys.filter fun r => (d.queue r).run.isSome || (d.queue r).fetch.isSome).length < 4 ∧
        ∀ r, r < 512 → d.fetchable r = true → turn q ≤ turn r
     let dt : Dev := { d with cpTurn := if d.queueMgr q then 8 else d.queueInst q }
     let a := base + 64 * (d.cqHead q % 2 ^ dep)
     let stops (d d' : Dev) : Prop := d'.queueErr q = true ∧ (d'.queue q).fetch = none ∧ (d'.queue q).run = (d.queue q).run ∧ d'.cqHead q = d.cqHead q
     let fetched (d1 : Dev) (pkt : List Byte) : Dev :=
       let c : Cmd := { seq := d1.cqHead q, pkt := pkt }
       let d2 := (d1.setRegFld .cpQhead [q] 22 0 (d1.cqHead q + 1)).setQueue q { d1.queue q with fetch := none, run := some c }
       match d2.packetRefusal q c with
       | some st => d2.finish q st 0
       | none => d2
     let failed : List Instr := [.hostReadCompletion q 1 false [], .hostReadCompletion q 2 false [], .hostReadCompletion q 0 true []]
     (¬ may → Completes (.queueFetch q) s d) ∧
     (may → d.regBit .cpQcfg [q] 29 = false → Reaches (.queueFetch q) s fun d' => d' = { dt with queues := d'.queues, out := d.out ++ [.hostRead fn a 64 false] } ∧
       d'.queue q = { d.queue q with fetch := some { fn := fn, addr := a, len := 64, sentAt := d.ticks } } ∧ ∀ r, r ≠ q.val → d'.queue r = d.queue r) ∧
     (∀ l k x, may → d.regBit .cpQcfg [q] 29 = true → d.access who a = some l → HomeHolds d l k x → a % 128 ≤ 64 → Completes (.queueFetch q) s (fetched (dt.usedAt (homeSlice l.die l.x) k) (x.data.slice (a % 128) 64))) ∧
     (may → d.regBit .cpQcfg [q] 29 = true → d.access who a = none → Reaches (.queueFetch q) s fun d' => stops d d' ∧ ∃ r, d'.reports = d.reports ++ [r] ∧ r.code = 0x9102 ∧ r.addr = a) ∧
     (∀ l, may → d.regBit .cpQcfg [q] 29 = true → d.access who a = some l → (d.die l.die).st ≠ 2 → Reaches (.queueFetch q) s fun d' => stops d d' ∧
       ∃ r t, d'.reports = d.reports ++ [r, t] ∧ r.code = 0x5108 ∧ t.code = 0x9102 ∧ t.addr = a) ∧
     (d.orphan q = none →
       let fetchFails (i : Instr) (d1 : Dev) (h : HostRead) : Prop := Reaches i s fun d' => stops d1 d' ∧
         ∃ r t, d'.reports = d1.reports ++ [r, t] ∧ r.code = 0x9202 ∧ t.code = 0x9102 ∧ t.addr = h.addr
       let cmdFails (i : Instr) (d1 : Dev) (c : Cmd) (h : HostRead) : Prop := ∃ d2 : Dev, (d2.queue q).run = some { c with host := none } ∧
         (∃ r, d2.reports = d1.reports ++ [r] ∧ r.code = 0x9202 ∧ r.addr = h.addr) ∧ Completes i s (d2.finish q 0x22 (if c.op = 0x20 ∨ c.op = 0x21 then c.off else 0) 0x9202)
       (∀ h, (d.queue q).fetch = some h →
         (∀ data : List Byte, data.length = h.len → Completes (.hostReadCompletion q 0 false data) s (fetched d data)) ∧ (∀ i ∈ failed, fetchFails i d h) ∧
         d.hostDue q = some (h.sentAt + (d.fn h.fn).cto) ∧
         ∀ d1, Comes (·.hostDue q) d d1 → d1.queue q = d.queue q → fetchFails (.completionTimeout q) d1 h) ∧
       ∀ c h, (d.queue q).fetch = none → (d.queue q).run = some c → c.host = some h →
         (∀ data : List Byte, data.length = h.len → Completes (.hostReadCompletion q 0 false data) s (d.setQueue q { d.queue q with run := some { c with host := none, got := c.got ++ data } })) ∧
         (∀ i ∈ failed, cmdFails i d c h) ∧ d.hostDue q = some (h.sentAt + (d.fn h.fn).cto) ∧
         ∀ d1, Comes (·.hostDue q) d d1 → d1.queue q = d.queue q → cmdFails (.completionTimeout q) d1 c h) ∧
     (∀ h, d.orphan q = some h → (∀ data, Reaches (.hostReadCompletion q 0 false data) s fun d' => d' = { d with orphans := d'.orphans } ∧ d'.orphans = d.orphans.erase (q.val, h)) ∧
       ∀ i ∈ failed, Reaches i s fun d' => KeepsQueues d d' ∧ ∃ r, d'.reports = d.reports ++ [r] ∧ r.code = 0x9202 ∧ r.addr = h.addr) ∧
     (∀ c : Cmd, (c.op ∉ [0x00, 0x01, 0x02, 0x03, 0x10, 0x11, 0x20, 0x21, 0x22, 0x30, 0x40, 0x41, 0x42, 0x50, 0x51, 0x52] ∨ 1 < c.n 1 1 → d.packetRefusal q c = some 1) ∧
       (c.op = 0x51 ∨ c.op = 0x52 → d.queueMgr q = false → d.packetRefusal q c = some 1 ∨ d.packetRefusal q c = some 3))) ∧
    ∀ c, (d.queue q).run = some c → c.host = none →
      let is (op : Nat) : Prop := c.op = op ∧ c.fin = none
      let complete (h : Nat) : Prop := ((d.queueDone (h / 2 ^ 23) : Int) - (h % 2 ^ 23 : Nat) - 1) % 2 ^ 23 < 2 ^ 22
      let done : Prop := ∀ i, i < c.n 8 1 → complete (c.n (0xC + 4 * i) 4)
      let writes (i : Instr) (space a : Nat) (bs : List Byte) (info : Nat) : Prop :=
        (space = 1 → Completes i s ((d.hostWrite fn a bs false).finish q 0 info)) ∧
        (space = 2 →
          (d.fabTarget (d.queueInst q) a true = none → EndsCmd q c i s (fun d1 => ∃ r, d1.reports = d.reports ++ [r] ∧ r.code = 0x6205) 2 0 0x6205) ∧
          ∀ p, d.fabTarget (d.queueInst q) a true = some p → (d.peerDown p = true → Completes i s (d.finish q 0x22 0 0x6201)) ∧
            (d.peerDown p = false → Reaches i s fun d' => ∃ n, (d'.queue q).run = some { c with phase := 2, got := leBytes info 8, acks := n })) ∧
        (space = 0 → d.mapped who true a bs.length = false → Completes i s (d.finish q 2 0)) ∧
        (∀ l k x, space = 0 → d.mapped who true a bs.length = true → d.access who a = some l → HomeHolds d l k x → a % 128 + bs.length ≤ 128 → d.mirOf a = [] →
          ∃ d1 : Dev, d1 = { d with slices := d1.slices, regs := d1.regs } ∧ RegsBut [RegName.ucSlHits.addr [homeSlice l.die l.x]] d d1 ∧ Completes i s (d1.finish q 0 info) ∧
            ∃ y, (d1.slice (homeSlice l.die l.x)).lines.find? k = some y ∧ y.data = mergeLine x.data (linePut (a % 128) bs) (beRange (a % 128) bs.length))
      (is 0x00 → Completes (.nop q) s (d.finish q 0 0)) ∧ (∀ st i, c.op = 0x00 → c.fin = some (st, i) → Completes (.nop q) s (d.putRecord q c st i)) ∧
      (is 0x01 → done → Completes (.fence q) s (d.finish q 0 0)) ∧ (is 0x01 → ¬ done → Completes (.fence q) s (d.setQueue q { d.queue q with run := some { c with phase := 1 } })) ∧
      (is 0x01 → c.phase = 1 → done → Completes (.fenceComplete q) s (d.finish q 0 0)) ∧ (is 0x01 → ¬ done → Completes (.fenceComplete q) s d) ∧
      (is 0x02 → c.phase = 0 → writes (.timestamp q) (c.n 8 1) (c.n 0x10 8) (leBytes d.time 8) d.time) ∧
      (is 0x03 →
        let what := c.n 8 1
        let ix := c.n 9 1
        let bytes := d.queryBytes q what ix
        (what = 1 ∧ 16 ≤ ix ∨ what = 2 ∧ 512 / d.instN ≤ ix → Completes (.query q) s (d.finish q 1 0)) ∧
        (¬ (what = 1 ∧ 16 ≤ ix ∨ what = 2 ∧ 512 / d.instN ≤ ix) → bytes.length = 64 ∧ (what = 0 → bytes.take 8 = leBytes (d.reg64 .datFeatLo .datFeatHi []) 8) ∧
          (c.phase = 0 → writes (.query q) (c.n 0xA 1) (c.n 0x10 8) bytes 0)) ∧
      ∀ i, i = .timestamp q ∧ is 0x02 ∨ i = .query q ∧ is 0x03 ∧ ¬ (c.n 8 1 = 1 ∧ 16 ≤ c.n 9 1 ∨ c.n 8 1 = 2 ∧ 512 / d.instN ≤ c.n 9 1) → c.phase = 2 →
        (c.acks ≠ 0 → Completes i s d) ∧ (c.acks = 0 → c.bad = none → Completes i s (d.finish q 0 (leNat c.got))) ∧
        ∀ st f x, c.acks = 0 → c.bad = some (st, f, x) → Completes i s (d.finish q st 0 f))

/-- COPY, FILL and SHELF_SET (R322, R324). -/
def Obligations.Transfers : Prop :=
  ∀ (s : State) (q : QueueIx) (c : Cmd), s.dev.live = true → (s.dev.queue q).run = some c → c.fin = none → c.host = none →
    let d := s.dev
    let who := d.queueWho q
    let fn := d.queueFn q
    let inst := d.queueInst q
    let total := c.n 0x20 8
    let source := c.n 8 1 % 4
    let target := c.n 8 1 / 4
    let src := c.n 0x10 8
    let dst := c.n 0x18 8
    let fresh : Prop := c.off = 0 ∧ c.phase = 0 ∧ c.got = [] ∧ c.acks = 0 ∧ c.bad = none
    let side (space a : Nat) (wr : Bool) : Prop := (space = 0 → d.mapped who wr a total = true) ∧ (2 ≤ space → ∃ k, d.fabTarget inst a wr = some k)
    let readable : Prop := side source src false
    let writable : Prop := side target dst true
    let pattern : List Byte := (List.range total).map fun i => BitVec.ofNat 8 (src >>> (8 * (i % 8)))
    let ro := d.regBit .hstCtl [] 0 && (d.fn fn).roEn
    let same (d1 : Dev) : Prop := KeepsCompute d d1 ∧ d1.regs = d.regs ∧ d1.reports = d.reports
    let hit (l : Loc) : Dev := d.count .ucSlHits [homeSlice l.die l.x] 31 0
    let quiet (d1 : Dev) : Prop := d1.out = d.out ∧ d1.heldMsgs = d.heldMsgs
    let line (a : Nat) (l : Loc) (k : Nat) (x : SLine) : Prop := d.access who a = some l ∧ HomeHolds d l k x
    let stored (a : Nat) (l : Loc) (k : Nat) (x : SLine) (bs : List Byte) (d1 : Dev) : Prop := quiet d1 ∧ d1.hbm = d.hbm ∧ d1.benches = d.benches ∧ d1.bays = d.bays ∧ d1.regs = (hit l).regs ∧
      ∃ y, (d1.slice (homeSlice l.die l.x)).lines.find? k = some y ∧ y.data = mergeLine x.data (linePut (a % 128) bs) (beRange (a % 128) bs.length) ∧ y.dirty = true
    let parts (ms : List (Nat × List Byte)) (a : Nat) (bs : List Byte) : Prop := ms.flatMap (·.2) = bs ∧ ∀ k, k < ms.length →
      (ms.getD k (0, [])).1 = a + ((ms.take k).flatMap (·.2)).length ∧ (ms.getD k (0, [])).1 % 4096 + (ms.getD k (0, [])).2.length ≤ 4096
    let both : List (Nat × Instr) := [(0x20, .copy q), (0x21, .fill q)]
    (∀ p ∈ both, c.op = p.1 →
      let readOk : Prop := c.op = 0x21 ∨ readable
      let fabric : Prop := ¬ readOk ∧ source = 2 ∨ readOk ∧ target = 2
      (fresh → ¬ (readOk ∧ writable) → (fabric → EndsCmd q c p.2 s (fun d1 => KeepsCompute d d1 ∧ quiet d1 ∧ ∃ r, d1.reports = d.reports ++ [r] ∧ r.code = 0x6205 ∧ r.access = 0x71) 2 0 0x6205) ∧
        (¬ fabric → Completes p.2 s (d.finish q 2 0))) ∧
      (∀ st f z, c.bad = some (st, f, z) → c.acks = 0 → Completes p.2 s (d.finish q st c.off f)) ∧
      (c.acks ≠ 0 → Completes p.2 s d) ∧
      (0 < c.off → total ≤ c.off → c.acks = 0 → c.bad = none → Completes p.2 s (d.finish q 0 total))) ∧
    (c.op = 0x21 → fresh → writable → 0 < total →
      (target = 1 → EndsCmd q c (.fill q) s (fun d1 => same d1 ∧ ∃ ms, parts ms dst pattern ∧ HostWrites fn ro ms d d1) 0 total 0) ∧
      (∀ l k x, target = 0 → line dst l k x → dst % 128 + total ≤ 128 → d.mirOf dst = [] → EndsCmd q c (.fill q) s (stored dst l k x pattern) 0 total 0) ∧
      (∀ k, target = 2 → d.fabTarget inst dst true = some k → (d.peerDown k = true → EndsCmd q c (.fill q) s (fun d1 => same d1 ∧ quiet d1) 0x22 0 0x6201) ∧
        (d.peerDown k = false → Reaches (.fill q) s fun d' => KeepsCompute d d' ∧ ∃ x, (d'.queue q).run = some x ∧ x.phase = 2 ∧ 0 < x.acks ∧ x.off = 0 ∧ x.pkt = c.pkt))) ∧
    (c.op = 0x20 → fresh → readable → writable → 0 < total →
      (∀ l k x, source = 0 → target = 1 → line src l k x → src % 128 + total ≤ 128 → dst % 4096 + total ≤ 4096 →
        EndsCmd q c (.copy q) s (fun d1 => KeepsBytes d d1 ∧ d1.regs = (hit l).regs ∧ d1.reports = d.reports ∧ HostWrites fn ro [(dst, x.data.slice (src % 128) total)] d d1) 0 total 0) ∧
      (source = 1 → target ≤ 2 → let n := min (min total (4096 - dst % 4096)) (min (128 * 2 ^ (d.fn fn).mrrs.val) (4096 - src % 4096))
        Completes (.copy q) s { d.setQueue q { d.queue q with run := some { c with host := some { fn := fn, addr := src, len := n, sentAt := d.ticks } } } with out := d.out ++ [.hostRead fn src n ro] }) ∧
      (∀ k, source = 2 → target ≤ 2 → d.fabTarget inst src false = some k → (d.peerDown k = true → Completes (.copy q) s (d.finish q 0x22 0 0x6201)) ∧
        (d.peerDown k = false → Reaches (.copy q) s fun d' => KeepsCompute d d' ∧ ∃ x, (d'.queue q).run = some x ∧ x.phase = 1 ∧ 0 < x.acks ∧ x.off = 0 ∧ x.pkt = c.pkt))) ∧
    (c.op = 0x20 → source = 1 → c.phase = 0 → c.acks = 0 → c.bad = none → c.got ≠ [] → c.off + c.got.length = total → (src + c.off) % 4096 + c.got.length ≤ 4096 →
      (dst + c.off) % 4096 + c.got.length ≤ 4096 → c.got.length ≤ 128 * 2 ^ (d.fn fn).mrrs.val →
      let a := dst + c.off
      (target = 1 → EndsCmd q c (.copy q) s (fun d1 => same d1 ∧ ∃ ms, parts ms a c.got ∧ HostWrites fn ro ms d d1) 0 total 0) ∧
      ∀ l k x, target = 0 → line a l k x → a % 128 + c.got.length ≤ 128 → d.mirOf a = [] → EndsCmd q c (.copy q) s (stored a l k x c.got) 0 total 0) ∧
    (c.op = 0x30 → c.phase = 0 →
      let i := c.n 9 1
      let clear := c.n 0xB 1 = 1
      let mine := c.n 0xA 1 = 8
      let w := c.n 0xC 4
      let base := c.n 0x10 8
      let size := c.n 0x18 8
      let shelf := c.n 8 1 = 0
      let o := if mine then 8 else inst
      let owned (x : Win) : Bool := if mine then decide (x.entry < 16) && !x.mgmt else x.owner == some o
      let fits : Prop := size ≠ 0 ∧ (shelf → 1 ≤ nfld w 14 8 ∧ nfld w 14 8 ≤ 72) ∧ d.covered owned 150 (base * 65536) (size * 65536) = true ∧
        ∀ r ∈ d.shelfRanges (c.n 8 1) o i, ¬ (base < r.1 + r.2 ∧ r.1 < base + size)
      let sets (lo sz cfg : RegName) (v : Nat) (d1 : Dev) : Prop := RegsBut [lo.addr [o, i], sz.addr [o, i], cfg.addr [o, i]] d d1 ∧
        (i < 32 → (d1.reg lo [o, i]).toNat = (if clear then 0 else base % 2 ^ 32) ∧ (d1.reg sz [o, i]).toNat = (if clear then 0 else size % 2 ^ 32) ∧ (d1.reg cfg [o, i]).toNat = if clear then 0 else v)
      (¬ clear → ¬ fits → Completes (.shelfSet q) s (d.finish q 2 0)) ∧
      (clear ∨ fits → shelf → Reaches (.shelfSet q) s fun d' => sets .ucShBase .ucShSize .ucShCfg (2 ^ 31 + nfld w 1 0 * 2 ^ 8 + nfld w 14 8) d' ∧
        d'.queue q = { d.queue q with run := some { c with phase := 1 } } ∧ d'.hbm = d.hbm ∧ d'.benches = d.benches ∧ d'.net = d.net ∧
        ∀ z k x, (d.slice z).lines.find? k = some x → (d'.slice z).lines.find? k = some (if x.shelf = some (32 * o + i) then { x with shelf := none, cls := .ordinary } else x)) ∧
      (clear ∨ fits → ¬ shelf → i < 8 → EndsCmd q c (.shelfSet q) s (fun d1 => KeepsCompute d d1 ∧
        sets .ucRwBase .ucRwSize .ucRwCfg (2 ^ 31 + nfld w 5 4 * 2 ^ 4 + nfld w 1 0) d1) 0 0 0)) ∧
    (c.op = 0x30 → c.phase = 1 → Completes (.shelfSweepDone q) s (d.finish q 0 0))

/-- Programs, sealing and quiescing (R204, R317, R318, R326, R327). That a LAUNCH which only waits for its benches does not make SEAL answer BUSY is the
model's choice (log 77). -/
def Obligations.ProgramsAndQuiesce : Prop :=
  (∀ (d : Dev) (inst slot i : Nat) (im : List Byte) (p : Place) (d1 : Dev), d.resideOne inst slot im i p = .inr d1 →
    let b := (inst * (8 / d.instN) + p.ldie) * 576 + p.y * 24 + p.x
    let code := (im.drop (((imSection im 2).map (·.off)).getD 0 + p.codeOff)).take p.codeSize
    BenchesBut b d d1 ∧ d1 = { d with benches := d1.benches } ∧ ∃ n, n < 4 ∧ ((d.bench b).ctxN n).valid = false ∧ (∀ k, k < n → ((d.bench b).ctxN k).valid = true) ∧
      let y := (d1.bench b).ctxN n
      y.valid = true ∧ y.prog = 16 * inst + slot ∧ y.place = i ∧ y.entry = p.entry ∧ y.partSize = p.part ∧ y.istrSize = p.istr ∧ y.save = p.save ∧ y.killed = false ∧
      (∀ k, k < 4 → k ≠ n → (d1.bench b).ctxN k = (d.bench b).ctxN k ∧ (((d.bench b).ctxN k).valid = true →
        let z := (d.bench b).ctxN k
        (y.partBase + p.part ≤ z.partBase ∨ z.partBase + z.partSize ≤ y.partBase) ∧ (y.istrBase + p.istr ≤ z.istrBase ∨ z.istrBase + z.istrSize ≤ y.istrBase))) ∧
      (d1.bench b).istore.readBytes (y.istrBase * 1024) code.length = code ∧ d1.bench b = { d1.bench b with split := imN im 0x19 1 }) ∧
  ∀ (s : State) (q : QueueIx) (c : Cmd), s.dev.live = true → (s.dev.queue q).run = some c → c.fin = none → c.host = none →
    let d := s.dev
    let inst := d.queueInst q
    let who := d.queueWho q
    let fn := d.queueFn q
    let outside (d1 : Dev) : Prop := d1.dies = d.dies ∧ d1.hbm = d.hbm ∧ d1.slices = d.slices ∧ d1.bays = d.bays ∧ d1.net = d.net
    (c.op = 0x10 →
      let slot := c.n 8 1
      let prog := 16 * inst + slot
      let space := c.n 0xA 1
      let a := c.n 0x10 8
      let size := c.n 0x18 4
      let busy : Prop := ∃ r x, r ∈ d.queuesOf inst ∧ (d.queue r).run = some x ∧ x.op = 0x11 ∧ x.fin = none ∧ (x.n 8 1 = slot ∨ x.n 9 1 = slot)
      let ends (st info : Nat) : Prop := Completes (.loadProgram q) s (d.finish q st info)
      (c.n 9 1 = 1 → d.slots.has prog = false → ends 4 0) ∧ (c.n 9 1 = 1 → d.slots.has prog = true → busy → ends 7 0) ∧
      (c.n 9 1 = 1 → d.slots.has prog = true → ¬ busy → EndsCmd q c (.loadProgram q) s (fun d1 => outside d1 ∧ d1.slots.has prog = false ∧ (∀ j, j ≠ prog → d1.slots.find? j = d.slots.find? j) ∧
        ∀ b n, n < 4 → let x := (d.bench b).ctxN n
          (x.valid = true ∧ x.prog = prog → ((d1.bench b).ctxN n).valid = false) ∧ (¬ (x.valid = true ∧ x.prog = prog) → (d1.bench b).ctxN n = x)) 0 0 0) ∧
      (c.n 9 1 ≠ 1 → d.slots.has prog = true → ends 7 0) ∧
      (c.n 9 1 ≠ 1 → d.slots.has prog = false →
        let sized : Prop := size % 8 = 0 ∧ 160 ≤ size
        let reach : Prop := space = 0 → d.mapped who false a size = true
        (¬ sized → ends 0x10 0) ∧ (sized → ¬ reach → ends 2 0) ∧ (sized → reach → d.mgmtFree < size → ends 5 0) ∧
        (sized → reach → size ≤ d.mgmtFree →
          (space = 1 → c.got.length < size → let n := min (size - c.got.length) (min (128 * 2 ^ (d.fn fn).mrrs.val) (4096 - (a + c.got.length) % 4096))
            Completes (.loadProgram q) s { d.setQueue q { d.queue q with run := some { c with host := some { fn := fn, addr := a + c.got.length, len := n, sentAt := d.ticks } } } with
              out := d.out ++ [.hostRead fn (a + c.got.length) n false] }) ∧
          (size ≤ c.got.length →
            let im := c.got.take size
            let ps := imPlaces im
            let head := imHeaderOk im
            let digest := sm3 (im.take (imN im 0xC 4)) == (im.drop (imN im 0xC 4)).take 32
            let start : Prop := head = true ∧ digest = true ∧ imSectionsOk im = true ∧ d.imInstanceOk im = true
            let placed (i : Nat) : Prop := d.imPlaceOk inst im i (ps.getD i (imPlace im 0)) = true
            let tables : Prop := imSlotsOk im = true ∧ imMarksOk im = true ∧ imReservedOk im = true
            let dies := ps.map fun p => inst * (8 / d.instN) + p.ldie
            (head = false → ends 0x10 0) ∧ (head = true → digest = false → ends 0x11 0) ∧ (head = true → digest = true → imSectionsOk im = false → ends 0x12 0) ∧
            (head = true → digest = true → imSectionsOk im = true → d.imInstanceOk im = false → ends 0x13 0) ∧
            (start → ∀ i, i < ps.length → ¬ placed i → (∀ j, j < i → placed j) → ends 0x14 i) ∧
            (start → (∀ i, i < ps.length → placed i) → ¬ tables → ends 0x15 0) ∧
            (start → (∀ i, i < ps.length → placed i) → tables →
              ((∃ i ∈ dies, d.powering i = true) → Reaches (.loadProgram q) s fun d' => KeepsQueues d d' ∧ d'.benches = d.benches ∧ d'.hbm = d.hbm ∧
                (∀ i ∈ dies, (d.die i).st = 0 → (d'.die i).st = 1) ∧ ∀ i, i ∉ dies ∨ (d.die i).st ≠ 0 → d'.die i = d.die i) ∧
              ((∀ i ∈ dies, d.powering i = false) →
                (∀ st i, Dev.resideAll inst slot im d ps.zipIdx = .inl (st, i) → ends st i) ∧
                ∀ d1, Dev.resideAll inst slot im d ps.zipIdx = .inr d1 → EndsCmd q c (.loadProgram q) s (fun d2 => d2.benches = d1.benches ∧ outside d2 ∧
                  (∀ j, j ≠ prog → d2.slots.find? j = d.slots.find? j) ∧ ∃ x, d2.slots.find? prog = some x ∧ x.image = im ∧ x.contexts = ps.length ∧ x.marks = imMarks im) 0 0 0)))))) ∧
    (c.op = 0x50 →
      let prog := 16 * inst + c.n 8 1
      let runs : Prop := ∃ r l, r ∈ d.queuesOf inst ∧ d.launch r = some l ∧ (l.prog = prog ∨ l.back = some prog) ∧ (l.running = true ∨ l.owns = true ∨ l.killing ≠ none)
      let atRest (bn : Bench) : Prop := let x := bn.ctxN bn.runCtx
        bn.runCtx < 4 ∧ x.valid = true ∧ x.prog = prog ∧ bn.switchTo = none ∧ bn.running = false ∧ (bn.mortise.setA.live = true ∨ bn.mortise.setB.live = true)
      (∀ fs, runs → Completes (.seal ⟨q, fs⟩) s (d.finish q 7 0)) ∧
      (∀ fs, ¬ runs → d.slots.has prog = false → Completes (.seal ⟨q, fs⟩) s (d.finish q 4 0)) ∧
      (∀ fs, ¬ runs → d.slots.has prog = true → d.benches.keys.Nodup → (∀ f ∈ fs, f.2.pe = none) → EndsCmd q c (.seal ⟨q, fs⟩) s (fun d1 => d1 = { d with benches := d1.benches } ∧
        ∀ b, let bn := d.bench b
          bn.runCtx < 4 → d1.bench b = if atRest bn ∧ (bn.ctxN bn.runCtx).save = true then bn.sealSets else bn) 0 0 0) ∧
      (∀ (b : BenchIx) (f : SwitchFind) (o : Fin 16384), ¬ runs → d.slots.has prog = true → d.benches.keys = [b.val] → f.pe = some o → atRest (d.bench b) → ((d.bench b).ctxN (d.bench b).runCtx).save = true →
        ((d.bench b).mortise.gset (decide (0x2000 ≤ o.val % 0x4000))).live = true → (((d.bench b).ctxN (d.bench b).runCtx).killed = false) → ∃ d1 : Dev, (d1.queue q).run.map (·.seq) = some c.seq ∧ Completes (.seal ⟨q, [(b, f)]⟩) s (d1.finish q 0 0) ∧
          ((d1.bench b).ctxN (d.bench b).runCtx).killed = true ∧ ((d1.bench b).ctxN (d.bench b).runCtx).killCause = 0x2203 ∧ (d1.bench b).tile = (d.bench b).tile)) ∧
    (c.op = 0x51 →
      let k := c.n 8 1
      let dump := c.n 9 1 == 1
      let size := d.quiesceSize k dump
      let stops := (d.queuesOf k).filter fun r => !d.queueMgr r
      let rests (d : Dev) (r : Nat) : Prop := d.queueIdle r = true ∨ ∃ l, d.launch r = some l ∧ l.running = false ∧ l.killing = none ∧ (l.atomic = false ∨ l.step = l.first)
      (∀ fs, c.phase = 0 → c.n 0x18 8 < size → Completes (.quiesce ⟨q, fs⟩) s (d.finish q 5 size)) ∧
      (∀ fs, c.phase = 0 → size ≤ c.n 0x18 8 → c.n 0xA 1 = 0 → d.mapped who true (c.n 0x10 8) size = false → Completes (.quiesce ⟨q, fs⟩) s (d.finish q 2 0)) ∧
      (∀ fs, c.phase = 0 → size ≤ c.n 0x18 8 → (c.n 0xA 1 = 0 → d.mapped who true (c.n 0x10 8) size = true) → Reaches (.quiesce ⟨q, fs⟩) s fun d' => KeepsCompute d d' ∧
        (∀ r, r < 512 → d'.queueStopped r = (d.queueStopped r || decide (r ∈ stops))) ∧ RegsBut (stops.map fun r => RegName.cpQstate.addr [r]) d d' ∧
        d'.queue q = { d.queue q with run := some { c with phase := 1, off := d.ticks } } ∧ ∀ r, r ≠ q.val → d'.queue r = d.queue r) ∧
      (∀ fs, c.phase = 1 → ¬ (∀ r ∈ stops, rests d r) → Completes (.quiesce ⟨q, fs⟩) s d) ∧
      (∀ fs, c.phase = 1 → (∀ r ∈ stops, rests d r) → c.n 0xA 1 = 1 → d.benches.keys.Pairwise (· < ·) → (∀ f ∈ fs, f.2.pe = none ∧ f.2.ls.e = .ok) →
        EndsCmd q c (.quiesce ⟨q, fs⟩) s (fun d1 => outside d1 ∧ d1.regs = d.regs ∧ k ∈ d1.quiesced ∧
          ∃ bs ms, ms.flatMap (·.2) = bs ∧ HostWrites fn false ms d d1 ∧ ((d.fn fn).d3 = true → ms = [(c.n 0x10 8, bs)]) ∧
          ((d.fn fn).d3 = false → ∀ j, j < ms.length → let m := ms.getD j (0, [])
            m.1 = c.n 0x10 8 + ((ms.take j).flatMap (·.2)).length ∧ m.1 % 4096 + m.2.length ≤ 4096 ∧ m.2.length ≤ 128 * 2 ^ (d.fn fn).mps.val) ∧
          bs.take 16 = leBytes k 1 ++ leBytes (b2n dump) 1 ++ leBytes stops.length 2 ++ leBytes (d.instCtxs k).length 4 ++ leBytes d.time 8 ∧
          ∀ j, j < stops.length → let r := stops.getD j 0
            (bs.drop (64 + 16 * j)).take 16 = leBytes r 4 ++ leBytes (d.cqHead r) 4 ++ leBytes (d.queueDone r) 4 ++ leBytes ((d.launch r).map (·.step) |>.getD 0xFFFFFFFF) 4) 0 size 0) ∧
      (c.phase = 1 → d.quiesceDue q = some (c.off + d.ticksOf .cpQuiesceTmo)) ∧
      (∀ d1 r x, c.phase = 1 → Comes (·.quiesceDue q) d d1 → r < 512 → (∀ p ∈ stops, ¬ rests d1 p → p = r) → r ∈ stops → ¬ rests d1 r → r ≠ q.val → (d1.queue r).run = some x → x.fin = none → x.acks = 0 →
        (x.launch = none → Completes (.quiesceTimeout q) s ((d1.giveUpRead r).finish r 0x22 (if x.op = 0x20 ∨ x.op = 0x21 then x.off else 0) 0).opUpdate) ∧
        (∀ h, x.host = some h → (d1.queue r).fetch = none → d1.giveUpRead r = { d1.setQueue r { d1.queue r with run := some { x with host := none } } with orphans := d1.orphans ++ [(r, h)] }) ∧
        (x.host = none → (d1.queue r).fetch = none → d1.giveUpRead r = d1) ∧
        ∀ l, x.launch = some l → l.killing = none → (∃ y ∈ d1.ctxsOf l.cur, ((d1.bench y.1).ctxN y.2).idle = false ∧ ((d1.bench y.1).ctxN y.2).killed = false) →
          Reaches (.quiesceTimeout q) s fun d' => KeepsCompute d1 d' ∧ (∃ t, d'.launch r = some t ∧ t.killing = some (0x22, 0)) ∧
            ∀ y ∈ d1.ctxsOf l.cur, ((d1.bench y.1).ctxN y.2).idle = false → ((d1.bench y.1).ctxN y.2).killed = false →
              ∃ m ∈ d'.kills, m.bench = y.1 ∧ m.ctx = y.2 ∧ m.code = 0 ∧ m.q = r)) ∧
    (c.op = 0x52 →
      let k := c.n 8 1
      let nq := leNat ((c.got.drop 2).take 2)
      let cs := d.instCtxs k
      let entry (j : Nat) : List Byte := (c.got.drop (64 + 16 * nq + 16 * j)).take 16
      let same : Prop := leNat ((c.got.drop 4).take 4) = cs.length ∧ ∀ j, j < cs.length → leNat ((entry j).take 2) = (cs.getD j (0, 0)).1 ∧
        leNat (((entry j).drop 2).take 1) = (cs.getD j (0, 0)).2 ∧ leNat (((entry j).drop 3).take 1) = ((d.bench (cs.getD j (0, 0)).1).ctxN (cs.getD j (0, 0)).2).prog % 16
      (c.got = [] → c.n 0xA 1 = 1 → Completes (.resume q) s { d.setQueue q { d.queue q with run := some { c with host := some { fn := fn, addr := c.n 0x10 8, len := min 64 (4096 - c.n 0x10 8 % 4096), sentAt := d.ticks } } } with
        out := d.out ++ [.hostRead fn (c.n 0x10 8) (min 64 (4096 - c.n 0x10 8 % 4096)) false] }) ∧
      (d.recordNeed k c.got ≤ c.got.length → ¬ same → Completes (.resume q) s (d.finish q 8 0)) ∧
      (d.recordNeed k c.got ≤ c.got.length → same → c.got.getD 1 0 ≠ 1 → cs.Nodup → k < d.instN →
        let stops := (d.queuesOf k).filter fun r => !d.queueMgr r
        let word (i o : Nat) : Nat := leNat ((c.got.drop (64 + 16 * i + o)).take 4)
        let who (i : Nat) : Nat := leNat ((c.got.drop (64 + 16 * i)).take 2)
        (∀ i, i < nq → who i ≠ q.val) → ∃ d1 : Dev, (d1.queue q).run = some c ∧ Completes (.resume q) s (d1.finish q 0 0) ∧ outside d1 ∧ k ∉ d1.quiesced ∧
          (∀ r ∈ stops, d1.queueStopped r = false) ∧
          (∀ j, j < cs.length → let x := (d1.bench (cs.getD j (0, 0)).1).ctxN (cs.getD j (0, 0)).2
            x.valid = true ∧ x.srSeed = BitVec.ofNat 32 (leNat (((entry j).drop 4).take 4)) ∧ x.srTile = BitVec.ofNat 32 (leNat (((entry j).drop 8).take 4)) ∧
            x.liveA = (leNat (((entry j).drop 12).take 4)).testBit 0 ∧ x.liveB = (leNat (((entry j).drop 12).take 4)).testBit 1) ∧
          ∀ i, i < nq → who i ∈ stops → (∀ j, j < nq → j ≠ i → who j ≠ who i) →
            let r := who i
            d1.queueDone r = word i 8 % 2 ^ 23 ∧
            (word i 12 = 0xFFFFFFFF → d1.cqHead r = word i 4 % 2 ^ 23 ∧ d1.queue r = d.queue r) ∧
            (∀ l, word i 12 ≠ 0xFFFFFFFF → d.launch r = some l → d1.cqHead r = word i 4 % 2 ^ 23 ∧ d1.launch r = some { l with step := word i 12 }) ∧
            (word i 12 ≠ 0xFFFFFFFF → d.launch r = none → d1.cqHead r = word i 8 % 2 ^ 23 ∧ (d1.queue r).resumeAt = some (word i 12) ∧ (d1.queue r).run = (d.queue r).run)))

/-- LAUNCH (R319 to R321, R332 to R337). -/
def Obligations.Launches : Prop :=
  ∀ (s : State) (q : QueueIx) (c : Cmd), s.dev.live = true → (s.dev.queue q).run = some c → c.fin = none →
    let d := s.dev
    let inst := d.queueInst q
    let ends (i : Instr) (st info f backs : Nat) (ranBack : Bool) : Prop := ∃ (d1 : Dev) (c1 : Cmd) (l1 : Launch), (d1.queue q).run = some c1 ∧ c1.seq = c.seq ∧ c1.pkt = c.pkt ∧ c1.fault = c.fault ∧
      c1.overrun = c.overrun ∧ c1.launch = some l1 ∧ l1.backs = backs ∧ l1.ranBack = ranBack ∧ d1.benches = d.benches ∧ Completes i s (d1.finish q st info f).opUpdate
    let still (e d' : Dev) : Prop := d'.benches = e.benches ∧ d'.net = e.net ∧ d'.hbm = e.hbm ∧ d'.dies = e.dies
    let raised (e : Dev) (code : Nat) (d' : Dev) : Prop := ∃ r, d'.reports = e.reports ++ [r] ∧ r.code = code ∧ r.master = 0xF820
    let inStep (e : Dev) (x : Nat × Nat) : Prop := ((e.bench x.1).ctxN x.2).idle = false ∧ ((e.bench x.1).ctxN x.2).killed = false
    let slice := d.ticksOf .cpSlice
    (c.op = 0x11 → c.host = none → c.launch = none → c.got = [] →
      let per := 256 / d.instN
      let prog := 16 * inst + c.n 8 1
      let back := 16 * inst + c.n 9 1
      let backed := c.n 9 1 ≠ 0xFF
      let ids := c.clampEntries.map fun e => inst * per + e.2.2
      let wrong : Prop := backed ∧ back = prog ∨ ∃ e ∈ c.clampEntries, per ≤ e.2.2 ∨ e.2.1 = false ∧ d.instOfDie e.1 ≠ inst
      let empty : Prop := d.slots.has prog = false ∨ backed ∧ d.slots.has back = false
      let marked := c.n 0x20 8 ≠ 0 ∧ c.n 0x28 2 ≠ 0
      let mapped := d.mapped (d.queueWho q) false (c.n 0x20 8) (8 * c.n 0x28 2)
      let schedule (bs : List Byte) : Prop := ¬ marked ∧ bs = [] ∨ marked ∧ mapped = true ∧
        ∃ lo k x, d.access (d.queueWho q) (c.n 0x20 8) = some lo ∧ HomeHolds d lo k x ∧ c.n 0x20 8 % 128 + 8 * c.n 0x28 2 ≤ 128 ∧ bs = x.data.slice (c.n 0x20 8 % 128) (8 * c.n 0x28 2)
      let at0 := (d.queue q).resumeAt
      let prepared (d' : Dev) : Prop := ∀ p v, p = prog ∨ backed ∧ p = back → d.slots.find? p = some v → ∀ x ∈ d.ctxsOf p, let y := (d'.bench x.1).ctxN x.2
        let z := (d.bench x.1).ctxN x.2
        (at0 = none → y.srSeed = BitVec.ofNat 32 (c.n 0x10 4) ∧ y.srTile = 0) ∧ (at0 ≠ none → y.srSeed = z.srSeed ∧ y.srTile = z.srTile) ∧
          y.parkBase = (imPlace v.image y.place).parkBase ∧ y.parkSize = (imPlace v.image y.place).parkSize ∧ y.killed = false ∧ y.idle = true
      let formed (began : Nat) (bs : List Byte) (d' : Dev) : Prop := (d'.queue q).resumeAt = none ∧ ∃ l, d'.launch q = some l ∧ l.prog = prog ∧ (backed → l.back = some back) ∧ (¬ backed → l.back = none) ∧
        l.lateMode = c.n 0xA 1 ∧ l.atomic = (c.n 0xB 1 == 1) ∧ l.steps = c.n 0xC 4 ∧ l.first = c.n 0x1C 4 ∧ l.margin = c.n 0x14 4 ∧ l.deadline = c.n 0x18 4 ∧ l.began = began ∧ l.clamps = ids ∧
        l.running = false ∧ l.owns = false ∧ l.killing = none ∧ l.step = at0.getD (c.n 0x1C 4) ∧ l.main = (at0.map (· - c.n 0x1C 4)).getD 0 ∧
        l.marks = (List.range (bs.length / 8)).map fun i => (leNat ((bs.drop (8 * i)).take 2), leNat ((bs.drop (8 * i + 4)).take 4))
      (c.phase = 0 → (wrong → Completes (.launch q) s (d.finish q 1 0).opUpdate) ∧ (¬ wrong → empty → Completes (.launch q) s (d.finish q 4 0).opUpdate) ∧
        (¬ wrong → ¬ empty → marked → mapped = false → Completes (.launch q) s (d.finish q 2 0).opUpdate) ∧
        (¬ wrong → ¬ empty → c.clampEntries = [] → ∀ bs, schedule bs → Reaches (.launch q) s fun d' => d'.net = d.net ∧ d'.slots = d.slots ∧ prepared d' ∧ formed d.ticks bs d') ∧
        ∀ root dev i, ¬ wrong → ¬ empty → (marked → mapped = true) → c.clampEntries = [(root, dev, i)] → Reaches (.launch q) s fun d' => prepared d' ∧
          d'.reg .clpIdcfg [inst * per + i] = BitVec.ofNat 32 (2 ^ 31 + b2n dev * 2 ^ 29 + (if dev then 0 else root) * 2 ^ 24 + inst * 2 ^ 16) ∧
          ((∃ x ∈ d'.clampDown, x.id = inst * per + i) → d'.queue q = { d.queue q with run := some { c with phase := 1, off := d.ticks } })) ∧
      (c.phase = 1 → ((∃ x ∈ d.clampDown, x.id ∈ ids) → Completes (.launch q) s d.opUpdate) ∧
        ((∀ x ∈ d.clampDown, x.id ∉ ids) → ∀ bs, schedule bs → Reaches (.launch q) s fun d' => still d d' ∧ formed c.off bs d'))) ∧
    (∀ k, Reaches (.cpCoreWatchdog k none) s fun d' => still d d' ∧ KeepsQueues d d' ∧ raised d 0x9106 d' ∧ d'.regBit .cpErrStatus [] 5 = true) ∧
    (∀ k, c.launch = none → c.acks = 0 → ∃ d1 c1, (d1.queue q).run = some c1 ∧ c1.pkt = c.pkt ∧ c1.seq = c.seq ∧ c1.fault = c.fault ∧ c1.host = none ∧ raised d 0x9106 d1 ∧
      (∀ h, c.host = some h → (d.queue q).fetch = none → d1.orphans = d.orphans ++ [(q.val, h)]) ∧
      Completes (.cpCoreWatchdog k (some q)) s (d1.finish q 0x23 (if c.op = 0x20 ∨ c.op = 0x21 then c.off else 0) 0x9106).opUpdate) ∧
    ∀ l, c.launch = some l →
      let cs := d.ctxsOf l.cur
      let after (i : Instr) (l' : Launch) : Prop := Reaches i s fun d' => still d d' ∧ d'.launch q = some l' ∧ d'.starts = d.starts ∧ d'.kills = d.kills ∧ ∀ r, r ≠ q.val → d'.queue r = d.queue r
      let killing (e : Dev) (i : Instr) (code st f : Nat) : Prop := Reaches i s fun d' => still e d' ∧ (∃ l', d'.launch q = some l' ∧ l'.killing = some (st, f) ∧ l'.contends = false) ∧
        (∀ m ∈ d'.starts, m.q ≠ q.val) ∧ (∀ m ∈ e.kills, m ∈ d'.kills) ∧
        (∀ x ∈ e.ctxsOf l.cur, inStep e x → { bench := x.1, ctx := x.2, code := code, q := q } ∈ d'.kills) ∧
        ∀ m ∈ d'.kills, m ∈ e.kills ∨ (m.bench, m.ctx) ∈ e.ctxsOf l.cur ∧ inStep e (m.bench, m.ctx)
      let info (m b : Nat) : Nat := m % 2 ^ 32 + b % 2 ^ 32 * 2 ^ 32
      (let l0 := { l with onBack := l.switched }
       let cs := d.ctxsOf l0.cur
       let atPoint : Prop := l.atomic = false ∨ l.step = l.first
       let may : Prop := l.running = false ∧ l.killing = none ∧ ¬ (d.queueStopped q = true ∧ atPoint) ∧ ∀ m ∈ d.kills, m.q ≠ q.val
       let free : Prop := l.owns = true ∧ l.switched = false ∨ d.benchHeld q l0.cur = false
       let dies := (cs.map fun x => dieOf x.1).eraseDups
       let g := (d.modLaunch q fun _ => { l0 with owns := true, contends := false }).opUpdate
       let takes (x : Nat × Nat) : Prop := let bn := d.bench x.1
         (bn.running = false ∨ bn.workDone = true ∧ bn.merge = []) ∧
           (bn.runCtx = x.2 ∨ bn.switchTo ≠ none ∨ bn.ctx.valid = false ∨ bn.ctx.save = true ∨ bn.mortise.setA.live = false ∧ bn.mortise.setB.live = false ∧ bn.slots.cells = [])
       let ready : Prop := (∀ k ∈ dies, g.changing k = false) ∧ ∀ x ∈ cs, g.bayOn (bayOf x.1) = true ∧ takes x
       let i := Instr.launchStepStart q
       let waits := { l0 with owns := false, contends := true, waitT := some (l.waitT.getD d.ticks) }
       (¬ may → after i l) ∧ (may → ¬ free → l.owns = false → after i waits) ∧
       (may → ¬ free → l.owns = true → Reaches i s fun d' => still d d' ∧ d'.kills = d.kills ∧ d'.starts = d.starts ∧ d'.launch q = some waits) ∧
       (may → free → ¬ ready → after i { l0 with owns := true, contends := false }) ∧
       (may → free → ready → Reaches i s fun d' => still d d' ∧ d'.kills = d.kills ∧
         d'.launch q = some { l0 with owns := true, contends := false, running := true, stepT := l.waitT.getD d.ticks, waitT := none } ∧
         d'.starts = d.starts ++ dies.map fun k => { die := k, q := q, cycle := (d.cycle k + 2047) / 1024 * 1024 })) ∧
      (let last : Prop := l.first + l.steps ≤ l.step + 1
       let performed : Prop := ∀ x ∈ d.ctxsAll l, d.writesLeft x.1 = false
       let done : Prop := l.running = true ∧ l.killing = none ∧ (∀ m ∈ d.starts, m.q ≠ q.val) ∧ (∀ x ∈ cs, ((d.bench x.1).ctxN x.2).idle = true ∧ ((d.bench x.1).ctxN x.2).killed = false) ∧ (last → performed)
       let main := if l.onBack then l.main else l.main + 1
       let backs := if l.onBack then l.backs + 1 else l.backs
       let i := Instr.launchStepEnd q
       let next := { l with running := false, step := l.step + 1, main := main, backs := backs, arrived := [], lateDone := [] }
       (¬ done → after i l) ∧ (done → last → ends i 0 (info main backs) 0 backs l.ranBack) ∧
       (done → ¬ last → (l.atomic = true ∨ l.owns = false ∨ 0 < (d.queue q).budget ∨ d.contenders q l.cur = [] → after i next) ∧
         ∀ r, l.atomic = false → l.owns = true → (d.queue q).budget ≤ 0 → d.contenders q l.cur = [r] → (∀ p ∈ d.queuesOf inst, p ≠ q.val → ∀ m, d.launch p = some m → m.owns = false) →
           Reaches i s fun d' => still d d' ∧ d'.launch q = some { next with owns := false } ∧ (d'.queue q).budget = (d.queue q).budget + slice ∧
             ∃ m, d.launch r = some m ∧ d'.launch r = some { m with owns := true, contends := false } ∧ 0 < (d'.queue r).budget)) ∧
      (l.overRaised = true ∨ l.overrun ≤ 4 * slice → Completes (.overrunRaise q) s d.opUpdate) ∧
      (l.overRaised = false → 4 * slice < l.overrun → Reaches (.overrunRaise q) s fun d' => still d d' ∧ raised d 0x9103 d' ∧ Counted .cpOverruns [] d d' ∧
        (d'.queue q).run = some { c with overrun := true, fault := if c.fault = 0 then 0x9103 else c.fault, launch := some { l with overRaised := true } }) ∧
      (∀ x, l.killing = none → x ∈ cs → ((d.bench x.1).ctxN x.2).killed = true → (∃ y ∈ cs, inStep d y) →
        (∀ y ∈ cs, ((d.bench y.1).ctxN y.2).killed = true → y = x ∨ ((d.bench x.1).ctxN x.2).killTime < ((d.bench y.1).ctxN y.2).killTime) →
        let f := ((d.bench x.1).ctxN x.2).killCause
        killing d (.launchKill q) f 0x20 f) ∧
      (l.killing = none → (∀ x ∈ cs, ((d.bench x.1).ctxN x.2).killed = false) → after (.launchKill q) l) ∧
      (∀ st f, l.killing = some (st, f) →
        let drained : Prop := (∀ m ∈ d.kills, m.q ≠ q.val) ∧ ∀ x ∈ d.ctxsAll l, d.writesLeft x.1 = false
        (drained → ends (.launchKill q) st (info l.main l.backs) f l.backs l.ranBack) ∧ (¬ drained → after (.launchKill q) l)) ∧
      (l.deadline = 0 → after (.deadlineExpiry q) l) ∧ (l.deadline ≠ 0 → d.deadlineDue q = some (l.began + l.deadline)) ∧
      (∀ d1 l1, Comes (·.deadlineDue q) d d1 → d1.launch q = some l1 → (l1.killing ≠ none → Completes (.deadlineExpiry q) s d1.opUpdate) ∧
        (l1.killing = none → l1.cur = l.cur → (∃ y ∈ d1.ctxsOf l.cur, inStep d1 y) → killing d1 (.deadlineExpiry q) 0x9105 0x21 0x9105 ∧ Reaches (.deadlineExpiry q) s (raised d1 0x9105))) ∧
      (∀ k, l.killing = none → (∃ y ∈ cs, inStep d y) → killing d (.cpCoreWatchdog k (some q)) 0x9106 0x23 0x9106) ∧
      ∀ m : Fin 256,
        let i := Instr.progressMarkLate q m
        (∀ e, l.marks[m.val]? = some e → (l.running = true → d.markDue q m = some (l.stepT + e.2 + l.margin)) ∧
          (l.running = false → d.markDue q m = l.waitT.map (· + e.2 + l.margin))) ∧ (l.marks[m.val]? = none → d.markDue q m = none) ∧
        ∀ d1, d1 = d.passDue (d.markDue q m) → ∀ c1 l1, (d1.queue q).run = some c1 → c1.launch = some l1 → l1.cur = l.cur →
          let due : Prop := ∃ t, d1.markDue q m = some t ∧ t ≤ d1.ticks
          let late (e : Nat × Nat) : Prop := l1.marks[m.val]? = some e ∧ due ∧ l1.onBack = false ∧ l1.killing = none ∧ l1.switched = false ∧ e.1 ∉ l1.arrived ∧ m.val ∉ l1.lateDone
          let noted := { l1 with lateDone := l1.lateDone ++ [m.val] }
          let fault := if c1.fault = 0 then 0x9104 else c1.fault
          ((∀ e, ¬ late e) → Completes i s d1.opUpdate) ∧
          ∀ e, late e →
            (l1.back = none → Reaches i s fun d' => still d1 d' ∧ raised d1 0x9104 d' ∧ d'.kills = d1.kills ∧ (d'.queue q).run = some { c1 with fault := fault, launch := some noted }) ∧
            (∀ b, l1.back = some b → l1.lateMode = 0 → Reaches i s fun d' => still d1 d' ∧ raised d1 0x9104 d' ∧ d'.kills = d1.kills ∧ Counted .cpDmSwitches [] d1 d' ∧
              (d'.queue q).run = some { c1 with fault := fault, launch := some { noted with switched := true } }) ∧
            (∀ b, l1.back = some b → l1.lateMode ≠ 0 → Reaches i s fun d' => still d1 d' ∧ raised d1 0x9104 d' ∧ Counted .cpDmSwitches [] d1 d' ∧ (∀ m ∈ d'.starts, m.q ≠ q.val) ∧
              (d'.queue q).run = some { c1 with fault := fault, launch := some { noted with switched := true, running := false, onBack := true, waitT := none } } ∧
              ∀ x ∈ d1.ctxsOf l.cur, inStep d1 x → { bench := x.1, ctx := x.2, code := 0x9104, q := q } ∈ d'.kills)

/-- COLLECTIVE (R323, R388, R389). That CP_COLL_TMO counts from the command's beginning is the model's choice (log 3). -/
def Obligations.Collectives : Prop :=
  ∀ (s : State) (q : QueueIx) (c : Cmd), s.dev.live = true → (s.dev.queue q).run = some c → c.fin = none → c.host = none → c.op = 0x22 →
    let d := s.dev
    let i := Instr.collective q
    let inst := d.queueInst q
    let who := d.queueWho q
    let own := d.ownId inst
    let kind := c.n 8 1
    let n := c.n 0xC 4
    let src := c.n 0x10 8
    let dst := c.n 0x18 8
    let bytes := c.n 0x20 8
    let gen := c.n 0x30 4
    let total := if kind = 2 then bytes / n else if kind = 4 then 1 else bytes
    let held (a : Nat) (l : Loc) (k : Nat) (x : SLine) : Prop := d.access who a = some l ∧ HomeHolds d l k x ∧ d.mirOf a = []
    let listed (got : List Byte) : List Nat := (List.range n).map fun i => leNat ((got.drop (4 * i)).take 4) % 2 ^ 20
    let down (id : Nat) : Prop := ∃ p, d.findPeer inst id = some p ∧ d.peerDown p = true
    let peer (id p : Nat) : Prop := d.findPeer inst id = some p
    (c.phase ≠ 1 → c.got = [] →
      let mapped : Prop := d.mapped who false (c.n 0x28 8) (4 * n) = true ∧ (kind ≠ 4 → d.mapped who false src total = true ∧ d.mapped who true dst bytes = true)
      (¬ mapped → Completes i s (d.finish q 2 0)) ∧
      ∀ l k x, mapped → d.access who (c.n 0x28 8) = some l → HomeHolds d l k x → c.n 0x28 8 % 128 + 4 * n ≤ 128 → 0 < n →
        let list := listed (x.data.slice (c.n 0x28 8 % 128) (4 * n))
        let stray (id : Nat) : Prop := id ≠ own ∧ ∀ p, peer id p → d.peerSystem p = false
        ((∃ id ∈ list, stray id) → EndsCmd q c i s (fun d1 => ∃ r, d1.reports = d.reports ++ [r] ∧ r.code = 0x6205) 2 0 0x6205) ∧
        ((∀ id ∈ list, ¬ stray id) → own ∉ list → EndsCmd q c i s (fun d1 => d1.reports = d.reports) 1 0 0) ∧
        (∀ k, (∀ id ∈ list, ¬ stray id) → own ∈ list → k < list.length → list.getD k 0 ≠ own → down (list.getD k 0) → (∀ j, j < k → list.getD j 0 ≠ own → ¬ down (list.getD j 0)) →
          list.idxOf (list.getD k 0) = k → EndsCmd q c i s (fun d1 => d1.reports = d.reports) 0x30 k 0x6201) ∧
        ((∀ id ∈ list, ¬ stray id) → own ∈ list → (∀ id ∈ list, id ≠ own → ¬ down id) → c.bad = none → c.stage = ⟨[]⟩ → kind = 3 → 1 < n → 0 < bytes → d.collHeld = [] →
          (if c.n 9 1 / 16 % 2 = 1 then list else list.mergeSort (· ≤ ·)).head? ≠ some own →
          Reaches i s fun d' => KeepsBytes d d' ∧ ∃ x, (d'.queue q).run = some x ∧ x.phase = 1 ∧ x.off = d.ticks ∧ x.members = if c.n 9 1 / 16 % 2 = 1 then list else list.mergeSort (· ≤ ·))) ∧
    (c.phase = 1 →
      let list := listed c.got
      let ms := if c.n 9 1 / 16 % 2 = 1 then list else list.mergeSort (· ≤ ·)
      let top := ms.length - 1
      let id (k : Nat) : Nat := ms.getD k 0
      let j := (ms.idxOf? own).getD 0
      let stage := c.stage.getD 0 0
      let one : Prop := 0 < total ∧ total ≤ 65536
      let ends (f : Dev → Prop) : Prop := EndsCmd q c i s f 0 0 0
      let ok : Prop := c.bad = none
      let done (k : Nat) : Prop := (1, id k, 0) ∈ c.coll
      let goes (f : Cmd → Dev → Prop) : Prop := Reaches i s fun d' => ∃ x, (d'.queue q).run = some x ∧ x.pkt = c.pkt ∧ f x d'
      let say (sub : Nat) (f : Frame) : Prop := f.op = 0x08 ∧ f.tag = sub ∧ f.laddr = gen
      let writes (op al a : Nat) (bs : List Byte) (f : Frame) : Prop := f.op = op ∧ f.laddr = al * 2 ^ 40 + a ∧ f.data = bs ∧ f.len = bs.length
      let others (k : Nat) : Prop := k < ms.length ∧ k ≠ j
      let known : Prop := (∀ k, k < ms.length → k ≠ j → ∃ p, peer (id k) p) ∧ 2 ≤ ms.length ∧ id j = own ∧ ms.Nodup ∧ ∀ m ∈ ms, m < 2 ^ 20
      let flat : Prop := total ≤ 128 ∧ dst < 2 ^ 40 ∧ dst % 4096 + total ≤ 4096
      (∀ st f z, c.bad = some (st, f, z) → EndsCmd q c i s (fun d1 => KeepsCompute d d1) st (if st = 0x30 then z else 0) f) ∧
      (ok → one → kind < 5 → stage = 3 → let waits := kind = 2 ∨ kind = 3 ∧ j = 0 ∨ kind < 2 ∧ j = top
        (¬ waits ∨ c.acks = 0 → ends (fun d1 => KeepsCompute d d1)) ∧ (waits → c.acks ≠ 0 → Completes i s d)) ∧
      (ok → one → kind = 3 → j ≠ 0 → stage = 0 → (¬ done 0 → Completes i s d) ∧ (done 0 → ends (fun d1 => KeepsCompute d d1))) ∧
      (ok → one → kind < 2 → j ≠ top → stage = 2 → (¬ done top → Completes i s d) ∧ (done top → ends (fun d1 => KeepsCompute d d1))) ∧
      (ok → one → kind < 2 → stage = 1 → (j ≠ top → (0, id (j + 1), 0) ∉ c.coll → Completes i s d) ∧ (j ≠ 0 → c.redGot.getD 0 0 < total → Completes i s d)) ∧
      (∀ l k x, ok → known → flat → one → kind = 3 → j = 0 → stage = 0 → held src l k x → src % 128 + total ≤ 128 → goes fun y d' => y.stage.getD 0 0 = 3 ∧ y.acks = c.acks + top ∧ KeepsBytes d d' ∧
        ∀ k p, others k → peer (id k) p → Queued d' p false (writes 0x01 0 dst (x.data.slice (src % 128) total)) ∧ Queued d' p false (say 1)) ∧
      (∀ l k x l' k' x', ok → known → flat → one → kind = 2 → stage = 0 → held src l k x → src % 128 + total ≤ 128 →
        let a := dst + j * (bytes / n)
        held a l' k' x' → a % 128 + total ≤ 128 → a < 2 ^ 40 → (∃ k, others k ∧ ¬ done k) → goes fun y d' => y.stage.getD 0 0 = 1 ∧ y.acks = c.acks + top ∧
          (∃ z, (d'.slice (homeSlice l'.die l'.x)).lines.find? k' = some z ∧ z.data = mergeLine x'.data (linePut (a % 128) (x.data.slice (src % 128) total)) (beRange (a % 128) total)) ∧
          ∀ k p, others k → peer (id k) p → Queued d' p false (writes 0x01 0 a (x.data.slice (src % 128) total)) ∧ Queued d' p false (say 1)) ∧
      (ok → one → kind = 2 → stage = 1 → known → ((∃ k, others k ∧ ¬ done k) → Completes i s d) ∧ ((∀ k, others k → done k) → c.acks = 0 → ends (fun d1 => KeepsCompute d d1))) ∧
      (∀ l k x p, ok → known → flat → one → kind < 2 → j = 0 → stage = 0 ∨ stage = 1 → (0, id 1, 0) ∈ c.coll → held src l k x → src % 128 + total ≤ 128 → peer (id 1) p →
        (1, id top, 0) ∉ c.coll → goes fun y d' => y.stage.getD 0 0 = 2 ∧ y.acks = c.acks + 1 ∧ KeepsBytes d d' ∧ y.coll = c.coll.erase (0, id 1, 0) ∧
          Queued d' p false (writes 0x04 (1 + 3 * (c.n 9 1 % 4) + c.n 9 1 / 4 % 4) dst (x.data.slice (src % 128) total))) ∧
      (∀ l k x l' k' x' p, ok → known → flat → one → kind < 2 → 0 < j → stage = 0 → held src l k x → src % 128 + total ≤ 128 → held dst l' k' x' → dst % 128 + total ≤ 128 → l'.x / 128 ≠ l.x / 128 →
        peer (id (j - 1)) p → c.redGot.getD 0 0 < total → goes fun y d' => y.stage.getD 0 0 = 1 ∧ y.acks = c.acks ∧ Queued d' p false (say 0) ∧
          ∃ z, (d'.slice (homeSlice l'.die l'.x)).lines.find? k' = some z ∧ z.data = reduceLine (c.n 9 1 % 4) (c.n 9 1 / 4 % 4)
            (mergeLine x'.data (linePut (dst % 128) (List.replicate total 0)) (beRange (dst % 128) total)) (linePut (dst % 128) (x.data.slice (src % 128) total)) (beRange (dst % 128) total)) ∧
      (∀ bs d0, ok → known → one → kind < 2 → j = top → stage = 1 → total ≤ c.redGot.getD 0 0 → Dev.cpRead who (total / 128 + 2) d dst total [] = .ok d0 bs → KeepsBytes d d0 → d0 = { d with regs := d0.regs, slices := d0.slices } → dst < 2 ^ 40 → dst % 4096 + total ≤ 4096 →
        (kind = 1 → n = ms.length ∧ bytes % n = 0) → goes fun y d' => y.stage.getD 0 0 = 3 ∧ y.acks = c.acks + top ∧ KeepsBytes d d' ∧ ∀ k p, others k → peer (id k) p → Queued d' p false (say 1) ∧
          Queued d' p false (if kind = 0 then writes 0x01 0 dst bs else writes 0x01 0 (dst + k * (bytes / n)) ((bs.drop (k * (bytes / n))).take (bytes / n)))) ∧
      (ok → kind = 4 → known →
        (∀ p, j ≠ 0 → stage = 0 → c.old = none → peer (id 0) p → goes fun y d' => y.stage.getD 0 0 = 1 ∧ y.acks = c.acks + 1 ∧ Queued d' p false fun f => f.op = 0x05 ∧ f.laddr = dst ∧
          f.data = leBytes 0x10 4 ++ leBytes 1 4 ++ leBytes 0 8) ∧
        (∀ l k x, j = 0 → stage = 0 → held dst l k x → dst % 4 = 0 → (laneN x.data 32 (dst % 128 / 4) + 1) % n ≠ 0 → c.coll = [] → goes fun y d' => y.stage.getD 0 0 = 2 ∧
          y.old = some (laneN x.data 32 (dst % 128 / 4)) ∧
          ∃ z, (d'.slice (homeSlice l.die l.x)).lines.find? k = some z ∧ laneN z.data 32 (dst % 128 / 4) = (laneN x.data 32 (dst % 128 / 4) + 1) % 2 ^ 32) ∧
        (∀ l k x, j = 0 → stage = 0 → d.access who dst = some l → HomePoisoned d l k x → EndsCmd q c i s (fun d1 => d1.benches = d.benches ∧ d1.net = d.net) 0x22 0 0x2506) ∧
        (∀ v, stage = 1 → c.old = some v → (v + 1) % n = 0 → ends fun d1 => KeepsCompute d d1 ∧ ∀ k p, others k → peer (id k) p → Queued d1 p false (say 1)) ∧
        (∀ v, stage = 1 → c.old = some v → (v + 1) % n ≠ 0 → c.coll = [] → goes fun y d' => y.stage.getD 0 0 = 2 ∧ y.acks = c.acks ∧ KeepsCompute d d') ∧
        (stage = 2 → ((∃ k, others k ∧ done k) → ends (fun d1 => KeepsCompute d d1)) ∧ ((∀ k, others k → ¬ done k) → Completes i s d))) ∧
      d.collDue q = some (c.off + d.ticksOf .cpCollTmo) ∧
      (∀ d1 k, Comes (·.collDue q) d d1 → (d1.queue q).run = some c → kind = 3 → one → j ≠ 0 → ok → stage = 0 → k < list.length → list.getD k 0 = id 0 → list.idxOf (id 0) = k →
        (∀ m p, m ∈ ms → peer m p → ∀ x ∈ (d1.peer p).bulk.unacked ++ (d1.peer p).bulk.backlog, x.owner ≠ .queue q c.seq) →
        ∃ d2 : Dev, (d2.queue q).run = some c ∧ (∀ r, r ≠ q.val → d2.queue r = d1.queue r) ∧ KeepsCompute d1 d2 ∧ d2.reports = d1.reports ∧ Completes (.collectiveMemberTimeout q) s (d2.finish q 0x30 k 0)))

/-- Book-match mirroring (R409 to R424). -/
def Obligations.Mirrors : Prop :=
  (∀ (s : State) (q : QueueIx) (c : Cmd), s.dev.live = true → (s.dev.queue q).run = some c → c.fin = none → c.host = none →
    let d := s.dev
    let owner := if d.queueMgr q then 8 else d.queueInst q
    let same (d1 : Dev) : Prop := KeepsCompute d d1 ∧ d1.mirrors = d.mirrors
    let reads (w i a : Nat) (d' : Dev) : Prop := Queued d' i false fun f => f.op = 0x02 ∧ f.src = d.mirSrc w ∧ f.dst = d.peerDev i ∧ f.laddr = a ∧ f.len = 128
    let begun (d' : Dev) : Prop := KeepsCompute d d' ∧ d'.queue q = { d.queue q with run := some { c with phase := 1 } }
    (c.op = 0x40 → c.phase = 0 → c.n 8 1 < 64 →
      let w := 64 * owner + c.n 8 1
      let st := d.mirState w
      let base := c.n 0x10 8
      let size := c.n 0x18 8
      let book := c.n 0x20 8
      let i := Instr.mirrorOpen q
      let ends (status : Nat) : Prop := Completes i s (d.finish q status 0)
      let aligned : Prop := base % 4096 = 0 ∧ book % 4096 = 0 ∧ size % 4096 = 0 ∧ size ≤ 2 ^ 40
      let span := size + 4096 + (size + 0x3FFFFFF) / 0x4000000 * 4096
      let mapped : Prop := d.mapped (mirWho w) true base span = true
      let peer := d.findPeer (mirInst w) (c.n 0xC 4)
      (c.n 9 1 = 1 → (st = 0 → ends 0x40) ∧ (st = 1 ∨ st = 3 ∨ st = 4 → Completes i s d) ∧
        (st = 2 ∨ 5 ≤ st → EndsCmd q c i s (fun d1 => d1.mirState w = 0 ∧ d1.mir w = {} ∧ (∀ v, v ≠ w → d1.mir v = d.mir v) ∧ d1.net = d.net ∧ d1.benches = d.benches) 0 0 0)) ∧
      (c.n 9 1 ≠ 1 → (st ≠ 0 → ends 0x40) ∧ (st = 0 → ¬ aligned → ends 1) ∧ (st = 0 → aligned → peer = none ∨ ¬ mapped → ends 2) ∧
        (∀ p, st = 0 → aligned → peer = some p → mapped → (d.mirOverlap w base size = true → ends 0x41) ∧ (d.mirOverlap w base size = false → d.peerDown p = true → ends 0x44) ∧
          (d.mirOverlap w base size = false → d.peerDown p = false → book < 2 ^ 44 → Reaches i s fun d' => begun d' ∧ d'.mirState w = 1 ∧ d'.mirBase w = base ∧ d'.mirSize w = size ∧ d'.mirBaddr w = book ∧
            d'.mirEpoch w = 0 ∧ d'.mir w = { peer := p, job := some (q.val, c.seq) } ∧ (∀ v, v ≠ w → d'.mir v = d.mir v) ∧ reads w p book d')))) ∧
    (c.op = 0x41 → c.phase ≠ 1 → c.bad = none → c.stage = ⟨[]⟩ →
      let ws := ((List.range 64).filter (c.n 8 8).testBit).map (64 * owner + ·)
      let ep := c.n 0x10 8
      let i := Instr.mirrorCommit q
      let open' (w : Nat) : Prop := d.mirState w = 2 ∨ d.mirState w = 3
      (ws = [] → Completes i s (d.finish q 0x40 0)) ∧
      (∀ w rest, ws = w :: rest → ¬ open' w → Completes i s (d.finish q (if d.mirState w = 6 then 0x44 else 0x40) 0)) ∧
      ((∀ w ∈ ws, open' w) → (∃ w ∈ ws, d.mirState w = 2 ∧ ep ≤ d.mirEpoch w) → Completes i s (d.finish q 0x42 0)) ∧
      (∀ w, ws = [w] → d.mirState w = 3 → Reaches i s fun d' => begun d' ∧ d'.mirrors = d.mirrors) ∧
      ∀ w, ws = [w] → d.mirState w = 2 → d.mirEpoch w < ep →
        let x := d.mir w
        let f := x.sides.fillSide
        let sealed := x.sides.put f 2 ep
        let header (d' : Dev) : Prop := Queued d' x.peer false fun g => g.op = 0x11 ∧ g.laddr = d.mirBaddr w ∧ g.tag = w % 64 ∧
          g.data = headerBytes (w % 64) false (d.mirSrc w) (d.mirSize w) sealed
        let commits (d' : Dev) : Prop := KeepsBytes d d' ∧ d'.mirState w = 3 ∧ (d'.mir w).commit = some ep ∧ (d'.mir w).commitAt = d.ticks ∧ (d'.mir w).job = some (q.val, c.seq) ∧ (d'.mir w).hdrs.getLast? = some (2, sealed) ∧
          (d'.mir w).sides = x.sides ∧ ((d'.queue q).run.map fun y => (y.phase, y.stage.getD w 0)) = some (1, 1) ∧ header d'
        (d.peerDown x.peer = true → EndsCmd q c i s (fun d1 => d1.mirState w = 6 ∧ KeepsCompute d d1 ∧ ∃ r, d1.reports = d.reports ++ [r] ∧ r.code = 0xA102 ∧ r.master = 0xF825 + w % 4) 0x44 0 0xA102) ∧
        (d.peerDown x.peer = false → x.sigs = ⟨[]⟩ → x.dirtyList (d.mirSize w) f = [] → Reaches i s commits) ∧
        (∀ bs, d.peerDown x.peer = false → x.sigs = ⟨[]⟩ → x.sent = true → d.mirSize w = 4096 → x.dirtyList 4096 f = [0] → BlockHeld d (mirWho w) (d.mirBase w) bs → Reaches i s fun d' => commits d' ∧
          ((d'.mir w).dirty f).has 0 = false ∧ Queued d' x.peer false (fun g => g.op = 0x10 ∧ g.tag = w % 64 + 64 * f ∧ g.laddr = d.mirBaddr w + 0x1000 + f * 4096 ∧ g.data = bs) ∧
          Queued d' x.peer false fun g => g.op = 0x10 ∧ g.laddr = d.mirBaddr w + 0x3000 + f * 4096 ∧ g.data = leBytes (crc64 bs) 8 ++ List.replicate 120 0)) ∧
    (c.op = 0x42 → c.phase = 0 → c.n 8 1 < 64 →
      let w := 64 * owner + c.n 8 1
      let st := d.mirState w
      let keep := c.n 9 1
      let i := Instr.mirrorRestore q
      let ends (status : Nat) : Prop := Completes i s (d.finish q status 0)
      let may : Prop := st = 2 ∨ st = 7 ∨ st = 5 ∧ keep ≠ 0
      let peer := d.findPeer (mirInst w) (c.n 0xC 4)
      (st = 3 → Completes i s d) ∧ (st = 0 ∨ st = 1 ∨ st = 4 → ends 0x40) ∧ (st = 6 → ends 0x44) ∧ (st = 5 → keep = 0 → ends 0x43) ∧
      (may → peer = none → EndsCmd q c i s (fun d1 => same d1 ∧ ∃ r, d1.reports = d.reports ++ [r] ∧ r.code = 0x6205) 2 0 0x6205) ∧
      (∀ p, may → peer = some p → (d.peerDown p = true → ends 0x44) ∧ (d.peerDown p = false → d.mirBaddr w < 2 ^ 44 → d.mirBaddr w % 4096 = 0 → Reaches i s fun d' => begun d' ∧ d'.mirState w = 4 ∧
        (d'.mir w).prev = st ∧ (d'.mir w).srcPeer = p ∧ (d'.mir w).keep = keep ∧ (d'.mir w).job = some (q.val, c.seq) ∧ (∀ v, v ≠ w → d'.mir v = d.mir v) ∧ reads w p (d.mirBaddr w) d')))) ∧
  ∀ (s : State) (w : Fin 576), s.dev.live = true →
    let d := s.dev
    let x := d.mir w
    let f := x.sides.fillSide
    let dirty := x.dirtyList (d.mirSize w) f
    let settled (d1 : Dev) (b : Nat) : Prop := ∀ t, (d1.mir w).wrote.find? b = some t → t + d1.ticksOf .mirSettle ≤ d1.ticks
    let cause (d1 : Dev) (code : Nat) (d' : Dev) : Prop := ∃ r, d'.reports = d1.reports ++ [r] ∧ r.code = code ∧ r.master = 0xF825 + w.val % 4
    (d.mirState w ≠ 2 → Completes (.mirrorBlockSend w) s d) ∧ (d.mirState w = 2 → dirty = [] → d.settleDue w = none) ∧
    (∀ b, d.mirState w = 2 → dirty = [b] → d.settleDue w = some (((x.wrote.find? b).map (· + d.ticksOf .mirSettle)).getD 0)) ∧
    (∀ d1, d1 = d.passDue (d.settleDue w) → d1.mirState w = 2 →
      let x := d1.mir w
      let f := x.sides.fillSide
      let dirty := x.dirtyList (d1.mirSize w) f
      (d1.peerDown x.peer = true → Reaches (.mirrorBlockSend w) s fun d' => d'.mirState w = 6 ∧ cause d1 0xA102 d' ∧ KeepsCompute d1 d' ∧ d'.mirrors = d1.mirrors) ∧
      (d1.peerDown x.peer = false → (∀ b ∈ dirty, ¬ settled d1 b) → Completes (.mirrorBlockSend w) s d1) ∧
      (∀ pre b rest bs, d1.peerDown x.peer = false → dirty = pre ++ b :: rest → (∀ p ∈ pre, ¬ settled d1 p) → settled d1 b → BlockHeld d1 (mirWho w) (d1.mirBase w + 4096 * b) bs →
        Reaches (.mirrorBlockSend w) s fun d' => KeepsBytes d1 d' ∧ d'.mirState w = 2 ∧ ((d'.mir w).dirty f).has b = false ∧ (∀ p, p ≠ b → ((d'.mir w).dirty f).has p = (x.dirty f).has p) ∧
          (d'.mir w).dirty (1 - f) = x.dirty (1 - f) ∧ (d'.mir w).sigs.find? b = some (BitVec.ofNat 64 (crc64 bs)) ∧ (d'.mir w).sent = true ∧
          Queued d' x.peer false (fun g => g.op = 0x10 ∧ g.tag = w.val % 64 + 64 * f ∧ g.laddr = d1.mirBaddr w + 0x1000 + f * d1.mirSize w + b * 4096 ∧ g.data = bs) ∧
          (x.sent = false → Queued d' x.peer false fun g => g.op = 0x11 ∧ g.laddr = d1.mirBaddr w ∧ g.data = headerBytes (w.val % 64) false (d1.mirSrc w) (d1.mirSize w) (x.sides.put f 1 (x.sides.ep f))))) ∧
    (d.mirState w ≠ 3 → Completes (.commitTimeout w) s d) ∧ (d.mirState w = 3 → d.commitDue w = some (x.commitAt + d.ticksOf .mirCommitTmo)) ∧
    (∀ d1, Comes (·.commitDue w) d d1 → d1.mirState w = 3 → let x := d1.mir w
      let left (d' : Dev) : Prop := d'.mirState w = 2 ∧ cause d1 0xA103 d' ∧ KeepsCompute d1 d' ∧ (d'.mir w).commit = none ∧ (d'.mir w).job = none ∧ (d'.mir w).sides = x.sides ∧ d'.mirEpoch w = d1.mirEpoch w
      (x.job = none → Reaches (.commitTimeout w) s left) ∧
      ∀ q c, x.job = some (q, c.seq) → (d1.queue q).run = some c → c.fin = none → c.bad = none → c.mask (d1.mirOwner q) = [w.val] →
        ∃ d2 c2, left d2 ∧ (d2.queue q).run = some c2 ∧ c2.seq = c.seq ∧ c2.pkt = c.pkt ∧ c2.fault = c.fault ∧ (∀ r, r ≠ q → d2.queue r = d1.queue r) ∧ Completes (.commitTimeout w) s (d2.finish q 0x45 0 0xA103)) ∧
    (d.repairs.find? (·.win == w.val) = none → Completes (.repairTimeout w) s d) ∧
    (∀ r, d.repairs.find? (·.win == w.val) = some r → d.repairDue w = some (r.since + d.ticksOf .mirRepairTmo)) ∧
    ∀ d1 r, Comes (·.repairDue w) d d1 → d1.repairs.find? (·.win == w.val) = some r → d1.repairs.find? (·.id == r.id) = some r → Reaches (.repairTimeout w) s fun d' =>
      (d1.channelFailed (r.slice / 16) r.loc = false → d'.hbmBad (r.slice / 16) r.loc = true) ∧
      ((d1.slice r.slice).checks.length < 256 → ∀ a, d'.hbm.read a = d1.hbm.read a) ∧ d'.repairs = d1.repairs.filter (fun y => y.id != r.id) ∧
      (∀ k, (d'.slice k).lines = (d1.slice k).lines ∧ (d'.slice k).pend = (d1.slice k).pend) ∧ (∃ y l, d'.reports = d1.reports ++ y :: l ∧ y.code = r.code ∧ y.addr = r.line * 128) ∧
      (r.held = false → d'.net = d1.net) ∧
      (r.held = true → Sent d1.net { kind := .hbmData, src := .slice r.slice, dst := .slice r.slice, line := r.line, loc := r.loc, data := d1.hbmLine (r.slice / 16) r.loc, poison := true } d')

/-- Fabric ports and the registers that decide what may use them (R367 to R371, R374, R385, R386). -/
def Obligations.FabricPorts : Prop :=
  (∀ (s : State) (p : PortIx), s.dev.live = true →
    let d := s.dev
    let x := d.port p
    let inst := d.instOfPort p
    let causes (code bit : Nat) (d' : Dev) : Prop := d'.regBit .fabErrStatus [] bit = true ∧ ∃ r, d'.reports = d.reports ++ [r] ∧ r.code = code ∧ r.master = 0xF880 + p.val ∧ r.inst = some inst
    let others (d' : Dev) : Prop := KeepsCompute d d' ∧ KeepsQueues d d' ∧ ∀ k, k ≠ p.val → (d'.port k).st = (d.port k).st
    let becomes (st why : Nat) (d' : Dev) : Prop := (d'.port p).st = st ∧ (d'.port p).why = why
    let goesDown (c : Instr) : Prop := (x.st ≠ 3 → Completes c s d) ∧ (x.st = 3 → Reaches c s fun d' => others d' ∧ causes 0x6101 0 d' ∧ becomes 4 0 d' ∧
      (d'.port p).direct = false ∧ (d'.port p).replay = [] ∧ (d'.port p).wait = [] ∧ (d'.port p).leftUp = d.ticks ∧ d'.quiet.find? p = some (d.ticks + d.quietTicks ((rcvKind p).getD 0)) ∧
      ∀ i b, (((d'.peer i).stream b).unacked.map (·.frame) = ((d.peer i).stream b).unacked.map (·.frame)) ∧
        ∀ v sl k, (d.peer i).st = 0 → ((d.peer i).stream b).unacked ≠ [] → (d.routes i)[((d.peer i).stream b).slot]? = some (v, p.val) → d'.routePort i = some (sl, k) →
          ((d'.peer i).stream b).slot = sl ∧ ∀ y ∈ ((d.peer i).stream b).unacked, ∃ g, (OutMsg.frame k g ∈ d'.out ∨ (d.port k).direct = true ∧ g ∈ (d'.port k).wait) ∧ g.seq = y.frame.seq ∧ g.op = y.frame.op ∧ g.data = y.frame.data)
    Reaches (.portEnable p) s (fun d' => others d' ∧ d'.regBit .fabPortCtl [p] 0 = false ∧ d'.peers = d.peers ∧
      (x.st ≠ 0 ∨ d.portCount ≤ p → d'.port p = x ∧ d'.reports = d.reports) ∧
      (x.st = 0 → p < d.portCount → (d.portSplit p = true → becomes 1 1 d' ∧ causes 0x6103 2 d') ∧ (d.portSplit p = false → (d.regBit .fabDevid [inst] 31 = false → d'.port p = x ∧ d'.reports = d.reports) ∧
        (d.regBit .fabDevid [inst] 31 = true → (d.regBit .fabCfg [] 15 = false → becomes 1 3 d' ∧ causes 0x6104 3 d') ∧ (d.regBit .fabCfg [] 15 = true → becomes 2 0 d' ∧ d'.reports = d.reports))))) ∧
    Reaches (.portDisable p) s (fun d' => others d' ∧ d'.regBit .fabPortCtl [p] 0 = true ∧ becomes 0 0 d' ∧ (d'.port p).wasUp = false ∧ (d'.port p).direct = false ∧
      d'.quiet.find? p = none ∧ d'.reports = d.reports) ∧
    goesDown (.portDownRequest p) ∧ goesDown (.portAlignmentLoss p) ∧
    (∀ f, x.st ≠ 2 → Completes (.portTrainingDone p f) s d) ∧
    (x.st = 2 → Reaches (.portTrainingDone p .failed) s (fun d' => others d' ∧ becomes 5 4 d' ∧ causes 0x6102 1 d') ∧
      Reaches (.portTrainingDone p .laneOrder) s (fun d' => others d' ∧ becomes 1 2 d' ∧ causes 0x6103 2 d') ∧
      ∀ lk8 active, Reaches (.portTrainingDone p (.up lk8 active)) s fun d' => others d' ∧ becomes 3 0 d' ∧ d'.reports = d.reports ∧ (d'.port p).activeCbl = active ∧
        ((d'.port p).direct = true ↔ d.regBit .fabPortCtl [p] 2 = true ∧ ∃ y, lk8 = some y ∧ y.2.2 = true) ∧ (∀ y, lk8 = some y → (d'.port p).partnerPort = y.1 ∧ (d'.port p).partnerId = y.2.1) ∧
        (x.wasUp = false → d'.regs = d.regs) ∧ (x.wasUp = true → d'.regFld .fcRcv [p] 15 0 = min 65535 (d.regFld .fcRcv [p] 15 0 + 1)))) ∧
  (∀ s : State, s.dev.live = true →
    let d := s.dev
    Reaches .fabricRefclkLoss s (fun d' => KeepsCompute d d' ∧ d'.regBit .fabCfg [] 15 = false ∧
      (∀ p, p < 24 → (d'.port p).st = (if 2 ≤ (d.port p).st then 1 else (d.port p).st) ∧ (d'.port p).why = if 2 ≤ (d.port p).st then 3 else (d.port p).why) ∧
      ∃ rs, d'.reports = d.reports ++ rs ∧ rs.map (·.master) = ((List.range 24).filter fun p => 2 ≤ (d.port p).st).map (0xF880 + ·) ∧ ∀ r ∈ rs, r.code = 0x6104) ∧
    Reaches .fabricRefclkReturn s fun d' => KeepsCompute d d' ∧ d'.regBit .fabCfg [] 15 = true ∧ d'.peers = d.peers ∧
      ∀ p, p < 24 → let x := d.port p
        (¬ (x.st = 1 ∧ x.why = 3) → d'.port p = x) ∧ (x.st = 1 → x.why = 3 → p < d.portCount → d.regBit .fabPortCtl [p] 0 = false → d.portSplit p = false → d.regBit .fabDevid [d.instOfPort p] 31 = true →
          (d'.port p).st = 2 ∧ (d'.port p).why = 0)) ∧
  ∀ (s : State) (v : W32), s.dev.live = true →
    let d := s.dev
    (∀ k : Fin 8, let ports := (List.range d.portCount).filter fun p => !d.portSplit p && d.instOfPort p == k.val
      ((∃ p ∈ ports, (d.port p).st ≠ 0) → Completes (.fabDevidWrite k v) s d) ∧
      ((∀ p ∈ ports, (d.port p).st = 0) → Reaches (.fabDevidWrite k v) s fun d' => KeepsCompute d d' ∧ d'.reg .fabDevid [k] = v &&& 0x800FFFFF#32 ∧
        (∀ p, p ∉ ports ∨ v.getLsbD 31 = false ∨ d.regBit .fabPortCtl [p] 0 = true → d'.port p = d.port p) ∧
        ∀ p ∈ ports, v.getLsbD 31 = true → d.regBit .fabPortCtl [p] 0 = false → (d'.port p).st = (if d.regBit .fabCfg [] 15 then 2 else 1) ∧ (d'.port p).why = if d.regBit .fabCfg [] 15 then 0 else 3)) ∧
    (∀ i : Fin 4096, let w := v &&& 0xC00FFFFF#32
      let full : Prop := w.getLsbD 30 = true ∧ 4095 ≤ d.systemCount i
      let same : Prop := (w ^^^ d.reg .fabPeerId [i]) &&& 0x800FFFFF#32 = 0
      (full → Completes (.fabPeerIdWrite i v) s d) ∧ (¬ full → same → Completes (.fabPeerIdWrite i v) s (d.setReg .fabPeerId [i] w)) ∧
      (¬ full → ¬ same → Reaches (.fabPeerIdWrite i v) s fun d' => d'.reg .fabPeerId [i] = w ∧ d'.peer i = {} ∧ ∀ p, (d'.port p).st = (d.port p).st)) ∧
    ∀ (i : Fin 256) (k : Fin 3), (d.clampValid i = true → Completes (.fabXclpWrite i k v) s d) ∧
      (d.clampValid i = false → Completes (.fabXclpWrite i k v) s (if k = 0 then d.setReg .fabXclpCfg [i] (v &&& 0xC0000FFF#32)
        else if k = 1 then d.setReg .fabXclpKids0 [i] (v &&& 0x8FFF8FFF#32) else d.setReg .fabXclpKids1 [i] (v &&& 0x8FFF8FFF#32)))

/-- The checks on arrival and the reliability of R377 and R382 to R384. The time of a port that has never been UP, the first RESYNC, and what a RESYNC from a peer
that is OK does where nothing is outstanding are the model's choices (log 48). -/
def Obligations.FabricArrivals : Prop :=
  (∀ (s : State) (p : PortIx) (find : FrameFind) (f : Frame) (sub : Fin 20), s.dev.live = true → ∀ r, FrameRow p find f sub r →
    let d := s.dev
    let x := d.port p
    let inst := d.instOfPort p
    let link (op l : Nat) : OutMsg := .frame p { op := op, src := d.ownId inst, dst := x.partnerId, lseq := l % 256 }
    let lnak : List OutMsg := if x.direct then [link 0x34 x.lseqExp] else []
    let kept (d' : Dev) : Prop := KeepsCompute d d' ∧ KeepsQueues d d' ∧ d'.peers = d.peers ∧ d'.fabReads = d.fabReads ∧ d'.mirrors = d.mirrors
    let bySeq : Prop := x.direct = true ∧ r.1 ≠ 0x33 ∧ r.1 ≠ 0x34
    let whole : Prop := find = .ok ∨ find = .crc ∨ find = .version
    (x.st ≠ 3 → Completes r.2 s d) ∧
    (x.st = 3 → find = .fec → Reaches r.2 s fun d' => kept d' ∧ d'.ports = d.ports ∧ d'.out = d.out ++ lnak ∧ d'.regBit .fabErrStatus [] 4 = true ∧
      d'.regFld .fabCeCount [] 31 16 = min 65535 (d.regFld .fabCeCount [] 31 16 + 1) ∧ ∃ y, d'.reports = d.reports ++ [y] ∧ y.code = 0x6105 ∧ y.master = 0xF880 + p.val) ∧
    (x.st = 3 → find = .fcs → Completes r.2 s { d with out := d.out ++ lnak }) ∧ (x.st = 3 → find = .etype → Completes r.2 s d) ∧
    (x.st = 3 → whole → bySeq → f.lseq % 256 ≠ x.lseqExp → Completes r.2 s { d with
      out := d.out ++ if (x.lseqExp + 256 - f.lseq % 256) % 256 < 128 then [link 0x33 (x.lseqExp + 255)] else lnak }) ∧
    (x.st = 3 → whole → ¬ bySeq ∨ f.lseq % 256 = x.lseqExp →
      find ≠ .ok ∨ d.regBit .fabDevid [inst] 31 = false ∨ f.dst ≠ d.ownId inst ∨ d.findPeer inst f.src = none ∨ (r.1 ∈ [0x04, 0x05, 0x06, 0x08, 0x20, 0x21] ∧ ∃ i, d.findPeer inst f.src = some i ∧ d.peerSystem i = false) →
      Reaches r.2 s fun d' => kept d' ∧ d'.regBit .fabErrStatus [] 8 = true ∧ ∃ y, d'.reports = d.reports ++ [y] ∧ y.code = 0x6203 ∧ y.access = 0x70 ∧ y.master = 0xF829 + f.src % 16 ∧ y.inst = some inst) ∧
    ∀ i d1, r.1 < 0x30 → Arrives d p find f r.1 i d1 →
      let c := clampStream r.1
      let st := (d.peer i).stream c
      (f.seq ≠ st.expected → seqLe f.seq st.expected = true → Completes r.2 s ((d1.ackTo i c f.ack).sendAck i c)) ∧
      (f.seq ≠ st.expected → seqLe f.seq st.expected = false → ((∃ t, st.nakAt = some t ∧ d.ticks < t + 50) → Completes r.2 s d1) ∧ ((∀ t, st.nakAt = some t → t + 50 ≤ d.ticks) →
        Completes r.2 s ((d1.modPeer i fun y => y.setStream c { st with nakAt := some d.ticks }).sendPlain i
          { op := 0x31, src := d.ownId (d.instOfPeer i), dst := d.peerDev i, seq := st.expected, ack := st.ackVal, tag := b2n c })))) ∧
  (∀ (s : State) (p : PortIx) (f : Frame) (i : Nat), s.dev.live = true →
    let d := s.dev
    let x := d.port p
    let c : Bool := f.tag == 1
    let leaves (e d' : Dev) (k : Nat) (g : Frame) : Prop := OutMsg.frame k g ∈ d'.out ∨ (e.port k).direct = true ∧ g ∈ (d'.port k).wait
    let st := (d.peer i).stream c
    let done := st.unacked.takeWhile fun y => seqLe y.frame.seq f.ack
    let rest := st.unacked.drop done.length
    let replays (d : Dev) (cmd : Instr) (l : Nat) : Prop := let x := d.port p
      ((∀ y ∈ x.replay, y.lseq ≠ l) → Completes cmd s d) ∧ ∀ pre g post, x.replay = pre ++ g :: post → g.lseq = l → (∀ y ∈ pre, y.lseq ≠ l) →
      let n := if x.fails ≠ 0 ∧ x.failSeq = l then x.fails + 1 else 1
      (4 ≤ n → Reaches cmd s fun d' => KeepsCompute d d' ∧ (d'.port p).st = 4 ∧ (d'.port p).replay = [] ∧ ∃ y, d'.reports = d.reports ++ [y] ∧ y.code = 0x6101) ∧
      (n < 4 → Reaches cmd s fun d' => KeepsCompute d d' ∧ d'.port p = { x with replay := g :: post, fails := n, failSeq := l, lackAt := d.ticks } ∧ d'.out = d.out ++ (g :: post).map (.frame p) ∧
        d'.regFld .fabCeCount [] 15 0 = min 65535 (d.regFld .fabCeCount [] 15 0 + 1) ∧ ∃ y, d'.reports = d.reports ++ [y] ∧ y.code = 0x6106)
    let again (d2 d' : Dev) : Prop := ((d'.peer i).stream c).unacked.map (·.frame) = ((d2.peer i).stream c).unacked.map (·.frame) ∧ ∀ sl k, d2.streamPort i ((d2.peer i).stream c) = some (sl, k) →
      ∀ y ∈ ((d2.peer i).stream c).unacked, ∃ g, leaves d2 d' k g ∧ g.seq = y.frame.seq ∧ g.op = y.frame.op ∧ g.laddr = y.frame.laddr ∧ g.data = y.frame.data
    (∀ d1, Arrives d p .ok f 0x30 i d1 → (done = [] → Completes (.ack p .ok f) s d1) ∧
      (done ≠ [] → Reaches (.ack p .ok f) s fun d' => (d'.peer i).expiries = 0 ∧ ((d'.peer i).stream c).expected = st.expected ∧ (st.backlog = [] → ((d'.peer i).stream c).unacked = rest) ∧
        (d.peerDown i = false → st.unacked.length ≤ 256 → ((d'.peer i).stream c).unacked.length = min 256 (rest.length + st.backlog.length)) ∧
        ∀ y q seq z, done = [y] → y.frame.op = 0x01 ∨ y.frame.op = 0x04 → y.owner = .queue q seq → (d.queue q).run = some z → z.seq = seq →
          (d'.queue q).run = some { z with acks := z.acks - 1, off := if z.phase = 2 ∧ z.bad = none then z.off + y.frame.len else z.off })) ∧
    (∀ d1, Arrives d p .ok f 0x31 i d1 → done = [] → Reaches (.nak p .ok f) s (again d1)) ∧
    (∀ d1, Arrives d p .ok f 0x33 i d1 → ((∀ y ∈ x.replay, y.lseq ≠ f.lseq % 256) → Completes (.lack p .ok f) s d) ∧
      ∀ pre g post, x.replay = pre ++ g :: post → g.lseq = f.lseq % 256 → (∀ y ∈ pre, y.lseq ≠ f.lseq % 256) → 
        (x.wait = [] → Completes (.lack p .ok f) s (d.setPort p { x with replay := post, fails := 0, lackAt := d.ticks })) ∧
        Reaches (.lack p .ok f) s fun d' => ∃ new, (d'.port p).replay = post ++ new ∧ (d'.port p).fails = 0 ∧ d'.out = d.out ++ new.map (.frame p) ∧ d'.peers = d.peers ∧ ∀ g ∈ new, ∃ w ∈ x.wait, g = { w with lseq := g.lseq }) ∧
    (∀ d1, Arrives d p .ok f 0x34 i d1 → replays d (.lnak p .ok f) (f.lseq % 256)) ∧
    (¬ (x.direct = true ∧ x.st = 3) ∨ x.replay = [] → Completes (.llrAckTimeout p) s d) ∧ (x.direct = true → x.st = 3 → x.replay ≠ [] → d.lackDue p = some (x.lackAt + 30)) ∧
    (∀ d1 g post, Comes (·.lackDue p) d d1 → (d1.port p).st = 3 → (d1.port p).replay = g :: post → replays d1 (.llrAckTimeout p) g.lseq)) ∧
  ∀ (s : State) (i : Fin 4096) (c : Bool), s.dev.live = true →
    let d := s.dev
    let y := d.peer i
    let st := y.stream c
    let retry := if d.regFld .fabRto [] 31 24 = 0 then 8 else d.regFld .fabRto [] 31 24
    let rto := if d.regFld .fabRto [] 23 0 = 0 then 0x3E8 else d.regFld .fabRto [] 23 0
    let olds (e : Dev) : List SentFrame := let y := e.peer i
      y.bulk.unacked ++ y.bulk.backlog ++ y.clamp.unacked ++ y.clamp.backlog
    let reads (e : Dev) := e.fabReads.cells.filter fun z => z.2.peer == i.val
    let few (e : Dev) : Prop := (∀ w ∈ e.mirrors.keys, e.mirNeeds w i (olds e) = false) ∧ ∀ k, k < 256 → e.clampUses k i = false
    let opFails (e : Dev) (o : FabOwner) (d' : Dev) : Prop := (∀ q seq z, o = .queue q seq → (e.queue q).run = some z → z.seq = seq →
        (d'.queue q).run = some { z with acks := z.acks - 1, bad := if z.bad = none then some (0x22, 0x6201, 0) else z.bad }) ∧
      ∀ b id t, o = .tm b id → (e.bench b).tm.find? (·.id == id) = some t → t.ctx < 4 → ((d'.bench b).ctxN t.ctx).killed = true ∧ ((d'.bench b).ctxN t.ctx).killCause = 0x6201
    let failed (e d' : Dev) : Prop := (d'.peer i).bulk = {} ∧ (d'.peer i).clamp = {} ∧
      (few e → e.collQueues (e.instOfPeer i) = [] → (∀ z, reads e = [] → olds e = [z] → z.frame.op = 0x01 ∨ z.frame.op = 0x04 → opFails e z.owner d') ∧
        ∀ t z, reads e = [(t, z)] → (∀ o ∈ olds e, o.owner = .none) → opFails e z.owner d') ∧
      (∀ w ∈ e.mirrors.keys, (∀ v ∈ e.mirrors.keys, v < 576) → e.mirState w = 3 → (e.mir w).peer = i.val → d'.mirState w = 6) ∧
      ∀ k, k < 256 → e.clampUses k i = true → e.clampValid k = true → d'.regBit .clpIdcfg [k] 30 = true
    let lost (e : Dev) (cmd : Instr) : Prop := Reaches cmd s (fun d' => (d'.peer i).st = 2 ∧ (d'.peer i).resyncAt = e.ticks ∧ d'.regBit .fabErrStatus [] 6 = true ∧ failed e d' ∧
        ∃ r rs, d'.reports = e.reports ++ r :: rs ∧ r.code = 0x6201 ∧ r.master = 0xF829 + e.peerDev i % 16) ∧
      ∀ q z, few e → reads e = [] → (∀ o ∈ olds e, o.owner = .none) → e.collQueues (e.instOfPeer i) = [q] → (e.queue q).run = some z → z.members.contains (e.peerDev i) = true →
        ∃ (d2 : Dev) (z2 : Cmd), (d2.queue q).run = some z2 ∧ z2.seq = z.seq ∧ z2.pkt = z.pkt ∧ z2.fault = z.fault ∧ (∀ r, r ≠ q → d2.queue r = e.queue r) ∧ (d2.peer i).st = 2 ∧
          Completes cmd s (d2.finish q 0x30 (z.listIndex (e.peerDev i)) 0x6201)
    let leaves (e d' : Dev) (k : Nat) (g : Frame) : Prop := OutMsg.frame k g ∈ d'.out ∨ (e.port k).direct = true ∧ g ∈ (d'.port k).wait
    let resyncs (e d' : Dev) : Prop := ∀ sl k, e.routePort i = some (sl, k) → ∃ g, leaves e d' k g ∧ g.op = 0x32 ∧ g.src = e.ownId (e.instOfPeer i) ∧ g.dst = e.peerDev i
    (st.ackDue = false → Completes (.ackDelayExpiry i c) s d) ∧ (st.ackDue = true → d.ackDelayDue i c = some (st.ackAt + 5)) ∧
    (∀ d1, Comes (·.ackDelayDue i c) d d1 → let st := (d1.peer i).stream c
      Reaches (.ackDelayExpiry i c) s fun d' => d'.peer i = (d1.peer i).setStream c { st with ackDue := false } ∧ (d1.routePort i = none → d'.out = d1.out) ∧
        ∀ sl k, d1.routePort i = some (sl, k) → ∃ g, leaves d1 d' k g ∧ ((d1.port k).direct = false → d'.out = d1.out ++ [.frame k g]) ∧
          g.op = 0x30 ∧ g.src = d1.ownId (d1.instOfPeer i) ∧ g.dst = d1.peerDev i ∧ g.ack = st.ackVal ∧ g.tag = b2n c) ∧
    (y.st ≠ 0 ∨ st.unacked = [] → Completes (.retransmitTimeout i c) s d) ∧ (∀ x rest, y.st = 0 → st.unacked = x :: rest → d.retransmitDue i c = some (x.sentAt + rto)) ∧
    (∀ d1, Comes (·.retransmitDue i c) d d1 → let y := d1.peer i
      let st := y.stream c
      (retry ≤ y.expiries + 1 → lost d1 (.retransmitTimeout i c)) ∧ (y.expiries + 1 < retry → Reaches (.retransmitTimeout i c) s fun d' => (d'.peer i).expiries = y.expiries + 1 ∧
        ((d'.peer i).stream c).unacked.map (·.frame) = st.unacked.map (·.frame) ∧
        ∀ sl k, d1.streamPort i st = some (sl, k) → ∀ x ∈ st.unacked, ∃ g, leaves d1 d' k g ∧ g.seq = x.frame.seq ∧ g.data = x.frame.data)) ∧
    (¬ (d.peerValid i = true ∧ y.st = 0 ∧ d.routePort i = none) → Completes (.peerNoPortTimeout i) s d) ∧
    (d.peerValid i = true → y.st = 0 → d.routePort i = none → ∃ t, d.noPortDue i = some (t + 50000) ∧ (∀ r ∈ d.routes i, r.1 = true → (d.port r.2).leftUp ≤ t) ∧
      (t = 0 ∨ ∃ r ∈ d.routes i, r.1 = true ∧ (d.port r.2).leftUp = t)) ∧
    (∀ d1, Comes (·.noPortDue i) d d1 → lost d1 (.peerNoPortTimeout i)) ∧
    (y.st = 0 ∨ d.routePort i = none → Completes (.resyncTimer i) s d) ∧ (y.st ≠ 0 → d.routePort i ≠ none → d.resyncDue i = some (y.resyncAt + 50000)) ∧
    (∀ d1, Comes (·.resyncDue i) d d1 → let y := d1.peer i
      Reaches (.resyncTimer i) s fun d' => resyncs d1 d' ∧ d'.peer i = if y.resyncGot then {} else { y with st := 1, resyncSent := true, resyncAt := d1.ticks }) ∧
    ∀ (p : PortIx) (f : Frame) (d1 : Dev), Arrives d p .ok f 0x32 i d1 →
      (y.st ≠ 0 → Reaches (.resync p .ok f) s fun d' => d'.peer i = if y.resyncSent then {} else { y with st := 1, resyncGot := true }) ∧
      (y.st = 0 → Reaches (.resync p .ok f) s fun d' => d'.peer i = {} ∧ failed d d' ∧ resyncs d d')

/-- Frames that ask something of this device (R378, R379, R386, R388, R416). That a clamp frame to an entry which is no system peer raises 0x6205 is the model's
choice (log 29). -/
def Obligations.FabricRequests : Prop :=
  ∀ (s : State) (p : PortIx) (f : Frame) (i : Nat) (d1 : Dev), s.dev.live = true →
    let d := s.dev
    let inst := d.instOfPeer i
    let who := Who.inst inst
    let a := nfld f.laddr 39 0
    let al := fabAlias f.laddr
    let word (o : Nat) : Nat := leNat ((f.data.drop o).take 4)
    let fn := word 0 % 256
    let next (c : Bool) : Prop := f.seq = ((d.peer i).stream c).expected
    let answers (op : Nat) (d2 : Dev) (P : Frame → Prop) : Prop := Queued d2 i false fun g => g.op = op ∧ g.src = d.ownId inst ∧ g.dst = f.src ∧ P g
    let refuses (r : Nat × Instr) (st : Nat) : Prop := Accepts r.2 s r.1 i f fun d2 => KeepsCompute d d2 ∧ d2.mirrors = d.mirrors ∧ answers 0x07 d2 (fun g => g.laddr = f.seq ∧ g.tag = st) ∧
      ∃ y, d2.reports = d.reports ++ [y] ∧ y.code = (if st = 1 then 0x3101 else 0x6202) ∧ y.master = 0xF829 + f.src % 16 ∧ y.access = 0x70 ∧ y.addr = a ∧ y.inst = some inst
    let line (l : Loc) (k : Nat) (y : SLine) (d2 : Dev) : Prop := d2.benches = d.benches ∧ d2.bays = d.bays ∧ d2.hbm = d.hbm ∧ d2.reports = d.reports ∧ (∀ z, z ≠ homeSlice l.die l.x → d2.slice z = d.slice z) ∧
      (d2.slice (homeSlice l.die l.x)).pend = (d.slice (homeSlice l.die l.x)).pend ∧ (∃ u, (d2.slice (homeSlice l.die l.x)).lines.find? k = some { y with used := u }) ∧
      ∀ j, j ≠ k → (d2.slice (homeSlice l.die l.x)).lines.find? j = (d.slice (homeSlice l.die l.x)).lines.find? j
    let writes : List (Nat × Instr) := [(0x01, .writeFrame p .ok f), (0x10, .mirrorWrite p .ok f), (0x11, .mirrorCommitFrame p .ok f)]
    let reads : Nat × Instr := (0x02, .readReq p .ok f)
    let red : Nat × Instr := (0x04, .redFrame p .ok f)
    let atomic : Nat × Instr := (0x05, .atomicFrame p .ok f)
    let size (op : Nat) : Nat := if op = 0x02 then f.len else if op = 0x05 then 4 else f.data.length
    let ready (op : Nat) : Prop := Arrives d p .ok f op i d1 ∧ next (clampStream op)
    let may (wr : Bool) (n : Nat) : Prop := d.mapped who false a n = true ∧ (wr = true → d.mapped who true a n = true)
    let part (n : Nat) (l : Loc) : Prop := d.access who a = some l ∧ 0 < n ∧ a % 128 + n ≤ 128
    let goodAtomic : Prop := f.len = 16 ∧ a % 4 = 0 ∧ 0x10 ≤ fn ∧ fn ≤ 0x1C
    let goodRed : Prop := 1 ≤ al ∧ al ≤ 9 ∧ a % reduceBytes (aliasTy al) = 0 ∧ f.data.length % reduceBytes (aliasTy al) = 0
    (∀ r ∈ writes ++ [reads, red, atomic], ready r.1 → (r.1 = 0x05 → goodAtomic) → let n := size r.1
      (d.mapped who false a n = false → refuses r 1) ∧ (r.1 ≠ 0x02 → d.mapped who false a n = true → d.mapped who true a n = false → refuses r 2) ∧
      (∀ l, may (r.1 != 0x02) n → (r.1 = 0x04 → goodRed) → part n l → (d.die l.die).st = 2 → (∃ y ∈ (d.slice (homeSlice l.die l.x)).pend, y.req.loc = l.x / 128) → Completes r.2 s d) ∧
      ∀ l, may (r.1 != 0x02) n → (r.1 = 0x04 → goodRed) → part n l → (d.die l.die).st ≠ 2 → Accepts r.2 s r.1 i f fun d2 => KeepsCompute d d2 ∧ (∃ y, d2.reports = d.reports ++ [y] ∧ y.code = 0x5108) ∧
        (r.1 = 0x02 → answers 0x03 d2 fun g => g.tag = f.tag ∧ g.laddr = f.laddr ∧ g.len = n ∧ g.data = List.replicate n 0 ∧ g.poison = true)) ∧
    (ready 0x05 → ¬ goodAtomic → refuses atomic 6) ∧ (ready 0x04 → may true f.data.length → ¬ goodRed → refuses red 3) ∧
    (∀ r ∈ writes, ∀ l k x, ready r.1 → may true f.data.length → part f.data.length l → HomeHolds d l k x →
      let stored (d2 : Dev) : Prop := (d.mirOf a = [] → line l k { x with data := mergeLine x.data (linePut (a % 128) f.data) (beRange (a % 128) f.data.length), dirty := true, presence := 0, poison := f.poison && r.1 == 0x01 } d2) ∧
        ∀ w, d.mirOf a = [w] → (d.mir w).bitmapValid = false → let b := (a - d.mirBase w) / 4096
          (d2.mir w).wrote.find? b = some d.ticks ∧ (if d.mirState w = 3 then (d2.mir w).late.has b = true else (d2.mir w).d0.has b = true ∧ (d2.mir w).d1.has b = true)
      Accepts r.2 s r.1 i f fun d2 => stored d2 ∧ (r.1 = 0x11 → answers 0x12 d2 fun g => g.laddr = headerEpoch f.data ∧ g.tag = f.tag)) ∧
    (ready 0x02 → may false f.len → (∀ l k x, part f.len l → HomeHolds d l k x → Accepts reads.2 s 0x02 i f fun d2 => KeepsBytes d d2 ∧ d2.reports = d.reports ∧
        answers 0x03 d2 fun g => g.tag = f.tag ∧ g.laddr = f.laddr ∧ g.len = f.len ∧ g.data = x.data.slice (a % 128) f.len ∧ g.poison = false) ∧
      (∀ bs, f.len = 4096 → BlockHeld d who a bs → Accepts reads.2 s 0x02 i f fun d2 => KeepsBytes d d2 ∧ answers 0x03 d2 fun g => g.tag = f.tag ∧ g.laddr = f.laddr ∧ g.data = bs ∧ g.poison = false) ∧
      ∀ l k x, part f.len l → HomePoisoned d l k x → Accepts reads.2 s 0x02 i f fun d2 => answers 0x03 d2 fun g => g.tag = f.tag ∧ g.laddr = f.laddr ∧ g.len = f.len ∧ g.poison = true) ∧
    (ready 0x04 → may true f.data.length → goodRed → ∀ l k x, part f.data.length l → (HomePoisoned d l k x → refuses red 4) ∧ (HomeHolds d l k x → d.mirOf a = [] → Accepts red.2 s 0x04 i f (line l k
        { x with data := reduceLine (aliasOp al) (aliasTy al) x.data (linePut (a % 128) f.data) (beRange (a % 128) f.data.length), dirty := true }))) ∧
    (ready 0x05 → may true 4 → goodAtomic → ∀ l k x, part 4 l → (HomePoisoned d l k x → refuses atomic 4) ∧ (HomeHolds d l k x → d.mirOf a = [] → Accepts atomic.2 s 0x05 i f fun d2 =>
      let old := laneN x.data 32 (a % 128 / 4)
      line l k { x with data := setLaneN x.data 32 (a % 128 / 4) (atomicOp fn old (if fn = 0x1C then word 8 else word 4) (word 4)), dirty := true } d2 ∧
        answers 0x06 d2 fun g => g.laddr = f.laddr ∧ g.tag = f.tag ∧ g.len = 4 ∧ g.data = leBytes old 4)) ∧
    (ready 0x08 → let gen := f.laddr % 2 ^ 32
      let qs := d.collQueues inst
      (qs = [] → Accepts (.coll p .ok f) s 0x08 i f fun d2 => KeepsCompute d d2 ∧ KeepsQueues d d2 ∧ d2.collHeld = d.collHeld ++ [(inst, gen, f.tag, f.src, f.laddr / 2 ^ 32)]) ∧
      (qs ≠ [] → (∀ q ∈ qs, ∀ c, (d.queue q).run = some c → c.collGen ≠ gen) → refuses (0x08, .coll p .ok f) 5) ∧
      ∀ q c, qs = [q] → (d.queue q).run = some c → c.collGen = gen → Accepts (.coll p .ok f) s 0x08 i f fun d2 => KeepsCompute d d2 ∧ d2.collHeld = d.collHeld ∧
        d2.queue q = { d.queue q with run := some { c with coll := c.coll ++ [(f.tag, f.src, f.laddr / 2 ^ 32)] } } ∧ ∀ r, r ≠ q → d2.queue r = d.queue r) ∧
    (let k := clampDataId f.data
     let v := clampDataVal f.data
     let was := d.reg .clpIdval [k]
     let told (op j : Nat) (w : W32) (d2 : Dev) : Prop := Queued d2 j true fun g => g.op = op ∧ g.data = clampData k w
     let apart (d2 : Dev) : Prop := KeepsCompute d d2 ∧ KeepsQueues d d2 ∧ d2.reports = d.reports
     let reach (j : Nat) : Prop := d.peerDown j = false ∧ d.peerValid j = true ∧ d.peerSystem j = true
     let dies (w : W32) (d2 : Dev) : Prop := ∀ n ∈ d.clampDies k, (d.die n).st = 2 → ∃ m ∈ d2.clampDown, m.die = n ∧ m.id = k ∧ m.value = w ∧ m.left = BitVec.allOnes 144
     let up := Instr.clampUp p .ok f
     let down := Instr.clampDown p .ok f
     (ready 0x20 → (256 ≤ k ∨ d.xclp k = false → Accepts up s 0x20 i f fun d2 => apart d2 ∧ d2.regs = d.regs) ∧ (k < 256 → d.xclp k = true → d.xclpRoot k = true →
        (d.clampValid k = false → Accepts up s 0x20 i f fun d2 => KeepsCompute d d2 ∧ d2.reg .clpIdval [k] = was ∧ ∃ y, d2.reports = d.reports ++ [y] ∧ y.code = 0x6302 ∧ y.master = 0xF829 + f.src % 16) ∧
        (d.clampValid k = true → d.clampFailed k = false → d.clampDevScope k = true → (∀ j ∈ d.xclpKids k, reach j) → Accepts up s 0x20 i f fun d2 => apart d2 ∧ d2.reg .clpIdval [k] = was + v ∧ dies (was + v) d2 ∧ ∀ j ∈ d.xclpKids k, told 0x21 j (was + v) d2)) ∧
      (k < 256 → d.xclp k = true → d.xclpRoot k = false → (d.clampFailed k = true → Accepts up s 0x20 i f fun d2 => apart d2 ∧ d2.regs = d.regs) ∧
        (d.clampFailed k = false → d.peerDown (d.xclpParent k) = false → ¬ reach (d.xclpParent k) → Accepts up s 0x20 i f fun d2 => KeepsCompute d d2 ∧ ∃ y, d2.reports = d.reports ++ [y] ∧ y.code = 0x6205) ∧
        (d.clampFailed k = false → d.peerDown (d.xclpParent k) = true → d.clampValid k = true → Accepts up s 0x20 i f fun d2 => d2.clampFailed k = true) ∧
        (d.clampFailed k = false → reach (d.xclpParent k) → (d.peer (d.xclpParent k)).clamp.backlog = [] → Accepts up s 0x20 i f fun d2 => apart d2 ∧ d2.regs = d.regs ∧ told 0x20 (d.xclpParent k) v d2))) ∧
     (ready 0x21 → (256 ≤ k ∨ d.xclp k = false ∨ d.xclpRoot k = true → Accepts down s 0x21 i f fun d2 => apart d2 ∧ d2.regs = d.regs) ∧
      (k < 256 → d.xclp k = true → d.xclpRoot k = false → (∀ j ∈ d.xclpKids k, reach j) → Accepts down s 0x21 i f fun d2 => apart d2 ∧ (∀ j ∈ d.xclpKids k, told 0x21 j v d2) ∧
        d2.reg .clpIdval [k] = (if d.clampValid k ∧ d.clampFailed k = false then v else was) ∧ (d.clampValid k = true → d.clampFailed k = false → dies v d2))))

/-- Answers and time sync (R379, R380, R387, R417). -/
def Obligations.FabricAnswers : Prop :=
  (∀ (s : State) (p : PortIx) (f : Frame) (i : Nat) (d1 : Dev), s.dev.live = true →
    let d := s.dev
    let inst := d.instOfPeer i
    let ready (op : Nat) : Prop := Arrives d p .ok f op i d1 ∧ f.seq = (d.peer i).bulk.expected
    let mine (x : FabRead) : Prop := d.fabReads.find? f.tag = some x ∧ x.peer = i
    let kept (d2 : Dev) : Prop := KeepsCompute d d2 ∧ KeepsQueues d d2 ∧ d2.fabReads = d.fabReads ∧ d2.mirrors = d.mirrors ∧ d2.regs = d.regs ∧ d2.reports = d.reports
    let killedFor (b n code : Nat) (d2 : Dev) : Prop := ((d2.bench b).ctxN n).killed = true ∧ ((d2.bench b).ctxN n).killCause = code ∧ (d2.bench b).tile = (d.bench b).tile
    (ready 0x03 → (¬ (∃ x, mine x) → Accepts (.readRsp p .ok f) s 0x03 i f kept) ∧ ∀ x, mine x → f.laddr = x.laddr →
      let n := f.data.length
      let last : Prop := x.len ≤ n
      let left (d2 : Dev) : Prop := (last → d2.fabReads.find? f.tag = none) ∧ (¬ last → d2.fabReads.find? f.tag = some { x with len := x.len - n, laddr := f.laddr + n, off := x.off + n })
      let gets (P : Dev → Prop) : Prop := Accepts (.readRsp p .ok f) s 0x03 i f P
      (∀ q seq c, x.owner = .queue q seq → (d.queue q).run = some c → c.seq = seq → gets fun d2 => left d2 ∧ KeepsCompute d d2 ∧ (∀ r, r ≠ q → d2.queue r = d.queue r) ∧
        (d2.queue q).run = some { c with rx := c.rx ++ [(x.off, f.data)], bad := if f.poison ∧ c.bad = none then some (0x22, 0x3205, 0) else c.bad, acks := if x.len ≤ n then c.acks - 1 else c.acks }) ∧
      (∀ b id t, x.owner = .tm b id → (d.bench b).tm.find? (·.id == id) = some t → t.ctx < 4 → (f.poison = true → gets fun d2 => left d2 ∧ killedFor b t.ctx 0x3205 d2) ∧
        (f.poison = false → gets fun d2 => left d2 ∧ BenchesBut b d d2 ∧ d2.hbm = d.hbm ∧ (d2.bench b).tile = ((d.bench b).lsWrite (tmAt (spaceOff t.dst) t.dstStride x.row x.off) f.data).tile ∧
          (last → t.active = true → t.reads = 1 → t.writes = 0 → (d2.bench b).tm.find? (·.id == id) = none ∧
            (t.cnt < 16 → ((d2.bench b).ctxN t.ctx).counters.toList.getD t.cnt 0 = ((d.bench b).ctxN t.ctx).counters.toList.getD t.cnt 0 + 1)))) ∧
      (∀ id, x.owner = .repair id → f.poison = true → gets fun d2 => d2.repairs.find? (·.id == id) = none) ∧
      ∀ w, x.owner = .mirror w → x.row = 0 → w < 576 → d.mirState w = 1 →
        (f.poison = true ∨ readHeader f.data (w % 64) (d.mirSize w) = none → gets fun d2 => left d2 ∧ KeepsCompute d d2 ∧ d2.mirState w = 1 ∧ (d2.mir w).hdrs = (d.mir w).hdrs ++ [(0, ({} : BookSides))] ∧
          Queued d2 (d.mir w).peer false fun g => g.op = 0x11 ∧ g.laddr = d.mirBaddr w ∧ g.tag = w % 64 ∧ g.data = headerBytes (w % 64) false (d.mirSrc w) (d.mirSize w) ({} : BookSides)) ∧
        ∀ sd bv, f.poison = false → readHeader f.data (w % 64) (d.mirSize w) = some (sd, bv) → gets fun d2 => left d2 ∧ d2.mirState w = 2 ∧ (d2.mir w).sides = sd ∧ (d2.mir w).hdrs = [] ∧ d2.regBit .mirWState (mirIx w) 4 = true) ∧
    (ready 0x06 → (¬ (∃ x, mine x) → Accepts (.atomicRsp p .ok f) s 0x06 i f kept) ∧ ∀ x q seq c, mine x → x.owner = .queue q seq → (d.queue q).run = some c → c.seq = seq →
      Accepts (.atomicRsp p .ok f) s 0x06 i f fun d2 => KeepsCompute d d2 ∧ d2.fabReads.find? f.tag = none ∧ (d2.queue q).run = some { c with acks := c.acks - 1, old := some (leNat (f.data.take 4)) }) ∧
    (ready 0x07 → let seq := f.laddr % 2 ^ 32
      let un := (d.peer i).bulk.unacked
      ((∀ y ∈ un, y.frame.seq ≠ seq) → Accepts (.refused p .ok f) s 0x07 i f kept) ∧
      ∀ pre y post, un = pre ++ y :: post → y.frame.seq = seq → (∀ z ∈ pre ++ post, z.frame.seq ≠ seq) →
        let owner : FabOwner := if y.frame.op = 0x02 then ((d.fabReads.find? y.frame.tag).map (·.owner)).getD .none else y.owner
        let takes (P : Dev → Prop) : Prop := Accepts (.refused p .ok f) s 0x07 i f fun d2 => P d2 ∧ (∃ more, (d2.peer i).bulk.unacked = pre ++ post ++ more ∧ ((d.peer i).bulk.backlog = [] → more = [])) ∧ (d2.peer i).expiries = 0 ∧
          (y.frame.op = 0x02 ∨ y.frame.op = 0x05 → d2.fabReads.find? y.frame.tag = none)
        let cause (m : Nat) (z : Report) : Prop := z.code = 0x6204 ∧ z.master = m ∧ z.access = 0x71 ∧ z.addr = d.peerDev i * 2 ^ 44 + y.frame.laddr
        (owner = .none → takes fun d2 => KeepsCompute d d2 ∧ ∃ z, d2.reports = d.reports ++ [z] ∧ cause (0xF829 + d.peerDev i % 16) z) ∧
        (∀ q sq c, owner = .queue q sq → (d.queue q).run = some c → c.seq = sq → takes fun d2 => KeepsCompute d d2 ∧ (∃ z, d2.reports = d.reports ++ [z] ∧ cause 0xF820 z) ∧
          let bad := if c.bad = none then some (if c.op = 0x22 ∧ f.tag = 5 then 0x31 else 0x22, 0x6204, f.tag) else c.bad
          (d2.queue q).run = some (if y.frame.op = 0x08 then { c with bad := bad } else { c with acks := c.acks - 1, bad := bad })) ∧
        (∀ b id t, owner = .tm b id → (d.bench b).tm.find? (·.id == id) = some t → t.ctx < 4 → takes (killedFor b t.ctx 0x6204)) ∧
        ∀ w, owner = .mirror w → w < 576 → d.mirState w = 2 → takes fun d2 => KeepsCompute d d2 ∧ d2.mirState w = 6 ∧ ∃ z z2, d2.reports = d.reports ++ [z, z2] ∧ cause (0xF829 + d.peerDev i % 16) z ∧ z2.code = 0xA106) ∧
    (ready 0x12 → let w := 64 * inst + f.tag % 64
      let confirms (P : Dev → Prop) : Prop := Accepts (.mirrorConfirm p .ok f) s 0x12 i f P
      ((∀ v ∈ w :: (if inst = 0 then [512 + f.tag % 64] else []), (d.mir v).peer ≠ i ∨ (d.mir v).hdrs = []) → confirms kept) ∧
      ∀ why sd rest, w < 512 → (d.mir w).peer = i → (d.mir w).hdrs = (why, sd) :: rest → sd.epoch = f.laddr →
        (why = 0 → confirms fun d2 => d2.mirState w = 2 ∧ (d2.mir w).sides = sd ∧ d2.regBit .mirWState (mirIx w) 4 = false) ∧
        (why = 1 → confirms fun d2 => d2.mirState w = d.mirState w ∧ (d2.mir w).sides = sd ∧ (d2.mir w).hdrs = rest) ∧
        ∀ ep, why = 2 → (d.mir w).commit = some ep → ep < 2 ^ 64 → confirms fun d2 => d2.mirState w = 2 ∧ d2.mirEpoch w = ep ∧ (d2.mir w).sides = sd ∧ (d2.mir w).commit = none ∧ (d2.mir w).sent = false ∧ (d2.mir w).hdrs = rest ∧
          ∀ q sq c, (d.mir w).job = some (q, sq) → (d.queue q).run = some c → c.seq = sq → c.fin = none → c.bad = none → c.mask (d.mirOwner q) = [w] → ∃ d3 : Dev, d2 = d3.finish q 0 (2 ^ (w % 64)))) ∧
  (∀ (s : State) (p : PortIx) (f : Frame) (sub : Fin 20) (i : Nat) (d1 : Dev), s.dev.live = true →
    let d := s.dev
    let x := d.port p
    let stamp := leBytes (d.time / 1000000000) 6 ++ leBytes (d.time % 1000000000) 4 ++ leBytes (d.regFld .fabTsStatus [] 15 8) 1 ++ leBytes 0 5
    let first : Prop := d.regBit .fabTsCfg [] 5 = true ∧ (d.port (d.regFld .fabTsCfg [] 4 0)).st = 3
    let parent (u : Bool) : Prop := d.regBit .fabTsCfg [] 30 = true ∧ d.regBit .fabTsCfg [] 31 = false ∧ x.direct = true ∧
      if u then ¬ first ∧ d.regBit .fabTsCfg [] 13 = true ∧ d.regFld .fabTsCfg [] 12 8 = p.val else first ∧ d.regFld .fabTsCfg [] 4 0 = p.val
    let follower : Prop := parent false ∨ parent true
    (Arrives d p .ok f 0x40 i d1 → (¬ follower → Completes (.tsSync p .ok f sub) s d1) ∧ (follower → Completes (.tsSync p .ok f sub) s (d1.modPort p fun y => { y with syncAt := some (d.time + sub) }))) ∧
    (Arrives d p .ok f 0x41 i d1 → (¬ follower ∨ x.syncAt = none → Completes (.tsFollow p .ok f) s d1) ∧ ∀ u t, parent u → x.syncAt = some t →
      let off : Int := ((leNat (f.data.take 6) * 1000000000 + leNat ((f.data.drop 6).take 4) : Nat) : Int) + x.delay - t
      let bad := if 20 < off.natAbs then d.tsBad + 1 else 0
      let good := if off.natAbs ≤ 10 then d.tsGood + 1 else 0
      let locked (d' : Dev) : Bool := d'.regBit .fabTsStatus [] 0
      Reaches (.tsFollow p .ok f) s fun d' => KeepsCompute d d' ∧ (d'.port p).syncAt = none ∧ d'.reg .fabTsOffset [] = BitVec.ofInt 32 (-off) ∧
        d'.regFld .fabTsStatus [] 15 8 = min 255 (leNat ((f.data.drop 10).take 1) + 1) ∧ d'.regBit .fabTsStatus [] 1 = u ∧
        (d.tsStepped = false → d'.tsStepped = true ∧ d'.time = (d.time + off).toNat ∧ locked d' = true) ∧
        (d.tsStepped = true → d'.time = d.time ∧ (locked d = true → bad < 4 → locked d' = true ∧ d'.tsBad = bad ∧ d'.tsGood = good ∧ d'.reports = d.reports) ∧
          (locked d = true → 4 ≤ bad → locked d' = false ∧ ∃ y, d'.reports = d.reports ++ [y] ∧ y.code = 0x6301 ∧ y.master = 0xF8A0) ∧
          (locked d = false → (locked d' = true ↔ 8 ≤ good) ∧ d'.tsGood = good ∧ d'.reports = d.reports))) ∧
    (Arrives d p .ok f 0x42 i d1 → (x.direct = false → Completes (.tsPdreq p .ok f) s d1) ∧ (x.direct = true → Reaches (.tsPdreq p .ok f) s fun d' => KeepsCompute d d' ∧
      ∃ g, (OutMsg.frame p g ∈ d'.out ∨ g ∈ (d'.port p).wait) ∧ (x.wait = [] → x.replay = [] → d'.out = d1.out ++ [.frame p g]) ∧ g.op = 0x43 ∧ g.dst = x.partnerId ∧ g.len = 16 ∧ g.data = stamp)) ∧
    (Arrives d p .ok f 0x43 i d1 → (x.pdSent = none → Completes (.tsPdresp p .ok f sub) s d1) ∧
      ∀ t, x.pdSent = some t → Completes (.tsPdresp p .ok f sub) s (d1.modPort p fun y => { y with delay := (d.time + sub - t) / 2, pdSent := none }))) ∧
  ∀ s : State, s.dev.live = true →
    let d := s.dev
    (d.regBit .fabTsCfg [] 30 = false → Completes .tsSyncInterval s d) ∧ (d.regBit .fabTsCfg [] 30 = true → d.tsDue = some (d.tsAt + 6250)) ∧
    ∀ d1, Comes Dev.tsDue d d1 →
      let stamp := leBytes (d1.time / 1000000000) 6 ++ leBytes (d1.time % 1000000000) 4 ++ leBytes (d1.regFld .fabTsStatus [] 15 8) 1 ++ leBytes 0 5
      Reaches .tsSyncInterval s fun d' => KeepsCompute d1 d' ∧ d'.regs = d1.regs ∧ d'.tsAt = d1.ticks ∧ ∀ p, p < 24 → let x := d1.port p
        (¬ (x.direct = true ∧ x.st = 3) → d'.port p = x) ∧ (x.direct = true → x.st = 3 → (d'.port p).pdSent = some d1.time ∧ ∃ g1 g2 g3, [g1.op, g2.op, g3.op] = [0x40, 0x41, 0x42] ∧
          (∀ g ∈ [g1, g2, g3], (OutMsg.frame p g ∈ d'.out ∨ g ∈ (d'.port p).wait) ∧ g.dst = x.partnerId ∧ g.len = 16 ∧ g.data = stamp) ∧
          (x.wait = [] → x.replay = [] → ∃ pre post, d'.out = pre ++ [.frame p g1, .frame p g2, .frame p g3] ++ post))
end

