-- ==== Sys2Proof/Laws/Data.lean ====
section
/-! SUPPORT. The laws of the two stores: a read after a write, in `SMap` and in `Mem`, and that every memory operation keeps the
canonical form. -/

namespace Sys2Proof

namespace SMap
variable {α : Type}

theorem lookupL_insertL_same (k : Nat) (v : α) (l : List (Nat × α)) : lookupL k (insertL k v l) = some v := by
  induction l with
  | nil => simp [insertL, lookupL]
  | cons c r ih =>
    obtain ⟨j, w⟩ := c
    simp only [insertL]
    split
    · simp [lookupL]
    · split
      · simp [lookupL]
      · rename_i h1 h2
        simp [lookupL, Ne.symm h2, ih]

theorem lookupL_insertL_other {k j : Nat} (h : j ≠ k) (v : α) (l : List (Nat × α)) :
    lookupL j (insertL k v l) = lookupL j l := by
  induction l with
  | nil => simp [insertL, lookupL, h.symm]
  | cons c r ih =>
    obtain ⟨i, w⟩ := c
    simp only [insertL]
    split
    · simp [lookupL, h.symm]
    · split
      · rename_i h1 h2
        subst h2
        simp [lookupL, h.symm]
      · simp only [lookupL]
        split
        · rfl
        · exact ih

@[simp] theorem find?_set_same (m : SMap α) (k : Nat) (v : α) : (m.set k v).find? k = some v :=
  lookupL_insertL_same k v m.cells

theorem find?_set_other (m : SMap α) {k j : Nat} (h : j ≠ k) (v : α) : (m.set k v).find? j = m.find? j :=
  lookupL_insertL_other h v m.cells

theorem insertL_insertL (k : Nat) (v w : α) (l : List (Nat × α)) : insertL k w (insertL k v l) = insertL k w l := by
  induction l with
  | nil => simp [insertL]
  | cons c r ih =>
    obtain ⟨j, u⟩ := c
    by_cases h1 : k < j
    · simp [insertL, h1]
    · by_cases h2 : k = j
      · subst h2
        simp [insertL]
      · simp [insertL, h1, h2, ih]

/-- The last of two values set at a key is the one that stays. -/
@[simp] theorem set_set (m : SMap α) (k : Nat) (v w : α) : (m.set k v).set k w = m.set k w := by
  simp [set, insertL_insertL]

theorem lookupL_eraseL_same (k : Nat) (l : List (Nat × α)) : lookupL k (eraseL k l) = none := by
  induction l with
  | nil => rfl
  | cons c r ih =>
    by_cases h : c.1 = k
    · simpa [eraseL, h] using ih
    · simpa [eraseL, h, lookupL] using ih

@[simp] theorem find?_erase_same (m : SMap α) (k : Nat) : (m.erase k).find? k = none := lookupL_eraseL_same k m.cells


@[simp] theorem getD_set_same (m : SMap α) (k : Nat) (v d : α) : (m.set k v).getD k d = v := by
  simp [getD]

theorem getD_set_other (m : SMap α) {k j : Nat} (h : j ≠ k) (v d : α) : (m.set k v).getD j d = m.getD j d := by
  simp [getD, find?_set_other m h]

end SMap

namespace Mem

/-- Every address of a list of cells lies above `a`. -/
def aboveL (a : Nat) (l : List Host.Cell) : Prop := ∀ c ∈ l, a < c.1

theorem sortedL_cons (a : Nat) (v : Byte) (l : List Host.Cell) :
    sortedL ((a, v) :: l) = true ↔ v ≠ unlisted ∧ aboveL a l ∧ sortedL l = true := by
  induction l generalizing a v with
  | nil => simp [sortedL, aboveL]
  | cons c r ih =>
    obtain ⟨b, w⟩ := c
    have hr := ih b w
    constructor
    · intro h
      have h' : v ≠ unlisted ∧ a < b ∧ sortedL ((b, w) :: r) = true := by
        simpa [sortedL, and_assoc] using h
      refine ⟨h'.1, ?_, h'.2.2⟩
      intro c hc
      rcases List.mem_cons.1 hc with rfl | hc
      · exact h'.2.1
      · exact lt_trans h'.2.1 ((hr.1 h'.2.2).2.1 c hc)
    · rintro ⟨h1, h2, h3⟩
      have hb : a < b := h2 (b, w) (by simp)
      simp [sortedL, h1, hb, h3]

theorem lookupL_above {a : Nat} {l : List Host.Cell} (h : aboveL a l) : lookupL a l = unlisted := by
  induction l with
  | nil => rfl
  | cons c r ih =>
    obtain ⟨b, w⟩ := c
    have hb : a < b := h (b, w) (by simp)
    have : b ≠ a := by omega
    simp only [lookupL, if_neg this]
    exact ih fun c hc => h c (by simp [hc])

theorem aboveL_insertL {a b : Nat} {v : Byte} {l : List Host.Cell} (hab : a < b) (h : aboveL a l) :
    aboveL a (insertL b v l) := by
  induction l with
  | nil =>
    intro c hc
    simp [insertL] at hc
    subst hc
    exact hab
  | cons c r ih =>
    obtain ⟨i, w⟩ := c
    have hi : a < i := h (i, w) (by simp)
    have hr : aboveL a r := fun c hc => h c (by simp [hc])
    have cons : ∀ (x : Host.Cell) (l : List Host.Cell), a < x.1 → aboveL a l → aboveL a (x :: l) := by
      intro x l hx hl c hc
      rcases List.mem_cons.1 hc with rfl | hc
      · exact hx
      · exact hl c hc
    simp only [insertL]
    split
    · exact cons _ _ hab h
    · split
      · exact cons _ _ hab hr
      · exact cons _ _ hi (ih hr)

/-- Putting a byte that is not the unlisted value keeps the canonical form. -/
theorem sortedL_insertL (a : Nat) {v : Byte} (hv : v ≠ unlisted) {l : List Host.Cell} (h : sortedL l = true) :
    sortedL (insertL a v l) = true := by
  induction l with
  | nil => exact (sortedL_cons a v []).2 ⟨hv, fun c hc => by simp at hc, h⟩
  | cons c r ih =>
    obtain ⟨b, w⟩ := c
    obtain ⟨hw, hb, hr⟩ := (sortedL_cons b w r).1 h
    simp only [insertL]
    split
    · rename_i hlt
      refine (sortedL_cons a v _).2 ⟨hv, ?_, h⟩
      intro c hc
      rcases List.mem_cons.1 hc with rfl | hc
      · exact hlt
      · exact lt_trans hlt (hb c hc)
    · split
      · rename_i hne
        subst hne
        exact (sortedL_cons a v r).2 ⟨hv, hb, hr⟩
      · exact (sortedL_cons b w _).2 ⟨hw, aboveL_insertL (by omega) hb, ih hr⟩

theorem mem_eraseL {a : Nat} {c : Host.Cell} {l : List Host.Cell} (h : c ∈ eraseL a l) : c ∈ l := by
  induction l with
  | nil => exact h
  | cons x r ih =>
    obtain ⟨b, w⟩ := x
    simp only [eraseL] at h
    split at h
    · exact List.mem_cons_of_mem _ (ih h)
    · rcases List.mem_cons.1 h with rfl | h
      · exact List.mem_cons_self ..
      · exact List.mem_cons_of_mem _ (ih h)

theorem sortedL_eraseL (a : Nat) {l : List Host.Cell} (h : sortedL l = true) : sortedL (eraseL a l) = true := by
  induction l with
  | nil => rfl
  | cons c r ih =>
    obtain ⟨b, w⟩ := c
    obtain ⟨hw, hb, hr⟩ := (sortedL_cons b w r).1 h
    simp only [eraseL]
    split
    · exact ih hr
    · exact (sortedL_cons b w _).2 ⟨hw, fun c hc => hb c (mem_eraseL hc), ih hr⟩

theorem lookupL_insertL_same (a : Nat) (v : Byte) (l : List Host.Cell) : lookupL a (insertL a v l) = v := by
  induction l with
  | nil => simp [insertL, lookupL]
  | cons c r ih =>
    obtain ⟨b, w⟩ := c
    simp only [insertL]
    split
    · simp [lookupL]
    · split
      · simp [lookupL]
      · rename_i hne
        simp only [lookupL, if_neg (Ne.symm hne)]
        exact ih

theorem lookupL_insertL_other {a b : Nat} (hab : b ≠ a) (v : Byte) (l : List Host.Cell) : lookupL b (insertL a v l) = lookupL b l := by
  induction l with
  | nil => simp [insertL, lookupL, hab.symm]
  | cons c r ih =>
    obtain ⟨i, w⟩ := c
    simp only [insertL]
    split
    · simp [lookupL, hab.symm]
    · split
      · rename_i hne
        subst hne
        simp [lookupL, hab.symm]
      · simp only [lookupL]
        split
        · rfl
        · exact ih

theorem lookupL_eraseL_same (a : Nat) (l : List Host.Cell) : lookupL a (eraseL a l) = unlisted := by
  induction l with
  | nil => rfl
  | cons c r ih =>
    obtain ⟨b, w⟩ := c
    simp only [eraseL]
    split
    · exact ih
    · rename_i hne
      simp only [lookupL, if_neg hne]
      exact ih

theorem lookupL_eraseL_other {a b : Nat} (hab : b ≠ a) (l : List Host.Cell) : lookupL b (eraseL a l) = lookupL b l := by
  induction l with
  | nil => rfl
  | cons c r ih =>
    obtain ⟨i, w⟩ := c
    simp only [eraseL]
    split
    · rename_i hne
      subst hne
      simp only [lookupL, if_neg hab.symm]
      exact ih
    · simp only [lookupL]
      split
      · rfl
      · exact ih

/-! ### The operations -/

@[simp] theorem wf_empty : (empty).wf = true := rfl

/-- Writing a byte keeps the canonical form. -/
theorem wf_write {m : Mem} (h : m.wf = true) (a : Nat) (v : Byte) : (m.write a v).wf = true := by
  unfold write
  split
  · exact sortedL_eraseL a h
  · exact sortedL_insertL a ‹_› h

@[simp] theorem read_write_same (m : Mem) (a : Nat) (v : Byte) : (m.write a v).read a = v := by
  unfold write read
  split
  · rename_i hv
    rw [hv]
    exact lookupL_eraseL_same a _
  · exact lookupL_insertL_same a v _

theorem read_write_other {a b : Nat} (hab : b ≠ a) (m : Mem) (v : Byte) : (m.write a v).read b = m.read b := by
  unfold write read
  split
  · exact lookupL_eraseL_other hab _
  · exact lookupL_insertL_other hab v _

theorem wf_writeBytes {m : Mem} (h : m.wf = true) (a : Nat) (bs : List Byte) : (m.writeBytes a bs).wf = true := by
  induction bs generalizing m a with
  | nil => exact h
  | cons b bs ih => exact ih (wf_write h a b) (a + 1)

theorem wf_writeN {m : Mem} (h : m.wf = true) (a n v : Nat) : (m.writeN a n v).wf = true := wf_writeBytes h a _

theorem wf_writeMasked {m : Mem} (h : m.wf = true) (a : Nat) (l : Line) (be : ByteEn) : (m.writeMasked a l be).wf = true := by
  unfold writeMasked
  generalize List.range 128 = is
  induction is generalizing m with
  | nil => exact h
  | cons i is ih =>
    simp only [List.foldl_cons]
    split
    · exact ih (wf_write h _ _)
    · exact ih h

theorem sortedL_filter (p : Host.Cell → Bool) {l : List Host.Cell} (h : sortedL l = true) : sortedL (l.filter p) = true := by
  induction l with
  | nil => rfl
  | cons c r ih =>
    obtain ⟨b, w⟩ := c
    obtain ⟨hw, hb, hr⟩ := (sortedL_cons b w r).1 h
    rw [List.filter_cons]
    split
    · exact (sortedL_cons b w _).2 ⟨hw, fun c hc => hb c (List.mem_of_mem_filter hc), ih hr⟩
    · exact ih hr

theorem wf_clearIf {m : Mem} (h : m.wf = true) (p : Nat → Bool) : (m.clearIf p).wf = true := sortedL_filter _ h

theorem wf_clearRange {m : Mem} (h : m.wf = true) (a n : Nat) : (m.clearRange a n).wf = true := sortedL_filter _ h

/-- A byte outside the bytes written reads as before. -/
theorem read_writeBytes_other (m : Mem) {a b : Nat} {bs : List Byte} (hb : b < a ∨ a + bs.length ≤ b) :
    (m.writeBytes a bs).read b = m.read b := by
  induction bs generalizing m a with
  | nil => rfl
  | cons x xs ih =>
    simp only [writeBytes]
    have hlen : (x :: xs).length = xs.length + 1 := rfl
    rw [ih (m.write a x) (by omega)]
    exact read_write_other (by omega) m x

/-- The bytes written read back. -/
theorem readBytes_writeBytes (m : Mem) (a : Nat) (bs : List Byte) : (m.writeBytes a bs).readBytes a bs.length = bs := by
  induction bs generalizing m a with
  | nil => rfl
  | cons x xs ih =>
    simp only [writeBytes, List.length_cons, readBytes]
    rw [read_writeBytes_other (m.write a x) (by omega), read_write_same, ih]

end Mem

end Sys2Proof
end

