-- ==== Sys2Proof/Laws/State.lean ====
section
/-! SUPPORT. What each update of the device leaves alone, one lemma for a field and an update, and what a read gives after it. -/

namespace Sys2Proof.Machine

variable (d : Dev)

/-! ### Dev.setDie -/

@[simp] theorem Dev.setDie_time (i : Nat) (x : Die) : (d.setDie i x).time = d.time := rfl
@[simp] theorem Dev.setDie_ticks (i : Nat) (x : Die) : (d.setDie i x).ticks = d.ticks := rfl
@[simp] theorem Dev.setDie_tripped (i : Nat) (x : Die) : (d.setDie i x).tripped = d.tripped := rfl
@[simp] theorem Dev.setDie_halted (i : Nat) (x : Die) : (d.setDie i x).halted = d.halted := rfl
@[simp] theorem Dev.setDie_board (i : Nat) (x : Die) : (d.setDie i x).board = d.board := rfl
@[simp] theorem Dev.setDie_pwr (i : Nat) (x : Die) : (d.setDie i x).pwr = d.pwr := rfl
@[simp] theorem Dev.setDie_flash (i : Nat) (x : Die) : (d.setDie i x).flash = d.flash := rfl
@[simp] theorem Dev.setDie_update (i : Nat) (x : Die) : (d.setDie i x).update = d.update := rfl
@[simp] theorem Dev.setDie_modCauses (i : Nat) (x : Die) : (d.setDie i x).modCauses = d.modCauses := rfl
@[simp] theorem Dev.setDie_i3cAddr (i : Nat) (x : Die) : (d.setDie i x).i3cAddr = d.i3cAddr := rfl
@[simp] theorem Dev.setDie_taps (i : Nat) (x : Die) : (d.setDie i x).taps = d.taps := rfl
@[simp] theorem Dev.setDie_measured (i : Nat) (x : Die) : (d.setDie i x).measured = d.measured := rfl
@[simp] theorem Dev.setDie_spdmAlgs (i : Nat) (x : Die) : (d.setDie i x).spdmAlgs = d.spdmAlgs := rfl
@[simp] theorem Dev.setDie_nonce (i : Nat) (x : Die) : (d.setDie i x).nonce = d.nonce := rfl
@[simp] theorem Dev.setDie_benches (i : Nat) (x : Die) : (d.setDie i x).benches = d.benches := rfl
@[simp] theorem Dev.setDie_regs (i : Nat) (x : Die) : (d.setDie i x).regs = d.regs := rfl
@[simp] theorem Dev.setDie_fresh (i : Nat) (x : Die) : (d.setDie i x).fresh = d.fresh := rfl
@[simp] theorem Dev.setDie_net (i : Nat) (x : Die) : (d.setDie i x).net = d.net := rfl
@[simp] theorem Dev.setDie_clampDown (i : Nat) (x : Die) : (d.setDie i x).clampDown = d.clampDown := rfl
@[simp] theorem Dev.setDie_spent (i : Nat) (x : Die) : (d.setDie i x).spent = d.spent := rfl
@[simp] theorem Dev.setDie_reports (i : Nat) (x : Die) : (d.setDie i x).reports = d.reports := rfl
@[simp] theorem Dev.setDie_caught (i : Nat) (x : Die) : (d.setDie i x).caught = d.caught := rfl
@[simp] theorem Dev.setDie_mods (i : Nat) (x : Die) : (d.setDie i x).mods = d.mods := rfl
@[simp] theorem Dev.setDie_modLists (i : Nat) (x : Die) : (d.setDie i x).modLists = d.modLists := rfl
@[simp] theorem Dev.setDie_listPend (i : Nat) (x : Die) : (d.setDie i x).listPend = d.listPend := rfl
@[simp] theorem Dev.setDie_reseat (i : Nat) (x : Die) : (d.setDie i x).reseat = d.reseat := rfl
@[simp] theorem Dev.setDie_reseats (i : Nat) (x : Die) : (d.setDie i x).reseats = d.reseats := rfl
@[simp] theorem Dev.setDie_queues (i : Nat) (x : Die) : (d.setDie i x).queues = d.queues := rfl
@[simp] theorem Dev.setDie_slots (i : Nat) (x : Die) : (d.setDie i x).slots = d.slots := rfl
@[simp] theorem Dev.setDie_starts (i : Nat) (x : Die) : (d.setDie i x).starts = d.starts := rfl
@[simp] theorem Dev.setDie_kills (i : Nat) (x : Die) : (d.setDie i x).kills = d.kills := rfl
@[simp] theorem Dev.setDie_phaseMarks (i : Nat) (x : Die) : (d.setDie i x).phaseMarks = d.phaseMarks := rfl
@[simp] theorem Dev.setDie_quiesced (i : Nat) (x : Die) : (d.setDie i x).quiesced = d.quiesced := rfl
@[simp] theorem Dev.setDie_returns (i : Nat) (x : Die) : (d.setDie i x).returns = d.returns := rfl
@[simp] theorem Dev.setDie_quiet (i : Nat) (x : Die) : (d.setDie i x).quiet = d.quiet := rfl
@[simp] theorem Dev.setDie_lineFault (i : Nat) (x : Die) : (d.setDie i x).lineFault = d.lineFault := rfl
@[simp] theorem Dev.setDie_evlog (i : Nat) (x : Die) : (d.setDie i x).evlog = d.evlog := rfl
@[simp] theorem Dev.setDie_evlogLast (i : Nat) (x : Die) : (d.setDie i x).evlogLast = d.evlogLast := rfl
@[simp] theorem Dev.setDie_pldm (i : Nat) (x : Die) : (d.setDie i x).pldm = d.pldm := rfl
@[simp] theorem Dev.setDie_hbm (i : Nat) (x : Die) : (d.setDie i x).hbm = d.hbm := rfl
@[simp] theorem Dev.setDie_hbmPoison (i : Nat) (x : Die) : (d.setDie i x).hbmPoison = d.hbmPoison := rfl
@[simp] theorem Dev.setDie_bays (i : Nat) (x : Die) : (d.setDie i x).bays = d.bays := rfl
@[simp] theorem Dev.setDie_slices (i : Nat) (x : Die) : (d.setDie i x).slices = d.slices := rfl
@[simp] theorem Dev.setDie_iodLines (i : Nat) (x : Die) : (d.setDie i x).iodLines = d.iodLines := rfl
@[simp] theorem Dev.setDie_winFlush (i : Nat) (x : Die) : (d.setDie i x).winFlush = d.winFlush := rfl
@[simp] theorem Dev.setDie_hbmStacks (i : Nat) (x : Die) : (d.setDie i x).hbmStacks = d.hbmStacks := rfl
@[simp] theorem Dev.setDie_mirrors (i : Nat) (x : Die) : (d.setDie i x).mirrors = d.mirrors := rfl
@[simp] theorem Dev.setDie_mirSentRem (i : Nat) (x : Die) : (d.setDie i x).mirSentRem = d.mirSentRem := rfl
@[simp] theorem Dev.setDie_repairs (i : Nat) (x : Die) : (d.setDie i x).repairs = d.repairs := rfl
@[simp] theorem Dev.setDie_fns (i : Nat) (x : Die) : (d.setDie i x).fns = d.fns := rfl
@[simp] theorem Dev.setDie_numVfs (i : Nat) (x : Die) : (d.setDie i x).numVfs = d.numVfs := rfl
@[simp] theorem Dev.setDie_vfEnable (i : Nat) (x : Die) : (d.setDie i x).vfEnable = d.vfEnable := rfl
@[simp] theorem Dev.setDie_msix (i : Nat) (x : Die) : (d.setDie i x).msix = d.msix := rfl
@[simp] theorem Dev.setDie_heldMsgs (i : Nat) (x : Die) : (d.setDie i x).heldMsgs = d.heldMsgs := rfl
@[simp] theorem Dev.setDie_noticed (i : Nat) (x : Die) : (d.setDie i x).noticed = d.noticed := rfl
@[simp] theorem Dev.setDie_cpTurn (i : Nat) (x : Die) : (d.setDie i x).cpTurn = d.cpTurn := rfl
@[simp] theorem Dev.setDie_hostWait (i : Nat) (x : Die) : (d.setDie i x).hostWait = d.hostWait := rfl
@[simp] theorem Dev.setDie_orphans (i : Nat) (x : Die) : (d.setDie i x).orphans = d.orphans := rfl
@[simp] theorem Dev.setDie_peers (i : Nat) (x : Die) : (d.setDie i x).peers = d.peers := rfl
@[simp] theorem Dev.setDie_ports (i : Nat) (x : Die) : (d.setDie i x).ports = d.ports := rfl
@[simp] theorem Dev.setDie_fabReads (i : Nat) (x : Die) : (d.setDie i x).fabReads = d.fabReads := rfl
@[simp] theorem Dev.setDie_nextTag (i : Nat) (x : Die) : (d.setDie i x).nextTag = d.nextTag := rfl
@[simp] theorem Dev.setDie_heldBays (i : Nat) (x : Die) : (d.setDie i x).heldBays = d.heldBays := rfl
@[simp] theorem Dev.setDie_bayFree (i : Nat) (x : Die) : (d.setDie i x).bayFree = d.bayFree := rfl
@[simp] theorem Dev.setDie_tsAt (i : Nat) (x : Die) : (d.setDie i x).tsAt = d.tsAt := rfl
@[simp] theorem Dev.setDie_tsStepped (i : Nat) (x : Die) : (d.setDie i x).tsStepped = d.tsStepped := rfl
@[simp] theorem Dev.setDie_tsBad (i : Nat) (x : Die) : (d.setDie i x).tsBad = d.tsBad := rfl
@[simp] theorem Dev.setDie_tsGood (i : Nat) (x : Die) : (d.setDie i x).tsGood = d.tsGood := rfl
@[simp] theorem Dev.setDie_timeFrac (i : Nat) (x : Die) : (d.setDie i x).timeFrac = d.timeFrac := rfl
@[simp] theorem Dev.setDie_collHeld (i : Nat) (x : Die) : (d.setDie i x).collHeld = d.collHeld := rfl
@[simp] theorem Dev.setDie_out (i : Nat) (x : Die) : (d.setDie i x).out = d.out := rfl
@[simp] theorem Dev.setDie_free (i : Nat) (x : Die) : (d.setDie i x).free = d.free := rfl

/-! ### Dev.setBench -/

@[simp] theorem Dev.setBench_time (i : Nat) (x : Bench) : (d.setBench i x).time = d.time := rfl
@[simp] theorem Dev.setBench_ticks (i : Nat) (x : Bench) : (d.setBench i x).ticks = d.ticks := rfl
@[simp] theorem Dev.setBench_tripped (i : Nat) (x : Bench) : (d.setBench i x).tripped = d.tripped := rfl
@[simp] theorem Dev.setBench_halted (i : Nat) (x : Bench) : (d.setBench i x).halted = d.halted := rfl
@[simp] theorem Dev.setBench_board (i : Nat) (x : Bench) : (d.setBench i x).board = d.board := rfl
@[simp] theorem Dev.setBench_pwr (i : Nat) (x : Bench) : (d.setBench i x).pwr = d.pwr := rfl
@[simp] theorem Dev.setBench_flash (i : Nat) (x : Bench) : (d.setBench i x).flash = d.flash := rfl
@[simp] theorem Dev.setBench_update (i : Nat) (x : Bench) : (d.setBench i x).update = d.update := rfl
@[simp] theorem Dev.setBench_modCauses (i : Nat) (x : Bench) : (d.setBench i x).modCauses = d.modCauses := rfl
@[simp] theorem Dev.setBench_i3cAddr (i : Nat) (x : Bench) : (d.setBench i x).i3cAddr = d.i3cAddr := rfl
@[simp] theorem Dev.setBench_taps (i : Nat) (x : Bench) : (d.setBench i x).taps = d.taps := rfl
@[simp] theorem Dev.setBench_measured (i : Nat) (x : Bench) : (d.setBench i x).measured = d.measured := rfl
@[simp] theorem Dev.setBench_spdmAlgs (i : Nat) (x : Bench) : (d.setBench i x).spdmAlgs = d.spdmAlgs := rfl
@[simp] theorem Dev.setBench_nonce (i : Nat) (x : Bench) : (d.setBench i x).nonce = d.nonce := rfl
@[simp] theorem Dev.setBench_dies (i : Nat) (x : Bench) : (d.setBench i x).dies = d.dies := rfl
@[simp] theorem Dev.setBench_regs (i : Nat) (x : Bench) : (d.setBench i x).regs = d.regs := rfl
@[simp] theorem Dev.setBench_fresh (i : Nat) (x : Bench) : (d.setBench i x).fresh = d.fresh := rfl
@[simp] theorem Dev.setBench_net (i : Nat) (x : Bench) : (d.setBench i x).net = d.net := rfl
@[simp] theorem Dev.setBench_clampDown (i : Nat) (x : Bench) : (d.setBench i x).clampDown = d.clampDown := rfl
@[simp] theorem Dev.setBench_spent (i : Nat) (x : Bench) : (d.setBench i x).spent = d.spent := rfl
@[simp] theorem Dev.setBench_reports (i : Nat) (x : Bench) : (d.setBench i x).reports = d.reports := rfl
@[simp] theorem Dev.setBench_caught (i : Nat) (x : Bench) : (d.setBench i x).caught = d.caught := rfl
@[simp] theorem Dev.setBench_mods (i : Nat) (x : Bench) : (d.setBench i x).mods = d.mods := rfl
@[simp] theorem Dev.setBench_modLists (i : Nat) (x : Bench) : (d.setBench i x).modLists = d.modLists := rfl
@[simp] theorem Dev.setBench_listPend (i : Nat) (x : Bench) : (d.setBench i x).listPend = d.listPend := rfl
@[simp] theorem Dev.setBench_reseat (i : Nat) (x : Bench) : (d.setBench i x).reseat = d.reseat := rfl
@[simp] theorem Dev.setBench_reseats (i : Nat) (x : Bench) : (d.setBench i x).reseats = d.reseats := rfl
@[simp] theorem Dev.setBench_queues (i : Nat) (x : Bench) : (d.setBench i x).queues = d.queues := rfl
@[simp] theorem Dev.setBench_slots (i : Nat) (x : Bench) : (d.setBench i x).slots = d.slots := rfl
@[simp] theorem Dev.setBench_starts (i : Nat) (x : Bench) : (d.setBench i x).starts = d.starts := rfl
@[simp] theorem Dev.setBench_kills (i : Nat) (x : Bench) : (d.setBench i x).kills = d.kills := rfl
@[simp] theorem Dev.setBench_phaseMarks (i : Nat) (x : Bench) : (d.setBench i x).phaseMarks = d.phaseMarks := rfl
@[simp] theorem Dev.setBench_quiesced (i : Nat) (x : Bench) : (d.setBench i x).quiesced = d.quiesced := rfl
@[simp] theorem Dev.setBench_returns (i : Nat) (x : Bench) : (d.setBench i x).returns = d.returns := rfl
@[simp] theorem Dev.setBench_quiet (i : Nat) (x : Bench) : (d.setBench i x).quiet = d.quiet := rfl
@[simp] theorem Dev.setBench_lineFault (i : Nat) (x : Bench) : (d.setBench i x).lineFault = d.lineFault := rfl
@[simp] theorem Dev.setBench_evlog (i : Nat) (x : Bench) : (d.setBench i x).evlog = d.evlog := rfl
@[simp] theorem Dev.setBench_evlogLast (i : Nat) (x : Bench) : (d.setBench i x).evlogLast = d.evlogLast := rfl
@[simp] theorem Dev.setBench_pldm (i : Nat) (x : Bench) : (d.setBench i x).pldm = d.pldm := rfl
@[simp] theorem Dev.setBench_hbm (i : Nat) (x : Bench) : (d.setBench i x).hbm = d.hbm := rfl
@[simp] theorem Dev.setBench_hbmPoison (i : Nat) (x : Bench) : (d.setBench i x).hbmPoison = d.hbmPoison := rfl
@[simp] theorem Dev.setBench_bays (i : Nat) (x : Bench) : (d.setBench i x).bays = d.bays := rfl
@[simp] theorem Dev.setBench_slices (i : Nat) (x : Bench) : (d.setBench i x).slices = d.slices := rfl
@[simp] theorem Dev.setBench_iodLines (i : Nat) (x : Bench) : (d.setBench i x).iodLines = d.iodLines := rfl
@[simp] theorem Dev.setBench_winFlush (i : Nat) (x : Bench) : (d.setBench i x).winFlush = d.winFlush := rfl
@[simp] theorem Dev.setBench_hbmStacks (i : Nat) (x : Bench) : (d.setBench i x).hbmStacks = d.hbmStacks := rfl
@[simp] theorem Dev.setBench_mirrors (i : Nat) (x : Bench) : (d.setBench i x).mirrors = d.mirrors := rfl
@[simp] theorem Dev.setBench_mirSentRem (i : Nat) (x : Bench) : (d.setBench i x).mirSentRem = d.mirSentRem := rfl
@[simp] theorem Dev.setBench_repairs (i : Nat) (x : Bench) : (d.setBench i x).repairs = d.repairs := rfl
@[simp] theorem Dev.setBench_fns (i : Nat) (x : Bench) : (d.setBench i x).fns = d.fns := rfl
@[simp] theorem Dev.setBench_numVfs (i : Nat) (x : Bench) : (d.setBench i x).numVfs = d.numVfs := rfl
@[simp] theorem Dev.setBench_vfEnable (i : Nat) (x : Bench) : (d.setBench i x).vfEnable = d.vfEnable := rfl
@[simp] theorem Dev.setBench_msix (i : Nat) (x : Bench) : (d.setBench i x).msix = d.msix := rfl
@[simp] theorem Dev.setBench_heldMsgs (i : Nat) (x : Bench) : (d.setBench i x).heldMsgs = d.heldMsgs := rfl
@[simp] theorem Dev.setBench_noticed (i : Nat) (x : Bench) : (d.setBench i x).noticed = d.noticed := rfl
@[simp] theorem Dev.setBench_cpTurn (i : Nat) (x : Bench) : (d.setBench i x).cpTurn = d.cpTurn := rfl
@[simp] theorem Dev.setBench_hostWait (i : Nat) (x : Bench) : (d.setBench i x).hostWait = d.hostWait := rfl
@[simp] theorem Dev.setBench_orphans (i : Nat) (x : Bench) : (d.setBench i x).orphans = d.orphans := rfl
@[simp] theorem Dev.setBench_peers (i : Nat) (x : Bench) : (d.setBench i x).peers = d.peers := rfl
@[simp] theorem Dev.setBench_ports (i : Nat) (x : Bench) : (d.setBench i x).ports = d.ports := rfl
@[simp] theorem Dev.setBench_fabReads (i : Nat) (x : Bench) : (d.setBench i x).fabReads = d.fabReads := rfl
@[simp] theorem Dev.setBench_nextTag (i : Nat) (x : Bench) : (d.setBench i x).nextTag = d.nextTag := rfl
@[simp] theorem Dev.setBench_heldBays (i : Nat) (x : Bench) : (d.setBench i x).heldBays = d.heldBays := rfl
@[simp] theorem Dev.setBench_bayFree (i : Nat) (x : Bench) : (d.setBench i x).bayFree = d.bayFree := rfl
@[simp] theorem Dev.setBench_tsAt (i : Nat) (x : Bench) : (d.setBench i x).tsAt = d.tsAt := rfl
@[simp] theorem Dev.setBench_tsStepped (i : Nat) (x : Bench) : (d.setBench i x).tsStepped = d.tsStepped := rfl
@[simp] theorem Dev.setBench_tsBad (i : Nat) (x : Bench) : (d.setBench i x).tsBad = d.tsBad := rfl
@[simp] theorem Dev.setBench_tsGood (i : Nat) (x : Bench) : (d.setBench i x).tsGood = d.tsGood := rfl
@[simp] theorem Dev.setBench_timeFrac (i : Nat) (x : Bench) : (d.setBench i x).timeFrac = d.timeFrac := rfl
@[simp] theorem Dev.setBench_collHeld (i : Nat) (x : Bench) : (d.setBench i x).collHeld = d.collHeld := rfl
@[simp] theorem Dev.setBench_out (i : Nat) (x : Bench) : (d.setBench i x).out = d.out := rfl
@[simp] theorem Dev.setBench_free (i : Nat) (x : Bench) : (d.setBench i x).free = d.free := rfl

/-! ### Dev.setReg -/

@[simp] theorem Dev.setReg_time (r : RegName) (ix : List Nat) (v : W32) : (d.setReg r ix v).time = d.time := rfl
@[simp] theorem Dev.setReg_ticks (r : RegName) (ix : List Nat) (v : W32) : (d.setReg r ix v).ticks = d.ticks := rfl
@[simp] theorem Dev.setReg_tripped (r : RegName) (ix : List Nat) (v : W32) : (d.setReg r ix v).tripped = d.tripped := rfl
@[simp] theorem Dev.setReg_halted (r : RegName) (ix : List Nat) (v : W32) : (d.setReg r ix v).halted = d.halted := rfl
@[simp] theorem Dev.setReg_board (r : RegName) (ix : List Nat) (v : W32) : (d.setReg r ix v).board = d.board := rfl
@[simp] theorem Dev.setReg_pwr (r : RegName) (ix : List Nat) (v : W32) : (d.setReg r ix v).pwr = d.pwr := rfl
@[simp] theorem Dev.setReg_flash (r : RegName) (ix : List Nat) (v : W32) : (d.setReg r ix v).flash = d.flash := rfl
@[simp] theorem Dev.setReg_update (r : RegName) (ix : List Nat) (v : W32) : (d.setReg r ix v).update = d.update := rfl
@[simp] theorem Dev.setReg_modCauses (r : RegName) (ix : List Nat) (v : W32) : (d.setReg r ix v).modCauses = d.modCauses := rfl
@[simp] theorem Dev.setReg_i3cAddr (r : RegName) (ix : List Nat) (v : W32) : (d.setReg r ix v).i3cAddr = d.i3cAddr := rfl
@[simp] theorem Dev.setReg_taps (r : RegName) (ix : List Nat) (v : W32) : (d.setReg r ix v).taps = d.taps := rfl
@[simp] theorem Dev.setReg_measured (r : RegName) (ix : List Nat) (v : W32) : (d.setReg r ix v).measured = d.measured := rfl
@[simp] theorem Dev.setReg_spdmAlgs (r : RegName) (ix : List Nat) (v : W32) : (d.setReg r ix v).spdmAlgs = d.spdmAlgs := rfl
@[simp] theorem Dev.setReg_nonce (r : RegName) (ix : List Nat) (v : W32) : (d.setReg r ix v).nonce = d.nonce := rfl
@[simp] theorem Dev.setReg_dies (r : RegName) (ix : List Nat) (v : W32) : (d.setReg r ix v).dies = d.dies := rfl
@[simp] theorem Dev.setReg_benches (r : RegName) (ix : List Nat) (v : W32) : (d.setReg r ix v).benches = d.benches := rfl
@[simp] theorem Dev.setReg_fresh (r : RegName) (ix : List Nat) (v : W32) : (d.setReg r ix v).fresh = d.fresh := rfl
@[simp] theorem Dev.setReg_net (r : RegName) (ix : List Nat) (v : W32) : (d.setReg r ix v).net = d.net := rfl
@[simp] theorem Dev.setReg_clampDown (r : RegName) (ix : List Nat) (v : W32) : (d.setReg r ix v).clampDown = d.clampDown := rfl
@[simp] theorem Dev.setReg_spent (r : RegName) (ix : List Nat) (v : W32) : (d.setReg r ix v).spent = d.spent := rfl
@[simp] theorem Dev.setReg_reports (r : RegName) (ix : List Nat) (v : W32) : (d.setReg r ix v).reports = d.reports := rfl
@[simp] theorem Dev.setReg_caught (r : RegName) (ix : List Nat) (v : W32) : (d.setReg r ix v).caught = d.caught := rfl
@[simp] theorem Dev.setReg_mods (r : RegName) (ix : List Nat) (v : W32) : (d.setReg r ix v).mods = d.mods := rfl
@[simp] theorem Dev.setReg_modLists (r : RegName) (ix : List Nat) (v : W32) : (d.setReg r ix v).modLists = d.modLists := rfl
@[simp] theorem Dev.setReg_listPend (r : RegName) (ix : List Nat) (v : W32) : (d.setReg r ix v).listPend = d.listPend := rfl
@[simp] theorem Dev.setReg_reseat (r : RegName) (ix : List Nat) (v : W32) : (d.setReg r ix v).reseat = d.reseat := rfl
@[simp] theorem Dev.setReg_reseats (r : RegName) (ix : List Nat) (v : W32) : (d.setReg r ix v).reseats = d.reseats := rfl
@[simp] theorem Dev.setReg_queues (r : RegName) (ix : List Nat) (v : W32) : (d.setReg r ix v).queues = d.queues := rfl
@[simp] theorem Dev.setReg_slots (r : RegName) (ix : List Nat) (v : W32) : (d.setReg r ix v).slots = d.slots := rfl
@[simp] theorem Dev.setReg_starts (r : RegName) (ix : List Nat) (v : W32) : (d.setReg r ix v).starts = d.starts := rfl
@[simp] theorem Dev.setReg_kills (r : RegName) (ix : List Nat) (v : W32) : (d.setReg r ix v).kills = d.kills := rfl
@[simp] theorem Dev.setReg_phaseMarks (r : RegName) (ix : List Nat) (v : W32) : (d.setReg r ix v).phaseMarks = d.phaseMarks := rfl
@[simp] theorem Dev.setReg_quiesced (r : RegName) (ix : List Nat) (v : W32) : (d.setReg r ix v).quiesced = d.quiesced := rfl
@[simp] theorem Dev.setReg_returns (r : RegName) (ix : List Nat) (v : W32) : (d.setReg r ix v).returns = d.returns := rfl
@[simp] theorem Dev.setReg_quiet (r : RegName) (ix : List Nat) (v : W32) : (d.setReg r ix v).quiet = d.quiet := rfl
@[simp] theorem Dev.setReg_lineFault (r : RegName) (ix : List Nat) (v : W32) : (d.setReg r ix v).lineFault = d.lineFault := rfl
@[simp] theorem Dev.setReg_evlog (r : RegName) (ix : List Nat) (v : W32) : (d.setReg r ix v).evlog = d.evlog := rfl
@[simp] theorem Dev.setReg_evlogLast (r : RegName) (ix : List Nat) (v : W32) : (d.setReg r ix v).evlogLast = d.evlogLast := rfl
@[simp] theorem Dev.setReg_pldm (r : RegName) (ix : List Nat) (v : W32) : (d.setReg r ix v).pldm = d.pldm := rfl
@[simp] theorem Dev.setReg_hbm (r : RegName) (ix : List Nat) (v : W32) : (d.setReg r ix v).hbm = d.hbm := rfl
@[simp] theorem Dev.setReg_hbmPoison (r : RegName) (ix : List Nat) (v : W32) : (d.setReg r ix v).hbmPoison = d.hbmPoison := rfl
@[simp] theorem Dev.setReg_bays (r : RegName) (ix : List Nat) (v : W32) : (d.setReg r ix v).bays = d.bays := rfl
@[simp] theorem Dev.setReg_slices (r : RegName) (ix : List Nat) (v : W32) : (d.setReg r ix v).slices = d.slices := rfl
@[simp] theorem Dev.setReg_iodLines (r : RegName) (ix : List Nat) (v : W32) : (d.setReg r ix v).iodLines = d.iodLines := rfl
@[simp] theorem Dev.setReg_winFlush (r : RegName) (ix : List Nat) (v : W32) : (d.setReg r ix v).winFlush = d.winFlush := rfl
@[simp] theorem Dev.setReg_hbmStacks (r : RegName) (ix : List Nat) (v : W32) : (d.setReg r ix v).hbmStacks = d.hbmStacks := rfl
@[simp] theorem Dev.setReg_mirrors (r : RegName) (ix : List Nat) (v : W32) : (d.setReg r ix v).mirrors = d.mirrors := rfl
@[simp] theorem Dev.setReg_mirSentRem (r : RegName) (ix : List Nat) (v : W32) : (d.setReg r ix v).mirSentRem = d.mirSentRem := rfl
@[simp] theorem Dev.setReg_repairs (r : RegName) (ix : List Nat) (v : W32) : (d.setReg r ix v).repairs = d.repairs := rfl
@[simp] theorem Dev.setReg_fns (r : RegName) (ix : List Nat) (v : W32) : (d.setReg r ix v).fns = d.fns := rfl
@[simp] theorem Dev.setReg_numVfs (r : RegName) (ix : List Nat) (v : W32) : (d.setReg r ix v).numVfs = d.numVfs := rfl
@[simp] theorem Dev.setReg_vfEnable (r : RegName) (ix : List Nat) (v : W32) : (d.setReg r ix v).vfEnable = d.vfEnable := rfl
@[simp] theorem Dev.setReg_msix (r : RegName) (ix : List Nat) (v : W32) : (d.setReg r ix v).msix = d.msix := rfl
@[simp] theorem Dev.setReg_heldMsgs (r : RegName) (ix : List Nat) (v : W32) : (d.setReg r ix v).heldMsgs = d.heldMsgs := rfl
@[simp] theorem Dev.setReg_noticed (r : RegName) (ix : List Nat) (v : W32) : (d.setReg r ix v).noticed = d.noticed := rfl
@[simp] theorem Dev.setReg_cpTurn (r : RegName) (ix : List Nat) (v : W32) : (d.setReg r ix v).cpTurn = d.cpTurn := rfl
@[simp] theorem Dev.setReg_hostWait (r : RegName) (ix : List Nat) (v : W32) : (d.setReg r ix v).hostWait = d.hostWait := rfl
@[simp] theorem Dev.setReg_orphans (r : RegName) (ix : List Nat) (v : W32) : (d.setReg r ix v).orphans = d.orphans := rfl
@[simp] theorem Dev.setReg_peers (r : RegName) (ix : List Nat) (v : W32) : (d.setReg r ix v).peers = d.peers := rfl
@[simp] theorem Dev.setReg_ports (r : RegName) (ix : List Nat) (v : W32) : (d.setReg r ix v).ports = d.ports := rfl
@[simp] theorem Dev.setReg_fabReads (r : RegName) (ix : List Nat) (v : W32) : (d.setReg r ix v).fabReads = d.fabReads := rfl
@[simp] theorem Dev.setReg_nextTag (r : RegName) (ix : List Nat) (v : W32) : (d.setReg r ix v).nextTag = d.nextTag := rfl
@[simp] theorem Dev.setReg_heldBays (r : RegName) (ix : List Nat) (v : W32) : (d.setReg r ix v).heldBays = d.heldBays := rfl
@[simp] theorem Dev.setReg_bayFree (r : RegName) (ix : List Nat) (v : W32) : (d.setReg r ix v).bayFree = d.bayFree := rfl
@[simp] theorem Dev.setReg_tsAt (r : RegName) (ix : List Nat) (v : W32) : (d.setReg r ix v).tsAt = d.tsAt := rfl
@[simp] theorem Dev.setReg_tsStepped (r : RegName) (ix : List Nat) (v : W32) : (d.setReg r ix v).tsStepped = d.tsStepped := rfl
@[simp] theorem Dev.setReg_tsBad (r : RegName) (ix : List Nat) (v : W32) : (d.setReg r ix v).tsBad = d.tsBad := rfl
@[simp] theorem Dev.setReg_tsGood (r : RegName) (ix : List Nat) (v : W32) : (d.setReg r ix v).tsGood = d.tsGood := rfl
@[simp] theorem Dev.setReg_timeFrac (r : RegName) (ix : List Nat) (v : W32) : (d.setReg r ix v).timeFrac = d.timeFrac := rfl
@[simp] theorem Dev.setReg_collHeld (r : RegName) (ix : List Nat) (v : W32) : (d.setReg r ix v).collHeld = d.collHeld := rfl
@[simp] theorem Dev.setReg_out (r : RegName) (ix : List Nat) (v : W32) : (d.setReg r ix v).out = d.out := rfl
@[simp] theorem Dev.setReg_free (r : RegName) (ix : List Nat) (v : W32) : (d.setReg r ix v).free = d.free := rfl

/-! ### Dev.report -/

@[simp] theorem Dev.report_time (r : Report) : (d.report r).time = d.time := rfl
@[simp] theorem Dev.report_ticks (r : Report) : (d.report r).ticks = d.ticks := rfl
@[simp] theorem Dev.report_tripped (r : Report) : (d.report r).tripped = d.tripped := rfl
@[simp] theorem Dev.report_halted (r : Report) : (d.report r).halted = d.halted := rfl
@[simp] theorem Dev.report_board (r : Report) : (d.report r).board = d.board := rfl
@[simp] theorem Dev.report_pwr (r : Report) : (d.report r).pwr = d.pwr := rfl
@[simp] theorem Dev.report_flash (r : Report) : (d.report r).flash = d.flash := rfl
@[simp] theorem Dev.report_update (r : Report) : (d.report r).update = d.update := rfl
@[simp] theorem Dev.report_modCauses (r : Report) : (d.report r).modCauses = d.modCauses := rfl
@[simp] theorem Dev.report_i3cAddr (r : Report) : (d.report r).i3cAddr = d.i3cAddr := rfl
@[simp] theorem Dev.report_taps (r : Report) : (d.report r).taps = d.taps := rfl
@[simp] theorem Dev.report_measured (r : Report) : (d.report r).measured = d.measured := rfl
@[simp] theorem Dev.report_spdmAlgs (r : Report) : (d.report r).spdmAlgs = d.spdmAlgs := rfl
@[simp] theorem Dev.report_nonce (r : Report) : (d.report r).nonce = d.nonce := rfl
@[simp] theorem Dev.report_dies (r : Report) : (d.report r).dies = d.dies := rfl
@[simp] theorem Dev.report_benches (r : Report) : (d.report r).benches = d.benches := rfl
@[simp] theorem Dev.report_regs (r : Report) : (d.report r).regs = d.regs := rfl
@[simp] theorem Dev.report_fresh (r : Report) : (d.report r).fresh = d.fresh := rfl
@[simp] theorem Dev.report_net (r : Report) : (d.report r).net = d.net := rfl
@[simp] theorem Dev.report_clampDown (r : Report) : (d.report r).clampDown = d.clampDown := rfl
@[simp] theorem Dev.report_spent (r : Report) : (d.report r).spent = d.spent := rfl
@[simp] theorem Dev.report_caught (r : Report) : (d.report r).caught = d.caught := rfl
@[simp] theorem Dev.report_mods (r : Report) : (d.report r).mods = d.mods := rfl
@[simp] theorem Dev.report_modLists (r : Report) : (d.report r).modLists = d.modLists := rfl
@[simp] theorem Dev.report_listPend (r : Report) : (d.report r).listPend = d.listPend := rfl
@[simp] theorem Dev.report_reseat (r : Report) : (d.report r).reseat = d.reseat := rfl
@[simp] theorem Dev.report_reseats (r : Report) : (d.report r).reseats = d.reseats := rfl
@[simp] theorem Dev.report_queues (r : Report) : (d.report r).queues = d.queues := rfl
@[simp] theorem Dev.report_slots (r : Report) : (d.report r).slots = d.slots := rfl
@[simp] theorem Dev.report_starts (r : Report) : (d.report r).starts = d.starts := rfl
@[simp] theorem Dev.report_kills (r : Report) : (d.report r).kills = d.kills := rfl
@[simp] theorem Dev.report_phaseMarks (r : Report) : (d.report r).phaseMarks = d.phaseMarks := rfl
@[simp] theorem Dev.report_quiesced (r : Report) : (d.report r).quiesced = d.quiesced := rfl
@[simp] theorem Dev.report_returns (r : Report) : (d.report r).returns = d.returns := rfl
@[simp] theorem Dev.report_quiet (r : Report) : (d.report r).quiet = d.quiet := rfl
@[simp] theorem Dev.report_lineFault (r : Report) : (d.report r).lineFault = d.lineFault := rfl
@[simp] theorem Dev.report_evlog (r : Report) : (d.report r).evlog = d.evlog := rfl
@[simp] theorem Dev.report_evlogLast (r : Report) : (d.report r).evlogLast = d.evlogLast := rfl
@[simp] theorem Dev.report_pldm (r : Report) : (d.report r).pldm = d.pldm := rfl
@[simp] theorem Dev.report_hbm (r : Report) : (d.report r).hbm = d.hbm := rfl
@[simp] theorem Dev.report_hbmPoison (r : Report) : (d.report r).hbmPoison = d.hbmPoison := rfl
@[simp] theorem Dev.report_bays (r : Report) : (d.report r).bays = d.bays := rfl
@[simp] theorem Dev.report_slices (r : Report) : (d.report r).slices = d.slices := rfl
@[simp] theorem Dev.report_iodLines (r : Report) : (d.report r).iodLines = d.iodLines := rfl
@[simp] theorem Dev.report_winFlush (r : Report) : (d.report r).winFlush = d.winFlush := rfl
@[simp] theorem Dev.report_hbmStacks (r : Report) : (d.report r).hbmStacks = d.hbmStacks := rfl
@[simp] theorem Dev.report_mirrors (r : Report) : (d.report r).mirrors = d.mirrors := rfl
@[simp] theorem Dev.report_mirSentRem (r : Report) : (d.report r).mirSentRem = d.mirSentRem := rfl
@[simp] theorem Dev.report_repairs (r : Report) : (d.report r).repairs = d.repairs := rfl
@[simp] theorem Dev.report_fns (r : Report) : (d.report r).fns = d.fns := rfl
@[simp] theorem Dev.report_numVfs (r : Report) : (d.report r).numVfs = d.numVfs := rfl
@[simp] theorem Dev.report_vfEnable (r : Report) : (d.report r).vfEnable = d.vfEnable := rfl
@[simp] theorem Dev.report_msix (r : Report) : (d.report r).msix = d.msix := rfl
@[simp] theorem Dev.report_heldMsgs (r : Report) : (d.report r).heldMsgs = d.heldMsgs := rfl
@[simp] theorem Dev.report_noticed (r : Report) : (d.report r).noticed = d.noticed := rfl
@[simp] theorem Dev.report_cpTurn (r : Report) : (d.report r).cpTurn = d.cpTurn := rfl
@[simp] theorem Dev.report_hostWait (r : Report) : (d.report r).hostWait = d.hostWait := rfl
@[simp] theorem Dev.report_orphans (r : Report) : (d.report r).orphans = d.orphans := rfl
@[simp] theorem Dev.report_peers (r : Report) : (d.report r).peers = d.peers := rfl
@[simp] theorem Dev.report_ports (r : Report) : (d.report r).ports = d.ports := rfl
@[simp] theorem Dev.report_fabReads (r : Report) : (d.report r).fabReads = d.fabReads := rfl
@[simp] theorem Dev.report_nextTag (r : Report) : (d.report r).nextTag = d.nextTag := rfl
@[simp] theorem Dev.report_heldBays (r : Report) : (d.report r).heldBays = d.heldBays := rfl
@[simp] theorem Dev.report_bayFree (r : Report) : (d.report r).bayFree = d.bayFree := rfl
@[simp] theorem Dev.report_tsAt (r : Report) : (d.report r).tsAt = d.tsAt := rfl
@[simp] theorem Dev.report_tsStepped (r : Report) : (d.report r).tsStepped = d.tsStepped := rfl
@[simp] theorem Dev.report_tsBad (r : Report) : (d.report r).tsBad = d.tsBad := rfl
@[simp] theorem Dev.report_tsGood (r : Report) : (d.report r).tsGood = d.tsGood := rfl
@[simp] theorem Dev.report_timeFrac (r : Report) : (d.report r).timeFrac = d.timeFrac := rfl
@[simp] theorem Dev.report_collHeld (r : Report) : (d.report r).collHeld = d.collHeld := rfl
@[simp] theorem Dev.report_out (r : Report) : (d.report r).out = d.out := rfl
@[simp] theorem Dev.report_free (r : Report) : (d.report r).free = d.free := rfl

/-! ### Dev.emit -/

@[simp] theorem Dev.emit_time (m : OutMsg) : (d.emit m).time = d.time := rfl
@[simp] theorem Dev.emit_ticks (m : OutMsg) : (d.emit m).ticks = d.ticks := rfl
@[simp] theorem Dev.emit_tripped (m : OutMsg) : (d.emit m).tripped = d.tripped := rfl
@[simp] theorem Dev.emit_halted (m : OutMsg) : (d.emit m).halted = d.halted := rfl
@[simp] theorem Dev.emit_board (m : OutMsg) : (d.emit m).board = d.board := rfl
@[simp] theorem Dev.emit_pwr (m : OutMsg) : (d.emit m).pwr = d.pwr := rfl
@[simp] theorem Dev.emit_flash (m : OutMsg) : (d.emit m).flash = d.flash := rfl
@[simp] theorem Dev.emit_update (m : OutMsg) : (d.emit m).update = d.update := rfl
@[simp] theorem Dev.emit_modCauses (m : OutMsg) : (d.emit m).modCauses = d.modCauses := rfl
@[simp] theorem Dev.emit_i3cAddr (m : OutMsg) : (d.emit m).i3cAddr = d.i3cAddr := rfl
@[simp] theorem Dev.emit_taps (m : OutMsg) : (d.emit m).taps = d.taps := rfl
@[simp] theorem Dev.emit_measured (m : OutMsg) : (d.emit m).measured = d.measured := rfl
@[simp] theorem Dev.emit_spdmAlgs (m : OutMsg) : (d.emit m).spdmAlgs = d.spdmAlgs := rfl
@[simp] theorem Dev.emit_nonce (m : OutMsg) : (d.emit m).nonce = d.nonce := rfl
@[simp] theorem Dev.emit_dies (m : OutMsg) : (d.emit m).dies = d.dies := rfl
@[simp] theorem Dev.emit_benches (m : OutMsg) : (d.emit m).benches = d.benches := rfl
@[simp] theorem Dev.emit_regs (m : OutMsg) : (d.emit m).regs = d.regs := rfl
@[simp] theorem Dev.emit_fresh (m : OutMsg) : (d.emit m).fresh = d.fresh := rfl
@[simp] theorem Dev.emit_net (m : OutMsg) : (d.emit m).net = d.net := rfl
@[simp] theorem Dev.emit_clampDown (m : OutMsg) : (d.emit m).clampDown = d.clampDown := rfl
@[simp] theorem Dev.emit_spent (m : OutMsg) : (d.emit m).spent = d.spent := rfl
@[simp] theorem Dev.emit_reports (m : OutMsg) : (d.emit m).reports = d.reports := rfl
@[simp] theorem Dev.emit_caught (m : OutMsg) : (d.emit m).caught = d.caught := rfl
@[simp] theorem Dev.emit_mods (m : OutMsg) : (d.emit m).mods = d.mods := rfl
@[simp] theorem Dev.emit_modLists (m : OutMsg) : (d.emit m).modLists = d.modLists := rfl
@[simp] theorem Dev.emit_listPend (m : OutMsg) : (d.emit m).listPend = d.listPend := rfl
@[simp] theorem Dev.emit_reseat (m : OutMsg) : (d.emit m).reseat = d.reseat := rfl
@[simp] theorem Dev.emit_reseats (m : OutMsg) : (d.emit m).reseats = d.reseats := rfl
@[simp] theorem Dev.emit_queues (m : OutMsg) : (d.emit m).queues = d.queues := rfl
@[simp] theorem Dev.emit_slots (m : OutMsg) : (d.emit m).slots = d.slots := rfl
@[simp] theorem Dev.emit_starts (m : OutMsg) : (d.emit m).starts = d.starts := rfl
@[simp] theorem Dev.emit_kills (m : OutMsg) : (d.emit m).kills = d.kills := rfl
@[simp] theorem Dev.emit_phaseMarks (m : OutMsg) : (d.emit m).phaseMarks = d.phaseMarks := rfl
@[simp] theorem Dev.emit_quiesced (m : OutMsg) : (d.emit m).quiesced = d.quiesced := rfl
@[simp] theorem Dev.emit_returns (m : OutMsg) : (d.emit m).returns = d.returns := rfl
@[simp] theorem Dev.emit_quiet (m : OutMsg) : (d.emit m).quiet = d.quiet := rfl
@[simp] theorem Dev.emit_lineFault (m : OutMsg) : (d.emit m).lineFault = d.lineFault := rfl
@[simp] theorem Dev.emit_evlog (m : OutMsg) : (d.emit m).evlog = d.evlog := rfl
@[simp] theorem Dev.emit_evlogLast (m : OutMsg) : (d.emit m).evlogLast = d.evlogLast := rfl
@[simp] theorem Dev.emit_pldm (m : OutMsg) : (d.emit m).pldm = d.pldm := rfl
@[simp] theorem Dev.emit_hbm (m : OutMsg) : (d.emit m).hbm = d.hbm := rfl
@[simp] theorem Dev.emit_hbmPoison (m : OutMsg) : (d.emit m).hbmPoison = d.hbmPoison := rfl
@[simp] theorem Dev.emit_bays (m : OutMsg) : (d.emit m).bays = d.bays := rfl
@[simp] theorem Dev.emit_slices (m : OutMsg) : (d.emit m).slices = d.slices := rfl
@[simp] theorem Dev.emit_iodLines (m : OutMsg) : (d.emit m).iodLines = d.iodLines := rfl
@[simp] theorem Dev.emit_winFlush (m : OutMsg) : (d.emit m).winFlush = d.winFlush := rfl
@[simp] theorem Dev.emit_hbmStacks (m : OutMsg) : (d.emit m).hbmStacks = d.hbmStacks := rfl
@[simp] theorem Dev.emit_mirrors (m : OutMsg) : (d.emit m).mirrors = d.mirrors := rfl
@[simp] theorem Dev.emit_mirSentRem (m : OutMsg) : (d.emit m).mirSentRem = d.mirSentRem := rfl
@[simp] theorem Dev.emit_repairs (m : OutMsg) : (d.emit m).repairs = d.repairs := rfl
@[simp] theorem Dev.emit_fns (m : OutMsg) : (d.emit m).fns = d.fns := rfl
@[simp] theorem Dev.emit_numVfs (m : OutMsg) : (d.emit m).numVfs = d.numVfs := rfl
@[simp] theorem Dev.emit_vfEnable (m : OutMsg) : (d.emit m).vfEnable = d.vfEnable := rfl
@[simp] theorem Dev.emit_msix (m : OutMsg) : (d.emit m).msix = d.msix := rfl
@[simp] theorem Dev.emit_heldMsgs (m : OutMsg) : (d.emit m).heldMsgs = d.heldMsgs := rfl
@[simp] theorem Dev.emit_noticed (m : OutMsg) : (d.emit m).noticed = d.noticed := rfl
@[simp] theorem Dev.emit_cpTurn (m : OutMsg) : (d.emit m).cpTurn = d.cpTurn := rfl
@[simp] theorem Dev.emit_hostWait (m : OutMsg) : (d.emit m).hostWait = d.hostWait := rfl
@[simp] theorem Dev.emit_orphans (m : OutMsg) : (d.emit m).orphans = d.orphans := rfl
@[simp] theorem Dev.emit_peers (m : OutMsg) : (d.emit m).peers = d.peers := rfl
@[simp] theorem Dev.emit_ports (m : OutMsg) : (d.emit m).ports = d.ports := rfl
@[simp] theorem Dev.emit_fabReads (m : OutMsg) : (d.emit m).fabReads = d.fabReads := rfl
@[simp] theorem Dev.emit_nextTag (m : OutMsg) : (d.emit m).nextTag = d.nextTag := rfl
@[simp] theorem Dev.emit_heldBays (m : OutMsg) : (d.emit m).heldBays = d.heldBays := rfl
@[simp] theorem Dev.emit_bayFree (m : OutMsg) : (d.emit m).bayFree = d.bayFree := rfl
@[simp] theorem Dev.emit_tsAt (m : OutMsg) : (d.emit m).tsAt = d.tsAt := rfl
@[simp] theorem Dev.emit_tsStepped (m : OutMsg) : (d.emit m).tsStepped = d.tsStepped := rfl
@[simp] theorem Dev.emit_tsBad (m : OutMsg) : (d.emit m).tsBad = d.tsBad := rfl
@[simp] theorem Dev.emit_tsGood (m : OutMsg) : (d.emit m).tsGood = d.tsGood := rfl
@[simp] theorem Dev.emit_timeFrac (m : OutMsg) : (d.emit m).timeFrac = d.timeFrac := rfl
@[simp] theorem Dev.emit_collHeld (m : OutMsg) : (d.emit m).collHeld = d.collHeld := rfl
@[simp] theorem Dev.emit_free (m : OutMsg) : (d.emit m).free = d.free := rfl

/-! ### Dev.setFn -/

@[simp] theorem Dev.setFn_time (f : Nat) (x : HostFn) : (d.setFn f x).time = d.time := rfl
@[simp] theorem Dev.setFn_ticks (f : Nat) (x : HostFn) : (d.setFn f x).ticks = d.ticks := rfl
@[simp] theorem Dev.setFn_tripped (f : Nat) (x : HostFn) : (d.setFn f x).tripped = d.tripped := rfl
@[simp] theorem Dev.setFn_halted (f : Nat) (x : HostFn) : (d.setFn f x).halted = d.halted := rfl
@[simp] theorem Dev.setFn_board (f : Nat) (x : HostFn) : (d.setFn f x).board = d.board := rfl
@[simp] theorem Dev.setFn_pwr (f : Nat) (x : HostFn) : (d.setFn f x).pwr = d.pwr := rfl
@[simp] theorem Dev.setFn_flash (f : Nat) (x : HostFn) : (d.setFn f x).flash = d.flash := rfl
@[simp] theorem Dev.setFn_update (f : Nat) (x : HostFn) : (d.setFn f x).update = d.update := rfl
@[simp] theorem Dev.setFn_modCauses (f : Nat) (x : HostFn) : (d.setFn f x).modCauses = d.modCauses := rfl
@[simp] theorem Dev.setFn_i3cAddr (f : Nat) (x : HostFn) : (d.setFn f x).i3cAddr = d.i3cAddr := rfl
@[simp] theorem Dev.setFn_taps (f : Nat) (x : HostFn) : (d.setFn f x).taps = d.taps := rfl
@[simp] theorem Dev.setFn_measured (f : Nat) (x : HostFn) : (d.setFn f x).measured = d.measured := rfl
@[simp] theorem Dev.setFn_spdmAlgs (f : Nat) (x : HostFn) : (d.setFn f x).spdmAlgs = d.spdmAlgs := rfl
@[simp] theorem Dev.setFn_nonce (f : Nat) (x : HostFn) : (d.setFn f x).nonce = d.nonce := rfl
@[simp] theorem Dev.setFn_dies (f : Nat) (x : HostFn) : (d.setFn f x).dies = d.dies := rfl
@[simp] theorem Dev.setFn_benches (f : Nat) (x : HostFn) : (d.setFn f x).benches = d.benches := rfl
@[simp] theorem Dev.setFn_regs (f : Nat) (x : HostFn) : (d.setFn f x).regs = d.regs := rfl
@[simp] theorem Dev.setFn_fresh (f : Nat) (x : HostFn) : (d.setFn f x).fresh = d.fresh := rfl
@[simp] theorem Dev.setFn_net (f : Nat) (x : HostFn) : (d.setFn f x).net = d.net := rfl
@[simp] theorem Dev.setFn_clampDown (f : Nat) (x : HostFn) : (d.setFn f x).clampDown = d.clampDown := rfl
@[simp] theorem Dev.setFn_spent (f : Nat) (x : HostFn) : (d.setFn f x).spent = d.spent := rfl
@[simp] theorem Dev.setFn_reports (f : Nat) (x : HostFn) : (d.setFn f x).reports = d.reports := rfl
@[simp] theorem Dev.setFn_caught (f : Nat) (x : HostFn) : (d.setFn f x).caught = d.caught := rfl
@[simp] theorem Dev.setFn_mods (f : Nat) (x : HostFn) : (d.setFn f x).mods = d.mods := rfl
@[simp] theorem Dev.setFn_modLists (f : Nat) (x : HostFn) : (d.setFn f x).modLists = d.modLists := rfl
@[simp] theorem Dev.setFn_listPend (f : Nat) (x : HostFn) : (d.setFn f x).listPend = d.listPend := rfl
@[simp] theorem Dev.setFn_reseat (f : Nat) (x : HostFn) : (d.setFn f x).reseat = d.reseat := rfl
@[simp] theorem Dev.setFn_reseats (f : Nat) (x : HostFn) : (d.setFn f x).reseats = d.reseats := rfl
@[simp] theorem Dev.setFn_queues (f : Nat) (x : HostFn) : (d.setFn f x).queues = d.queues := rfl
@[simp] theorem Dev.setFn_slots (f : Nat) (x : HostFn) : (d.setFn f x).slots = d.slots := rfl
@[simp] theorem Dev.setFn_starts (f : Nat) (x : HostFn) : (d.setFn f x).starts = d.starts := rfl
@[simp] theorem Dev.setFn_kills (f : Nat) (x : HostFn) : (d.setFn f x).kills = d.kills := rfl
@[simp] theorem Dev.setFn_phaseMarks (f : Nat) (x : HostFn) : (d.setFn f x).phaseMarks = d.phaseMarks := rfl
@[simp] theorem Dev.setFn_quiesced (f : Nat) (x : HostFn) : (d.setFn f x).quiesced = d.quiesced := rfl
@[simp] theorem Dev.setFn_returns (f : Nat) (x : HostFn) : (d.setFn f x).returns = d.returns := rfl
@[simp] theorem Dev.setFn_quiet (f : Nat) (x : HostFn) : (d.setFn f x).quiet = d.quiet := rfl
@[simp] theorem Dev.setFn_lineFault (f : Nat) (x : HostFn) : (d.setFn f x).lineFault = d.lineFault := rfl
@[simp] theorem Dev.setFn_evlog (f : Nat) (x : HostFn) : (d.setFn f x).evlog = d.evlog := rfl
@[simp] theorem Dev.setFn_evlogLast (f : Nat) (x : HostFn) : (d.setFn f x).evlogLast = d.evlogLast := rfl
@[simp] theorem Dev.setFn_pldm (f : Nat) (x : HostFn) : (d.setFn f x).pldm = d.pldm := rfl
@[simp] theorem Dev.setFn_hbm (f : Nat) (x : HostFn) : (d.setFn f x).hbm = d.hbm := rfl
@[simp] theorem Dev.setFn_hbmPoison (f : Nat) (x : HostFn) : (d.setFn f x).hbmPoison = d.hbmPoison := rfl
@[simp] theorem Dev.setFn_bays (f : Nat) (x : HostFn) : (d.setFn f x).bays = d.bays := rfl
@[simp] theorem Dev.setFn_slices (f : Nat) (x : HostFn) : (d.setFn f x).slices = d.slices := rfl
@[simp] theorem Dev.setFn_iodLines (f : Nat) (x : HostFn) : (d.setFn f x).iodLines = d.iodLines := rfl
@[simp] theorem Dev.setFn_winFlush (f : Nat) (x : HostFn) : (d.setFn f x).winFlush = d.winFlush := rfl
@[simp] theorem Dev.setFn_hbmStacks (f : Nat) (x : HostFn) : (d.setFn f x).hbmStacks = d.hbmStacks := rfl
@[simp] theorem Dev.setFn_mirrors (f : Nat) (x : HostFn) : (d.setFn f x).mirrors = d.mirrors := rfl
@[simp] theorem Dev.setFn_mirSentRem (f : Nat) (x : HostFn) : (d.setFn f x).mirSentRem = d.mirSentRem := rfl
@[simp] theorem Dev.setFn_repairs (f : Nat) (x : HostFn) : (d.setFn f x).repairs = d.repairs := rfl
@[simp] theorem Dev.setFn_numVfs (f : Nat) (x : HostFn) : (d.setFn f x).numVfs = d.numVfs := rfl
@[simp] theorem Dev.setFn_vfEnable (f : Nat) (x : HostFn) : (d.setFn f x).vfEnable = d.vfEnable := rfl
@[simp] theorem Dev.setFn_msix (f : Nat) (x : HostFn) : (d.setFn f x).msix = d.msix := rfl
@[simp] theorem Dev.setFn_heldMsgs (f : Nat) (x : HostFn) : (d.setFn f x).heldMsgs = d.heldMsgs := rfl
@[simp] theorem Dev.setFn_noticed (f : Nat) (x : HostFn) : (d.setFn f x).noticed = d.noticed := rfl
@[simp] theorem Dev.setFn_cpTurn (f : Nat) (x : HostFn) : (d.setFn f x).cpTurn = d.cpTurn := rfl
@[simp] theorem Dev.setFn_hostWait (f : Nat) (x : HostFn) : (d.setFn f x).hostWait = d.hostWait := rfl
@[simp] theorem Dev.setFn_orphans (f : Nat) (x : HostFn) : (d.setFn f x).orphans = d.orphans := rfl
@[simp] theorem Dev.setFn_peers (f : Nat) (x : HostFn) : (d.setFn f x).peers = d.peers := rfl
@[simp] theorem Dev.setFn_ports (f : Nat) (x : HostFn) : (d.setFn f x).ports = d.ports := rfl
@[simp] theorem Dev.setFn_fabReads (f : Nat) (x : HostFn) : (d.setFn f x).fabReads = d.fabReads := rfl
@[simp] theorem Dev.setFn_nextTag (f : Nat) (x : HostFn) : (d.setFn f x).nextTag = d.nextTag := rfl
@[simp] theorem Dev.setFn_heldBays (f : Nat) (x : HostFn) : (d.setFn f x).heldBays = d.heldBays := rfl
@[simp] theorem Dev.setFn_bayFree (f : Nat) (x : HostFn) : (d.setFn f x).bayFree = d.bayFree := rfl
@[simp] theorem Dev.setFn_tsAt (f : Nat) (x : HostFn) : (d.setFn f x).tsAt = d.tsAt := rfl
@[simp] theorem Dev.setFn_tsStepped (f : Nat) (x : HostFn) : (d.setFn f x).tsStepped = d.tsStepped := rfl
@[simp] theorem Dev.setFn_tsBad (f : Nat) (x : HostFn) : (d.setFn f x).tsBad = d.tsBad := rfl
@[simp] theorem Dev.setFn_tsGood (f : Nat) (x : HostFn) : (d.setFn f x).tsGood = d.tsGood := rfl
@[simp] theorem Dev.setFn_timeFrac (f : Nat) (x : HostFn) : (d.setFn f x).timeFrac = d.timeFrac := rfl
@[simp] theorem Dev.setFn_collHeld (f : Nat) (x : HostFn) : (d.setFn f x).collHeld = d.collHeld := rfl
@[simp] theorem Dev.setFn_out (f : Nat) (x : HostFn) : (d.setFn f x).out = d.out := rfl
@[simp] theorem Dev.setFn_free (f : Nat) (x : HostFn) : (d.setFn f x).free = d.free := rfl

/-! ### Dev.setVec -/

@[simp] theorem Dev.setVec_time (f v : Nat) (x : MsixVec) : (d.setVec f v x).time = d.time := rfl
@[simp] theorem Dev.setVec_ticks (f v : Nat) (x : MsixVec) : (d.setVec f v x).ticks = d.ticks := rfl
@[simp] theorem Dev.setVec_tripped (f v : Nat) (x : MsixVec) : (d.setVec f v x).tripped = d.tripped := rfl
@[simp] theorem Dev.setVec_halted (f v : Nat) (x : MsixVec) : (d.setVec f v x).halted = d.halted := rfl
@[simp] theorem Dev.setVec_board (f v : Nat) (x : MsixVec) : (d.setVec f v x).board = d.board := rfl
@[simp] theorem Dev.setVec_pwr (f v : Nat) (x : MsixVec) : (d.setVec f v x).pwr = d.pwr := rfl
@[simp] theorem Dev.setVec_flash (f v : Nat) (x : MsixVec) : (d.setVec f v x).flash = d.flash := rfl
@[simp] theorem Dev.setVec_update (f v : Nat) (x : MsixVec) : (d.setVec f v x).update = d.update := rfl
@[simp] theorem Dev.setVec_modCauses (f v : Nat) (x : MsixVec) : (d.setVec f v x).modCauses = d.modCauses := rfl
@[simp] theorem Dev.setVec_i3cAddr (f v : Nat) (x : MsixVec) : (d.setVec f v x).i3cAddr = d.i3cAddr := rfl
@[simp] theorem Dev.setVec_taps (f v : Nat) (x : MsixVec) : (d.setVec f v x).taps = d.taps := rfl
@[simp] theorem Dev.setVec_measured (f v : Nat) (x : MsixVec) : (d.setVec f v x).measured = d.measured := rfl
@[simp] theorem Dev.setVec_spdmAlgs (f v : Nat) (x : MsixVec) : (d.setVec f v x).spdmAlgs = d.spdmAlgs := rfl
@[simp] theorem Dev.setVec_nonce (f v : Nat) (x : MsixVec) : (d.setVec f v x).nonce = d.nonce := rfl
@[simp] theorem Dev.setVec_dies (f v : Nat) (x : MsixVec) : (d.setVec f v x).dies = d.dies := rfl
@[simp] theorem Dev.setVec_benches (f v : Nat) (x : MsixVec) : (d.setVec f v x).benches = d.benches := rfl
@[simp] theorem Dev.setVec_regs (f v : Nat) (x : MsixVec) : (d.setVec f v x).regs = d.regs := rfl
@[simp] theorem Dev.setVec_fresh (f v : Nat) (x : MsixVec) : (d.setVec f v x).fresh = d.fresh := rfl
@[simp] theorem Dev.setVec_net (f v : Nat) (x : MsixVec) : (d.setVec f v x).net = d.net := rfl
@[simp] theorem Dev.setVec_clampDown (f v : Nat) (x : MsixVec) : (d.setVec f v x).clampDown = d.clampDown := rfl
@[simp] theorem Dev.setVec_spent (f v : Nat) (x : MsixVec) : (d.setVec f v x).spent = d.spent := rfl
@[simp] theorem Dev.setVec_reports (f v : Nat) (x : MsixVec) : (d.setVec f v x).reports = d.reports := rfl
@[simp] theorem Dev.setVec_caught (f v : Nat) (x : MsixVec) : (d.setVec f v x).caught = d.caught := rfl
@[simp] theorem Dev.setVec_mods (f v : Nat) (x : MsixVec) : (d.setVec f v x).mods = d.mods := rfl
@[simp] theorem Dev.setVec_modLists (f v : Nat) (x : MsixVec) : (d.setVec f v x).modLists = d.modLists := rfl
@[simp] theorem Dev.setVec_listPend (f v : Nat) (x : MsixVec) : (d.setVec f v x).listPend = d.listPend := rfl
@[simp] theorem Dev.setVec_reseat (f v : Nat) (x : MsixVec) : (d.setVec f v x).reseat = d.reseat := rfl
@[simp] theorem Dev.setVec_reseats (f v : Nat) (x : MsixVec) : (d.setVec f v x).reseats = d.reseats := rfl
@[simp] theorem Dev.setVec_queues (f v : Nat) (x : MsixVec) : (d.setVec f v x).queues = d.queues := rfl
@[simp] theorem Dev.setVec_slots (f v : Nat) (x : MsixVec) : (d.setVec f v x).slots = d.slots := rfl
@[simp] theorem Dev.setVec_starts (f v : Nat) (x : MsixVec) : (d.setVec f v x).starts = d.starts := rfl
@[simp] theorem Dev.setVec_kills (f v : Nat) (x : MsixVec) : (d.setVec f v x).kills = d.kills := rfl
@[simp] theorem Dev.setVec_phaseMarks (f v : Nat) (x : MsixVec) : (d.setVec f v x).phaseMarks = d.phaseMarks := rfl
@[simp] theorem Dev.setVec_quiesced (f v : Nat) (x : MsixVec) : (d.setVec f v x).quiesced = d.quiesced := rfl
@[simp] theorem Dev.setVec_returns (f v : Nat) (x : MsixVec) : (d.setVec f v x).returns = d.returns := rfl
@[simp] theorem Dev.setVec_quiet (f v : Nat) (x : MsixVec) : (d.setVec f v x).quiet = d.quiet := rfl
@[simp] theorem Dev.setVec_lineFault (f v : Nat) (x : MsixVec) : (d.setVec f v x).lineFault = d.lineFault := rfl
@[simp] theorem Dev.setVec_evlog (f v : Nat) (x : MsixVec) : (d.setVec f v x).evlog = d.evlog := rfl
@[simp] theorem Dev.setVec_evlogLast (f v : Nat) (x : MsixVec) : (d.setVec f v x).evlogLast = d.evlogLast := rfl
@[simp] theorem Dev.setVec_pldm (f v : Nat) (x : MsixVec) : (d.setVec f v x).pldm = d.pldm := rfl
@[simp] theorem Dev.setVec_hbm (f v : Nat) (x : MsixVec) : (d.setVec f v x).hbm = d.hbm := rfl
@[simp] theorem Dev.setVec_hbmPoison (f v : Nat) (x : MsixVec) : (d.setVec f v x).hbmPoison = d.hbmPoison := rfl
@[simp] theorem Dev.setVec_bays (f v : Nat) (x : MsixVec) : (d.setVec f v x).bays = d.bays := rfl
@[simp] theorem Dev.setVec_slices (f v : Nat) (x : MsixVec) : (d.setVec f v x).slices = d.slices := rfl
@[simp] theorem Dev.setVec_iodLines (f v : Nat) (x : MsixVec) : (d.setVec f v x).iodLines = d.iodLines := rfl
@[simp] theorem Dev.setVec_winFlush (f v : Nat) (x : MsixVec) : (d.setVec f v x).winFlush = d.winFlush := rfl
@[simp] theorem Dev.setVec_hbmStacks (f v : Nat) (x : MsixVec) : (d.setVec f v x).hbmStacks = d.hbmStacks := rfl
@[simp] theorem Dev.setVec_mirrors (f v : Nat) (x : MsixVec) : (d.setVec f v x).mirrors = d.mirrors := rfl
@[simp] theorem Dev.setVec_mirSentRem (f v : Nat) (x : MsixVec) : (d.setVec f v x).mirSentRem = d.mirSentRem := rfl
@[simp] theorem Dev.setVec_repairs (f v : Nat) (x : MsixVec) : (d.setVec f v x).repairs = d.repairs := rfl
@[simp] theorem Dev.setVec_fns (f v : Nat) (x : MsixVec) : (d.setVec f v x).fns = d.fns := rfl
@[simp] theorem Dev.setVec_numVfs (f v : Nat) (x : MsixVec) : (d.setVec f v x).numVfs = d.numVfs := rfl
@[simp] theorem Dev.setVec_vfEnable (f v : Nat) (x : MsixVec) : (d.setVec f v x).vfEnable = d.vfEnable := rfl
@[simp] theorem Dev.setVec_heldMsgs (f v : Nat) (x : MsixVec) : (d.setVec f v x).heldMsgs = d.heldMsgs := rfl
@[simp] theorem Dev.setVec_noticed (f v : Nat) (x : MsixVec) : (d.setVec f v x).noticed = d.noticed := rfl
@[simp] theorem Dev.setVec_cpTurn (f v : Nat) (x : MsixVec) : (d.setVec f v x).cpTurn = d.cpTurn := rfl
@[simp] theorem Dev.setVec_hostWait (f v : Nat) (x : MsixVec) : (d.setVec f v x).hostWait = d.hostWait := rfl
@[simp] theorem Dev.setVec_orphans (f v : Nat) (x : MsixVec) : (d.setVec f v x).orphans = d.orphans := rfl
@[simp] theorem Dev.setVec_peers (f v : Nat) (x : MsixVec) : (d.setVec f v x).peers = d.peers := rfl
@[simp] theorem Dev.setVec_ports (f v : Nat) (x : MsixVec) : (d.setVec f v x).ports = d.ports := rfl
@[simp] theorem Dev.setVec_fabReads (f v : Nat) (x : MsixVec) : (d.setVec f v x).fabReads = d.fabReads := rfl
@[simp] theorem Dev.setVec_nextTag (f v : Nat) (x : MsixVec) : (d.setVec f v x).nextTag = d.nextTag := rfl
@[simp] theorem Dev.setVec_heldBays (f v : Nat) (x : MsixVec) : (d.setVec f v x).heldBays = d.heldBays := rfl
@[simp] theorem Dev.setVec_bayFree (f v : Nat) (x : MsixVec) : (d.setVec f v x).bayFree = d.bayFree := rfl
@[simp] theorem Dev.setVec_tsAt (f v : Nat) (x : MsixVec) : (d.setVec f v x).tsAt = d.tsAt := rfl
@[simp] theorem Dev.setVec_tsStepped (f v : Nat) (x : MsixVec) : (d.setVec f v x).tsStepped = d.tsStepped := rfl
@[simp] theorem Dev.setVec_tsBad (f v : Nat) (x : MsixVec) : (d.setVec f v x).tsBad = d.tsBad := rfl
@[simp] theorem Dev.setVec_tsGood (f v : Nat) (x : MsixVec) : (d.setVec f v x).tsGood = d.tsGood := rfl
@[simp] theorem Dev.setVec_timeFrac (f v : Nat) (x : MsixVec) : (d.setVec f v x).timeFrac = d.timeFrac := rfl
@[simp] theorem Dev.setVec_collHeld (f v : Nat) (x : MsixVec) : (d.setVec f v x).collHeld = d.collHeld := rfl
@[simp] theorem Dev.setVec_out (f v : Nat) (x : MsixVec) : (d.setVec f v x).out = d.out := rfl
@[simp] theorem Dev.setVec_free (f v : Nat) (x : MsixVec) : (d.setVec f v x).free = d.free := rfl

/-! ### Dev.setQueue -/

@[simp] theorem Dev.setQueue_time (q : Nat) (x : Queue) : (d.setQueue q x).time = d.time := rfl
@[simp] theorem Dev.setQueue_ticks (q : Nat) (x : Queue) : (d.setQueue q x).ticks = d.ticks := rfl
@[simp] theorem Dev.setQueue_tripped (q : Nat) (x : Queue) : (d.setQueue q x).tripped = d.tripped := rfl
@[simp] theorem Dev.setQueue_halted (q : Nat) (x : Queue) : (d.setQueue q x).halted = d.halted := rfl
@[simp] theorem Dev.setQueue_board (q : Nat) (x : Queue) : (d.setQueue q x).board = d.board := rfl
@[simp] theorem Dev.setQueue_pwr (q : Nat) (x : Queue) : (d.setQueue q x).pwr = d.pwr := rfl
@[simp] theorem Dev.setQueue_flash (q : Nat) (x : Queue) : (d.setQueue q x).flash = d.flash := rfl
@[simp] theorem Dev.setQueue_update (q : Nat) (x : Queue) : (d.setQueue q x).update = d.update := rfl
@[simp] theorem Dev.setQueue_modCauses (q : Nat) (x : Queue) : (d.setQueue q x).modCauses = d.modCauses := rfl
@[simp] theorem Dev.setQueue_i3cAddr (q : Nat) (x : Queue) : (d.setQueue q x).i3cAddr = d.i3cAddr := rfl
@[simp] theorem Dev.setQueue_taps (q : Nat) (x : Queue) : (d.setQueue q x).taps = d.taps := rfl
@[simp] theorem Dev.setQueue_measured (q : Nat) (x : Queue) : (d.setQueue q x).measured = d.measured := rfl
@[simp] theorem Dev.setQueue_spdmAlgs (q : Nat) (x : Queue) : (d.setQueue q x).spdmAlgs = d.spdmAlgs := rfl
@[simp] theorem Dev.setQueue_nonce (q : Nat) (x : Queue) : (d.setQueue q x).nonce = d.nonce := rfl
@[simp] theorem Dev.setQueue_dies (q : Nat) (x : Queue) : (d.setQueue q x).dies = d.dies := rfl
@[simp] theorem Dev.setQueue_benches (q : Nat) (x : Queue) : (d.setQueue q x).benches = d.benches := rfl
@[simp] theorem Dev.setQueue_regs (q : Nat) (x : Queue) : (d.setQueue q x).regs = d.regs := rfl
@[simp] theorem Dev.setQueue_fresh (q : Nat) (x : Queue) : (d.setQueue q x).fresh = d.fresh := rfl
@[simp] theorem Dev.setQueue_net (q : Nat) (x : Queue) : (d.setQueue q x).net = d.net := rfl
@[simp] theorem Dev.setQueue_clampDown (q : Nat) (x : Queue) : (d.setQueue q x).clampDown = d.clampDown := rfl
@[simp] theorem Dev.setQueue_spent (q : Nat) (x : Queue) : (d.setQueue q x).spent = d.spent := rfl
@[simp] theorem Dev.setQueue_reports (q : Nat) (x : Queue) : (d.setQueue q x).reports = d.reports := rfl
@[simp] theorem Dev.setQueue_caught (q : Nat) (x : Queue) : (d.setQueue q x).caught = d.caught := rfl
@[simp] theorem Dev.setQueue_mods (q : Nat) (x : Queue) : (d.setQueue q x).mods = d.mods := rfl
@[simp] theorem Dev.setQueue_modLists (q : Nat) (x : Queue) : (d.setQueue q x).modLists = d.modLists := rfl
@[simp] theorem Dev.setQueue_listPend (q : Nat) (x : Queue) : (d.setQueue q x).listPend = d.listPend := rfl
@[simp] theorem Dev.setQueue_reseat (q : Nat) (x : Queue) : (d.setQueue q x).reseat = d.reseat := rfl
@[simp] theorem Dev.setQueue_reseats (q : Nat) (x : Queue) : (d.setQueue q x).reseats = d.reseats := rfl
@[simp] theorem Dev.setQueue_slots (q : Nat) (x : Queue) : (d.setQueue q x).slots = d.slots := rfl
@[simp] theorem Dev.setQueue_starts (q : Nat) (x : Queue) : (d.setQueue q x).starts = d.starts := rfl
@[simp] theorem Dev.setQueue_kills (q : Nat) (x : Queue) : (d.setQueue q x).kills = d.kills := rfl
@[simp] theorem Dev.setQueue_phaseMarks (q : Nat) (x : Queue) : (d.setQueue q x).phaseMarks = d.phaseMarks := rfl
@[simp] theorem Dev.setQueue_quiesced (q : Nat) (x : Queue) : (d.setQueue q x).quiesced = d.quiesced := rfl
@[simp] theorem Dev.setQueue_returns (q : Nat) (x : Queue) : (d.setQueue q x).returns = d.returns := rfl
@[simp] theorem Dev.setQueue_quiet (q : Nat) (x : Queue) : (d.setQueue q x).quiet = d.quiet := rfl
@[simp] theorem Dev.setQueue_lineFault (q : Nat) (x : Queue) : (d.setQueue q x).lineFault = d.lineFault := rfl
@[simp] theorem Dev.setQueue_evlog (q : Nat) (x : Queue) : (d.setQueue q x).evlog = d.evlog := rfl
@[simp] theorem Dev.setQueue_evlogLast (q : Nat) (x : Queue) : (d.setQueue q x).evlogLast = d.evlogLast := rfl
@[simp] theorem Dev.setQueue_pldm (q : Nat) (x : Queue) : (d.setQueue q x).pldm = d.pldm := rfl
@[simp] theorem Dev.setQueue_hbm (q : Nat) (x : Queue) : (d.setQueue q x).hbm = d.hbm := rfl
@[simp] theorem Dev.setQueue_hbmPoison (q : Nat) (x : Queue) : (d.setQueue q x).hbmPoison = d.hbmPoison := rfl
@[simp] theorem Dev.setQueue_bays (q : Nat) (x : Queue) : (d.setQueue q x).bays = d.bays := rfl
@[simp] theorem Dev.setQueue_slices (q : Nat) (x : Queue) : (d.setQueue q x).slices = d.slices := rfl
@[simp] theorem Dev.setQueue_iodLines (q : Nat) (x : Queue) : (d.setQueue q x).iodLines = d.iodLines := rfl
@[simp] theorem Dev.setQueue_winFlush (q : Nat) (x : Queue) : (d.setQueue q x).winFlush = d.winFlush := rfl
@[simp] theorem Dev.setQueue_hbmStacks (q : Nat) (x : Queue) : (d.setQueue q x).hbmStacks = d.hbmStacks := rfl
@[simp] theorem Dev.setQueue_mirrors (q : Nat) (x : Queue) : (d.setQueue q x).mirrors = d.mirrors := rfl
@[simp] theorem Dev.setQueue_mirSentRem (q : Nat) (x : Queue) : (d.setQueue q x).mirSentRem = d.mirSentRem := rfl
@[simp] theorem Dev.setQueue_repairs (q : Nat) (x : Queue) : (d.setQueue q x).repairs = d.repairs := rfl
@[simp] theorem Dev.setQueue_fns (q : Nat) (x : Queue) : (d.setQueue q x).fns = d.fns := rfl
@[simp] theorem Dev.setQueue_numVfs (q : Nat) (x : Queue) : (d.setQueue q x).numVfs = d.numVfs := rfl
@[simp] theorem Dev.setQueue_vfEnable (q : Nat) (x : Queue) : (d.setQueue q x).vfEnable = d.vfEnable := rfl
@[simp] theorem Dev.setQueue_msix (q : Nat) (x : Queue) : (d.setQueue q x).msix = d.msix := rfl
@[simp] theorem Dev.setQueue_heldMsgs (q : Nat) (x : Queue) : (d.setQueue q x).heldMsgs = d.heldMsgs := rfl
@[simp] theorem Dev.setQueue_noticed (q : Nat) (x : Queue) : (d.setQueue q x).noticed = d.noticed := rfl
@[simp] theorem Dev.setQueue_cpTurn (q : Nat) (x : Queue) : (d.setQueue q x).cpTurn = d.cpTurn := rfl
@[simp] theorem Dev.setQueue_hostWait (q : Nat) (x : Queue) : (d.setQueue q x).hostWait = d.hostWait := rfl
@[simp] theorem Dev.setQueue_orphans (q : Nat) (x : Queue) : (d.setQueue q x).orphans = d.orphans := rfl
@[simp] theorem Dev.setQueue_peers (q : Nat) (x : Queue) : (d.setQueue q x).peers = d.peers := rfl
@[simp] theorem Dev.setQueue_ports (q : Nat) (x : Queue) : (d.setQueue q x).ports = d.ports := rfl
@[simp] theorem Dev.setQueue_fabReads (q : Nat) (x : Queue) : (d.setQueue q x).fabReads = d.fabReads := rfl
@[simp] theorem Dev.setQueue_nextTag (q : Nat) (x : Queue) : (d.setQueue q x).nextTag = d.nextTag := rfl
@[simp] theorem Dev.setQueue_heldBays (q : Nat) (x : Queue) : (d.setQueue q x).heldBays = d.heldBays := rfl
@[simp] theorem Dev.setQueue_bayFree (q : Nat) (x : Queue) : (d.setQueue q x).bayFree = d.bayFree := rfl
@[simp] theorem Dev.setQueue_tsAt (q : Nat) (x : Queue) : (d.setQueue q x).tsAt = d.tsAt := rfl
@[simp] theorem Dev.setQueue_tsStepped (q : Nat) (x : Queue) : (d.setQueue q x).tsStepped = d.tsStepped := rfl
@[simp] theorem Dev.setQueue_tsBad (q : Nat) (x : Queue) : (d.setQueue q x).tsBad = d.tsBad := rfl
@[simp] theorem Dev.setQueue_tsGood (q : Nat) (x : Queue) : (d.setQueue q x).tsGood = d.tsGood := rfl
@[simp] theorem Dev.setQueue_timeFrac (q : Nat) (x : Queue) : (d.setQueue q x).timeFrac = d.timeFrac := rfl
@[simp] theorem Dev.setQueue_collHeld (q : Nat) (x : Queue) : (d.setQueue q x).collHeld = d.collHeld := rfl
@[simp] theorem Dev.setQueue_out (q : Nat) (x : Queue) : (d.setQueue q x).out = d.out := rfl
@[simp] theorem Dev.setQueue_free (q : Nat) (x : Queue) : (d.setQueue q x).free = d.free := rfl

/-! ### Dev.setPeer -/

@[simp] theorem Dev.setPeer_time (i : Nat) (x : Peer) : (d.setPeer i x).time = d.time := rfl
@[simp] theorem Dev.setPeer_ticks (i : Nat) (x : Peer) : (d.setPeer i x).ticks = d.ticks := rfl
@[simp] theorem Dev.setPeer_tripped (i : Nat) (x : Peer) : (d.setPeer i x).tripped = d.tripped := rfl
@[simp] theorem Dev.setPeer_halted (i : Nat) (x : Peer) : (d.setPeer i x).halted = d.halted := rfl
@[simp] theorem Dev.setPeer_board (i : Nat) (x : Peer) : (d.setPeer i x).board = d.board := rfl
@[simp] theorem Dev.setPeer_pwr (i : Nat) (x : Peer) : (d.setPeer i x).pwr = d.pwr := rfl
@[simp] theorem Dev.setPeer_flash (i : Nat) (x : Peer) : (d.setPeer i x).flash = d.flash := rfl
@[simp] theorem Dev.setPeer_update (i : Nat) (x : Peer) : (d.setPeer i x).update = d.update := rfl
@[simp] theorem Dev.setPeer_modCauses (i : Nat) (x : Peer) : (d.setPeer i x).modCauses = d.modCauses := rfl
@[simp] theorem Dev.setPeer_i3cAddr (i : Nat) (x : Peer) : (d.setPeer i x).i3cAddr = d.i3cAddr := rfl
@[simp] theorem Dev.setPeer_taps (i : Nat) (x : Peer) : (d.setPeer i x).taps = d.taps := rfl
@[simp] theorem Dev.setPeer_measured (i : Nat) (x : Peer) : (d.setPeer i x).measured = d.measured := rfl
@[simp] theorem Dev.setPeer_spdmAlgs (i : Nat) (x : Peer) : (d.setPeer i x).spdmAlgs = d.spdmAlgs := rfl
@[simp] theorem Dev.setPeer_nonce (i : Nat) (x : Peer) : (d.setPeer i x).nonce = d.nonce := rfl
@[simp] theorem Dev.setPeer_dies (i : Nat) (x : Peer) : (d.setPeer i x).dies = d.dies := rfl
@[simp] theorem Dev.setPeer_benches (i : Nat) (x : Peer) : (d.setPeer i x).benches = d.benches := rfl
@[simp] theorem Dev.setPeer_regs (i : Nat) (x : Peer) : (d.setPeer i x).regs = d.regs := rfl
@[simp] theorem Dev.setPeer_fresh (i : Nat) (x : Peer) : (d.setPeer i x).fresh = d.fresh := rfl
@[simp] theorem Dev.setPeer_net (i : Nat) (x : Peer) : (d.setPeer i x).net = d.net := rfl
@[simp] theorem Dev.setPeer_clampDown (i : Nat) (x : Peer) : (d.setPeer i x).clampDown = d.clampDown := rfl
@[simp] theorem Dev.setPeer_spent (i : Nat) (x : Peer) : (d.setPeer i x).spent = d.spent := rfl
@[simp] theorem Dev.setPeer_reports (i : Nat) (x : Peer) : (d.setPeer i x).reports = d.reports := rfl
@[simp] theorem Dev.setPeer_caught (i : Nat) (x : Peer) : (d.setPeer i x).caught = d.caught := rfl
@[simp] theorem Dev.setPeer_mods (i : Nat) (x : Peer) : (d.setPeer i x).mods = d.mods := rfl
@[simp] theorem Dev.setPeer_modLists (i : Nat) (x : Peer) : (d.setPeer i x).modLists = d.modLists := rfl
@[simp] theorem Dev.setPeer_listPend (i : Nat) (x : Peer) : (d.setPeer i x).listPend = d.listPend := rfl
@[simp] theorem Dev.setPeer_reseat (i : Nat) (x : Peer) : (d.setPeer i x).reseat = d.reseat := rfl
@[simp] theorem Dev.setPeer_reseats (i : Nat) (x : Peer) : (d.setPeer i x).reseats = d.reseats := rfl
@[simp] theorem Dev.setPeer_queues (i : Nat) (x : Peer) : (d.setPeer i x).queues = d.queues := rfl
@[simp] theorem Dev.setPeer_slots (i : Nat) (x : Peer) : (d.setPeer i x).slots = d.slots := rfl
@[simp] theorem Dev.setPeer_starts (i : Nat) (x : Peer) : (d.setPeer i x).starts = d.starts := rfl
@[simp] theorem Dev.setPeer_kills (i : Nat) (x : Peer) : (d.setPeer i x).kills = d.kills := rfl
@[simp] theorem Dev.setPeer_phaseMarks (i : Nat) (x : Peer) : (d.setPeer i x).phaseMarks = d.phaseMarks := rfl
@[simp] theorem Dev.setPeer_quiesced (i : Nat) (x : Peer) : (d.setPeer i x).quiesced = d.quiesced := rfl
@[simp] theorem Dev.setPeer_returns (i : Nat) (x : Peer) : (d.setPeer i x).returns = d.returns := rfl
@[simp] theorem Dev.setPeer_quiet (i : Nat) (x : Peer) : (d.setPeer i x).quiet = d.quiet := rfl
@[simp] theorem Dev.setPeer_lineFault (i : Nat) (x : Peer) : (d.setPeer i x).lineFault = d.lineFault := rfl
@[simp] theorem Dev.setPeer_evlog (i : Nat) (x : Peer) : (d.setPeer i x).evlog = d.evlog := rfl
@[simp] theorem Dev.setPeer_evlogLast (i : Nat) (x : Peer) : (d.setPeer i x).evlogLast = d.evlogLast := rfl
@[simp] theorem Dev.setPeer_pldm (i : Nat) (x : Peer) : (d.setPeer i x).pldm = d.pldm := rfl
@[simp] theorem Dev.setPeer_hbm (i : Nat) (x : Peer) : (d.setPeer i x).hbm = d.hbm := rfl
@[simp] theorem Dev.setPeer_hbmPoison (i : Nat) (x : Peer) : (d.setPeer i x).hbmPoison = d.hbmPoison := rfl
@[simp] theorem Dev.setPeer_bays (i : Nat) (x : Peer) : (d.setPeer i x).bays = d.bays := rfl
@[simp] theorem Dev.setPeer_slices (i : Nat) (x : Peer) : (d.setPeer i x).slices = d.slices := rfl
@[simp] theorem Dev.setPeer_iodLines (i : Nat) (x : Peer) : (d.setPeer i x).iodLines = d.iodLines := rfl
@[simp] theorem Dev.setPeer_winFlush (i : Nat) (x : Peer) : (d.setPeer i x).winFlush = d.winFlush := rfl
@[simp] theorem Dev.setPeer_hbmStacks (i : Nat) (x : Peer) : (d.setPeer i x).hbmStacks = d.hbmStacks := rfl
@[simp] theorem Dev.setPeer_mirrors (i : Nat) (x : Peer) : (d.setPeer i x).mirrors = d.mirrors := rfl
@[simp] theorem Dev.setPeer_mirSentRem (i : Nat) (x : Peer) : (d.setPeer i x).mirSentRem = d.mirSentRem := rfl
@[simp] theorem Dev.setPeer_repairs (i : Nat) (x : Peer) : (d.setPeer i x).repairs = d.repairs := rfl
@[simp] theorem Dev.setPeer_fns (i : Nat) (x : Peer) : (d.setPeer i x).fns = d.fns := rfl
@[simp] theorem Dev.setPeer_numVfs (i : Nat) (x : Peer) : (d.setPeer i x).numVfs = d.numVfs := rfl
@[simp] theorem Dev.setPeer_vfEnable (i : Nat) (x : Peer) : (d.setPeer i x).vfEnable = d.vfEnable := rfl
@[simp] theorem Dev.setPeer_msix (i : Nat) (x : Peer) : (d.setPeer i x).msix = d.msix := rfl
@[simp] theorem Dev.setPeer_heldMsgs (i : Nat) (x : Peer) : (d.setPeer i x).heldMsgs = d.heldMsgs := rfl
@[simp] theorem Dev.setPeer_noticed (i : Nat) (x : Peer) : (d.setPeer i x).noticed = d.noticed := rfl
@[simp] theorem Dev.setPeer_cpTurn (i : Nat) (x : Peer) : (d.setPeer i x).cpTurn = d.cpTurn := rfl
@[simp] theorem Dev.setPeer_hostWait (i : Nat) (x : Peer) : (d.setPeer i x).hostWait = d.hostWait := rfl
@[simp] theorem Dev.setPeer_orphans (i : Nat) (x : Peer) : (d.setPeer i x).orphans = d.orphans := rfl
@[simp] theorem Dev.setPeer_ports (i : Nat) (x : Peer) : (d.setPeer i x).ports = d.ports := rfl
@[simp] theorem Dev.setPeer_fabReads (i : Nat) (x : Peer) : (d.setPeer i x).fabReads = d.fabReads := rfl
@[simp] theorem Dev.setPeer_nextTag (i : Nat) (x : Peer) : (d.setPeer i x).nextTag = d.nextTag := rfl
@[simp] theorem Dev.setPeer_heldBays (i : Nat) (x : Peer) : (d.setPeer i x).heldBays = d.heldBays := rfl
@[simp] theorem Dev.setPeer_bayFree (i : Nat) (x : Peer) : (d.setPeer i x).bayFree = d.bayFree := rfl
@[simp] theorem Dev.setPeer_tsAt (i : Nat) (x : Peer) : (d.setPeer i x).tsAt = d.tsAt := rfl
@[simp] theorem Dev.setPeer_tsStepped (i : Nat) (x : Peer) : (d.setPeer i x).tsStepped = d.tsStepped := rfl
@[simp] theorem Dev.setPeer_tsBad (i : Nat) (x : Peer) : (d.setPeer i x).tsBad = d.tsBad := rfl
@[simp] theorem Dev.setPeer_tsGood (i : Nat) (x : Peer) : (d.setPeer i x).tsGood = d.tsGood := rfl
@[simp] theorem Dev.setPeer_timeFrac (i : Nat) (x : Peer) : (d.setPeer i x).timeFrac = d.timeFrac := rfl
@[simp] theorem Dev.setPeer_collHeld (i : Nat) (x : Peer) : (d.setPeer i x).collHeld = d.collHeld := rfl
@[simp] theorem Dev.setPeer_out (i : Nat) (x : Peer) : (d.setPeer i x).out = d.out := rfl
@[simp] theorem Dev.setPeer_free (i : Nat) (x : Peer) : (d.setPeer i x).free = d.free := rfl

/-! ### Dev.setPort -/

@[simp] theorem Dev.setPort_time (p : Nat) (x : FabPort) : (d.setPort p x).time = d.time := rfl
@[simp] theorem Dev.setPort_ticks (p : Nat) (x : FabPort) : (d.setPort p x).ticks = d.ticks := rfl
@[simp] theorem Dev.setPort_tripped (p : Nat) (x : FabPort) : (d.setPort p x).tripped = d.tripped := rfl
@[simp] theorem Dev.setPort_halted (p : Nat) (x : FabPort) : (d.setPort p x).halted = d.halted := rfl
@[simp] theorem Dev.setPort_board (p : Nat) (x : FabPort) : (d.setPort p x).board = d.board := rfl
@[simp] theorem Dev.setPort_pwr (p : Nat) (x : FabPort) : (d.setPort p x).pwr = d.pwr := rfl
@[simp] theorem Dev.setPort_flash (p : Nat) (x : FabPort) : (d.setPort p x).flash = d.flash := rfl
@[simp] theorem Dev.setPort_update (p : Nat) (x : FabPort) : (d.setPort p x).update = d.update := rfl
@[simp] theorem Dev.setPort_modCauses (p : Nat) (x : FabPort) : (d.setPort p x).modCauses = d.modCauses := rfl
@[simp] theorem Dev.setPort_i3cAddr (p : Nat) (x : FabPort) : (d.setPort p x).i3cAddr = d.i3cAddr := rfl
@[simp] theorem Dev.setPort_taps (p : Nat) (x : FabPort) : (d.setPort p x).taps = d.taps := rfl
@[simp] theorem Dev.setPort_measured (p : Nat) (x : FabPort) : (d.setPort p x).measured = d.measured := rfl
@[simp] theorem Dev.setPort_spdmAlgs (p : Nat) (x : FabPort) : (d.setPort p x).spdmAlgs = d.spdmAlgs := rfl
@[simp] theorem Dev.setPort_nonce (p : Nat) (x : FabPort) : (d.setPort p x).nonce = d.nonce := rfl
@[simp] theorem Dev.setPort_dies (p : Nat) (x : FabPort) : (d.setPort p x).dies = d.dies := rfl
@[simp] theorem Dev.setPort_benches (p : Nat) (x : FabPort) : (d.setPort p x).benches = d.benches := rfl
@[simp] theorem Dev.setPort_regs (p : Nat) (x : FabPort) : (d.setPort p x).regs = d.regs := rfl
@[simp] theorem Dev.setPort_fresh (p : Nat) (x : FabPort) : (d.setPort p x).fresh = d.fresh := rfl
@[simp] theorem Dev.setPort_net (p : Nat) (x : FabPort) : (d.setPort p x).net = d.net := rfl
@[simp] theorem Dev.setPort_clampDown (p : Nat) (x : FabPort) : (d.setPort p x).clampDown = d.clampDown := rfl
@[simp] theorem Dev.setPort_spent (p : Nat) (x : FabPort) : (d.setPort p x).spent = d.spent := rfl
@[simp] theorem Dev.setPort_reports (p : Nat) (x : FabPort) : (d.setPort p x).reports = d.reports := rfl
@[simp] theorem Dev.setPort_caught (p : Nat) (x : FabPort) : (d.setPort p x).caught = d.caught := rfl
@[simp] theorem Dev.setPort_mods (p : Nat) (x : FabPort) : (d.setPort p x).mods = d.mods := rfl
@[simp] theorem Dev.setPort_modLists (p : Nat) (x : FabPort) : (d.setPort p x).modLists = d.modLists := rfl
@[simp] theorem Dev.setPort_listPend (p : Nat) (x : FabPort) : (d.setPort p x).listPend = d.listPend := rfl
@[simp] theorem Dev.setPort_reseat (p : Nat) (x : FabPort) : (d.setPort p x).reseat = d.reseat := rfl
@[simp] theorem Dev.setPort_reseats (p : Nat) (x : FabPort) : (d.setPort p x).reseats = d.reseats := rfl
@[simp] theorem Dev.setPort_queues (p : Nat) (x : FabPort) : (d.setPort p x).queues = d.queues := rfl
@[simp] theorem Dev.setPort_slots (p : Nat) (x : FabPort) : (d.setPort p x).slots = d.slots := rfl
@[simp] theorem Dev.setPort_starts (p : Nat) (x : FabPort) : (d.setPort p x).starts = d.starts := rfl
@[simp] theorem Dev.setPort_kills (p : Nat) (x : FabPort) : (d.setPort p x).kills = d.kills := rfl
@[simp] theorem Dev.setPort_phaseMarks (p : Nat) (x : FabPort) : (d.setPort p x).phaseMarks = d.phaseMarks := rfl
@[simp] theorem Dev.setPort_quiesced (p : Nat) (x : FabPort) : (d.setPort p x).quiesced = d.quiesced := rfl
@[simp] theorem Dev.setPort_returns (p : Nat) (x : FabPort) : (d.setPort p x).returns = d.returns := rfl
@[simp] theorem Dev.setPort_quiet (p : Nat) (x : FabPort) : (d.setPort p x).quiet = d.quiet := rfl
@[simp] theorem Dev.setPort_lineFault (p : Nat) (x : FabPort) : (d.setPort p x).lineFault = d.lineFault := rfl
@[simp] theorem Dev.setPort_evlog (p : Nat) (x : FabPort) : (d.setPort p x).evlog = d.evlog := rfl
@[simp] theorem Dev.setPort_evlogLast (p : Nat) (x : FabPort) : (d.setPort p x).evlogLast = d.evlogLast := rfl
@[simp] theorem Dev.setPort_pldm (p : Nat) (x : FabPort) : (d.setPort p x).pldm = d.pldm := rfl
@[simp] theorem Dev.setPort_hbm (p : Nat) (x : FabPort) : (d.setPort p x).hbm = d.hbm := rfl
@[simp] theorem Dev.setPort_hbmPoison (p : Nat) (x : FabPort) : (d.setPort p x).hbmPoison = d.hbmPoison := rfl
@[simp] theorem Dev.setPort_bays (p : Nat) (x : FabPort) : (d.setPort p x).bays = d.bays := rfl
@[simp] theorem Dev.setPort_slices (p : Nat) (x : FabPort) : (d.setPort p x).slices = d.slices := rfl
@[simp] theorem Dev.setPort_iodLines (p : Nat) (x : FabPort) : (d.setPort p x).iodLines = d.iodLines := rfl
@[simp] theorem Dev.setPort_winFlush (p : Nat) (x : FabPort) : (d.setPort p x).winFlush = d.winFlush := rfl
@[simp] theorem Dev.setPort_hbmStacks (p : Nat) (x : FabPort) : (d.setPort p x).hbmStacks = d.hbmStacks := rfl
@[simp] theorem Dev.setPort_mirrors (p : Nat) (x : FabPort) : (d.setPort p x).mirrors = d.mirrors := rfl
@[simp] theorem Dev.setPort_mirSentRem (p : Nat) (x : FabPort) : (d.setPort p x).mirSentRem = d.mirSentRem := rfl
@[simp] theorem Dev.setPort_repairs (p : Nat) (x : FabPort) : (d.setPort p x).repairs = d.repairs := rfl
@[simp] theorem Dev.setPort_fns (p : Nat) (x : FabPort) : (d.setPort p x).fns = d.fns := rfl
@[simp] theorem Dev.setPort_numVfs (p : Nat) (x : FabPort) : (d.setPort p x).numVfs = d.numVfs := rfl
@[simp] theorem Dev.setPort_vfEnable (p : Nat) (x : FabPort) : (d.setPort p x).vfEnable = d.vfEnable := rfl
@[simp] theorem Dev.setPort_msix (p : Nat) (x : FabPort) : (d.setPort p x).msix = d.msix := rfl
@[simp] theorem Dev.setPort_heldMsgs (p : Nat) (x : FabPort) : (d.setPort p x).heldMsgs = d.heldMsgs := rfl
@[simp] theorem Dev.setPort_noticed (p : Nat) (x : FabPort) : (d.setPort p x).noticed = d.noticed := rfl
@[simp] theorem Dev.setPort_cpTurn (p : Nat) (x : FabPort) : (d.setPort p x).cpTurn = d.cpTurn := rfl
@[simp] theorem Dev.setPort_hostWait (p : Nat) (x : FabPort) : (d.setPort p x).hostWait = d.hostWait := rfl
@[simp] theorem Dev.setPort_orphans (p : Nat) (x : FabPort) : (d.setPort p x).orphans = d.orphans := rfl
@[simp] theorem Dev.setPort_peers (p : Nat) (x : FabPort) : (d.setPort p x).peers = d.peers := rfl
@[simp] theorem Dev.setPort_fabReads (p : Nat) (x : FabPort) : (d.setPort p x).fabReads = d.fabReads := rfl
@[simp] theorem Dev.setPort_nextTag (p : Nat) (x : FabPort) : (d.setPort p x).nextTag = d.nextTag := rfl
@[simp] theorem Dev.setPort_heldBays (p : Nat) (x : FabPort) : (d.setPort p x).heldBays = d.heldBays := rfl
@[simp] theorem Dev.setPort_bayFree (p : Nat) (x : FabPort) : (d.setPort p x).bayFree = d.bayFree := rfl
@[simp] theorem Dev.setPort_tsAt (p : Nat) (x : FabPort) : (d.setPort p x).tsAt = d.tsAt := rfl
@[simp] theorem Dev.setPort_tsStepped (p : Nat) (x : FabPort) : (d.setPort p x).tsStepped = d.tsStepped := rfl
@[simp] theorem Dev.setPort_tsBad (p : Nat) (x : FabPort) : (d.setPort p x).tsBad = d.tsBad := rfl
@[simp] theorem Dev.setPort_tsGood (p : Nat) (x : FabPort) : (d.setPort p x).tsGood = d.tsGood := rfl
@[simp] theorem Dev.setPort_timeFrac (p : Nat) (x : FabPort) : (d.setPort p x).timeFrac = d.timeFrac := rfl
@[simp] theorem Dev.setPort_collHeld (p : Nat) (x : FabPort) : (d.setPort p x).collHeld = d.collHeld := rfl
@[simp] theorem Dev.setPort_out (p : Nat) (x : FabPort) : (d.setPort p x).out = d.out := rfl
@[simp] theorem Dev.setPort_free (p : Nat) (x : FabPort) : (d.setPort p x).free = d.free := rfl

/-! ### Dev.setMir -/

@[simp] theorem Dev.setMir_time (w : Nat) (x : MirWin) : (d.setMir w x).time = d.time := rfl
@[simp] theorem Dev.setMir_ticks (w : Nat) (x : MirWin) : (d.setMir w x).ticks = d.ticks := rfl
@[simp] theorem Dev.setMir_tripped (w : Nat) (x : MirWin) : (d.setMir w x).tripped = d.tripped := rfl
@[simp] theorem Dev.setMir_halted (w : Nat) (x : MirWin) : (d.setMir w x).halted = d.halted := rfl
@[simp] theorem Dev.setMir_board (w : Nat) (x : MirWin) : (d.setMir w x).board = d.board := rfl
@[simp] theorem Dev.setMir_pwr (w : Nat) (x : MirWin) : (d.setMir w x).pwr = d.pwr := rfl
@[simp] theorem Dev.setMir_flash (w : Nat) (x : MirWin) : (d.setMir w x).flash = d.flash := rfl
@[simp] theorem Dev.setMir_update (w : Nat) (x : MirWin) : (d.setMir w x).update = d.update := rfl
@[simp] theorem Dev.setMir_modCauses (w : Nat) (x : MirWin) : (d.setMir w x).modCauses = d.modCauses := rfl
@[simp] theorem Dev.setMir_i3cAddr (w : Nat) (x : MirWin) : (d.setMir w x).i3cAddr = d.i3cAddr := rfl
@[simp] theorem Dev.setMir_taps (w : Nat) (x : MirWin) : (d.setMir w x).taps = d.taps := rfl
@[simp] theorem Dev.setMir_measured (w : Nat) (x : MirWin) : (d.setMir w x).measured = d.measured := rfl
@[simp] theorem Dev.setMir_spdmAlgs (w : Nat) (x : MirWin) : (d.setMir w x).spdmAlgs = d.spdmAlgs := rfl
@[simp] theorem Dev.setMir_nonce (w : Nat) (x : MirWin) : (d.setMir w x).nonce = d.nonce := rfl
@[simp] theorem Dev.setMir_dies (w : Nat) (x : MirWin) : (d.setMir w x).dies = d.dies := rfl
@[simp] theorem Dev.setMir_benches (w : Nat) (x : MirWin) : (d.setMir w x).benches = d.benches := rfl
@[simp] theorem Dev.setMir_regs (w : Nat) (x : MirWin) : (d.setMir w x).regs = d.regs := rfl
@[simp] theorem Dev.setMir_fresh (w : Nat) (x : MirWin) : (d.setMir w x).fresh = d.fresh := rfl
@[simp] theorem Dev.setMir_net (w : Nat) (x : MirWin) : (d.setMir w x).net = d.net := rfl
@[simp] theorem Dev.setMir_clampDown (w : Nat) (x : MirWin) : (d.setMir w x).clampDown = d.clampDown := rfl
@[simp] theorem Dev.setMir_spent (w : Nat) (x : MirWin) : (d.setMir w x).spent = d.spent := rfl
@[simp] theorem Dev.setMir_reports (w : Nat) (x : MirWin) : (d.setMir w x).reports = d.reports := rfl
@[simp] theorem Dev.setMir_caught (w : Nat) (x : MirWin) : (d.setMir w x).caught = d.caught := rfl
@[simp] theorem Dev.setMir_mods (w : Nat) (x : MirWin) : (d.setMir w x).mods = d.mods := rfl
@[simp] theorem Dev.setMir_modLists (w : Nat) (x : MirWin) : (d.setMir w x).modLists = d.modLists := rfl
@[simp] theorem Dev.setMir_listPend (w : Nat) (x : MirWin) : (d.setMir w x).listPend = d.listPend := rfl
@[simp] theorem Dev.setMir_reseat (w : Nat) (x : MirWin) : (d.setMir w x).reseat = d.reseat := rfl
@[simp] theorem Dev.setMir_reseats (w : Nat) (x : MirWin) : (d.setMir w x).reseats = d.reseats := rfl
@[simp] theorem Dev.setMir_queues (w : Nat) (x : MirWin) : (d.setMir w x).queues = d.queues := rfl
@[simp] theorem Dev.setMir_slots (w : Nat) (x : MirWin) : (d.setMir w x).slots = d.slots := rfl
@[simp] theorem Dev.setMir_starts (w : Nat) (x : MirWin) : (d.setMir w x).starts = d.starts := rfl
@[simp] theorem Dev.setMir_kills (w : Nat) (x : MirWin) : (d.setMir w x).kills = d.kills := rfl
@[simp] theorem Dev.setMir_phaseMarks (w : Nat) (x : MirWin) : (d.setMir w x).phaseMarks = d.phaseMarks := rfl
@[simp] theorem Dev.setMir_quiesced (w : Nat) (x : MirWin) : (d.setMir w x).quiesced = d.quiesced := rfl
@[simp] theorem Dev.setMir_returns (w : Nat) (x : MirWin) : (d.setMir w x).returns = d.returns := rfl
@[simp] theorem Dev.setMir_quiet (w : Nat) (x : MirWin) : (d.setMir w x).quiet = d.quiet := rfl
@[simp] theorem Dev.setMir_lineFault (w : Nat) (x : MirWin) : (d.setMir w x).lineFault = d.lineFault := rfl
@[simp] theorem Dev.setMir_evlog (w : Nat) (x : MirWin) : (d.setMir w x).evlog = d.evlog := rfl
@[simp] theorem Dev.setMir_evlogLast (w : Nat) (x : MirWin) : (d.setMir w x).evlogLast = d.evlogLast := rfl
@[simp] theorem Dev.setMir_pldm (w : Nat) (x : MirWin) : (d.setMir w x).pldm = d.pldm := rfl
@[simp] theorem Dev.setMir_hbm (w : Nat) (x : MirWin) : (d.setMir w x).hbm = d.hbm := rfl
@[simp] theorem Dev.setMir_hbmPoison (w : Nat) (x : MirWin) : (d.setMir w x).hbmPoison = d.hbmPoison := rfl
@[simp] theorem Dev.setMir_bays (w : Nat) (x : MirWin) : (d.setMir w x).bays = d.bays := rfl
@[simp] theorem Dev.setMir_slices (w : Nat) (x : MirWin) : (d.setMir w x).slices = d.slices := rfl
@[simp] theorem Dev.setMir_iodLines (w : Nat) (x : MirWin) : (d.setMir w x).iodLines = d.iodLines := rfl
@[simp] theorem Dev.setMir_winFlush (w : Nat) (x : MirWin) : (d.setMir w x).winFlush = d.winFlush := rfl
@[simp] theorem Dev.setMir_hbmStacks (w : Nat) (x : MirWin) : (d.setMir w x).hbmStacks = d.hbmStacks := rfl
@[simp] theorem Dev.setMir_mirSentRem (w : Nat) (x : MirWin) : (d.setMir w x).mirSentRem = d.mirSentRem := rfl
@[simp] theorem Dev.setMir_repairs (w : Nat) (x : MirWin) : (d.setMir w x).repairs = d.repairs := rfl
@[simp] theorem Dev.setMir_fns (w : Nat) (x : MirWin) : (d.setMir w x).fns = d.fns := rfl
@[simp] theorem Dev.setMir_numVfs (w : Nat) (x : MirWin) : (d.setMir w x).numVfs = d.numVfs := rfl
@[simp] theorem Dev.setMir_vfEnable (w : Nat) (x : MirWin) : (d.setMir w x).vfEnable = d.vfEnable := rfl
@[simp] theorem Dev.setMir_msix (w : Nat) (x : MirWin) : (d.setMir w x).msix = d.msix := rfl
@[simp] theorem Dev.setMir_heldMsgs (w : Nat) (x : MirWin) : (d.setMir w x).heldMsgs = d.heldMsgs := rfl
@[simp] theorem Dev.setMir_noticed (w : Nat) (x : MirWin) : (d.setMir w x).noticed = d.noticed := rfl
@[simp] theorem Dev.setMir_cpTurn (w : Nat) (x : MirWin) : (d.setMir w x).cpTurn = d.cpTurn := rfl
@[simp] theorem Dev.setMir_hostWait (w : Nat) (x : MirWin) : (d.setMir w x).hostWait = d.hostWait := rfl
@[simp] theorem Dev.setMir_orphans (w : Nat) (x : MirWin) : (d.setMir w x).orphans = d.orphans := rfl
@[simp] theorem Dev.setMir_peers (w : Nat) (x : MirWin) : (d.setMir w x).peers = d.peers := rfl
@[simp] theorem Dev.setMir_ports (w : Nat) (x : MirWin) : (d.setMir w x).ports = d.ports := rfl
@[simp] theorem Dev.setMir_fabReads (w : Nat) (x : MirWin) : (d.setMir w x).fabReads = d.fabReads := rfl
@[simp] theorem Dev.setMir_nextTag (w : Nat) (x : MirWin) : (d.setMir w x).nextTag = d.nextTag := rfl
@[simp] theorem Dev.setMir_heldBays (w : Nat) (x : MirWin) : (d.setMir w x).heldBays = d.heldBays := rfl
@[simp] theorem Dev.setMir_bayFree (w : Nat) (x : MirWin) : (d.setMir w x).bayFree = d.bayFree := rfl
@[simp] theorem Dev.setMir_tsAt (w : Nat) (x : MirWin) : (d.setMir w x).tsAt = d.tsAt := rfl
@[simp] theorem Dev.setMir_tsStepped (w : Nat) (x : MirWin) : (d.setMir w x).tsStepped = d.tsStepped := rfl
@[simp] theorem Dev.setMir_tsBad (w : Nat) (x : MirWin) : (d.setMir w x).tsBad = d.tsBad := rfl
@[simp] theorem Dev.setMir_tsGood (w : Nat) (x : MirWin) : (d.setMir w x).tsGood = d.tsGood := rfl
@[simp] theorem Dev.setMir_timeFrac (w : Nat) (x : MirWin) : (d.setMir w x).timeFrac = d.timeFrac := rfl
@[simp] theorem Dev.setMir_collHeld (w : Nat) (x : MirWin) : (d.setMir w x).collHeld = d.collHeld := rfl
@[simp] theorem Dev.setMir_out (w : Nat) (x : MirWin) : (d.setMir w x).out = d.out := rfl
@[simp] theorem Dev.setMir_free (w : Nat) (x : MirWin) : (d.setMir w x).free = d.free := rfl

/-! ### Dev.tickFree -/

@[simp] theorem Dev.tickFree_time : (d.tickFree).time = d.time := rfl
@[simp] theorem Dev.tickFree_ticks : (d.tickFree).ticks = d.ticks := rfl
@[simp] theorem Dev.tickFree_tripped : (d.tickFree).tripped = d.tripped := rfl
@[simp] theorem Dev.tickFree_halted : (d.tickFree).halted = d.halted := rfl
@[simp] theorem Dev.tickFree_board : (d.tickFree).board = d.board := rfl
@[simp] theorem Dev.tickFree_pwr : (d.tickFree).pwr = d.pwr := rfl
@[simp] theorem Dev.tickFree_flash : (d.tickFree).flash = d.flash := rfl
@[simp] theorem Dev.tickFree_update : (d.tickFree).update = d.update := rfl
@[simp] theorem Dev.tickFree_modCauses : (d.tickFree).modCauses = d.modCauses := rfl
@[simp] theorem Dev.tickFree_i3cAddr : (d.tickFree).i3cAddr = d.i3cAddr := rfl
@[simp] theorem Dev.tickFree_taps : (d.tickFree).taps = d.taps := rfl
@[simp] theorem Dev.tickFree_measured : (d.tickFree).measured = d.measured := rfl
@[simp] theorem Dev.tickFree_spdmAlgs : (d.tickFree).spdmAlgs = d.spdmAlgs := rfl
@[simp] theorem Dev.tickFree_nonce : (d.tickFree).nonce = d.nonce := rfl
@[simp] theorem Dev.tickFree_dies : (d.tickFree).dies = d.dies := rfl
@[simp] theorem Dev.tickFree_benches : (d.tickFree).benches = d.benches := rfl
@[simp] theorem Dev.tickFree_regs : (d.tickFree).regs = d.regs := rfl
@[simp] theorem Dev.tickFree_fresh : (d.tickFree).fresh = d.fresh := rfl
@[simp] theorem Dev.tickFree_net : (d.tickFree).net = d.net := rfl
@[simp] theorem Dev.tickFree_clampDown : (d.tickFree).clampDown = d.clampDown := rfl
@[simp] theorem Dev.tickFree_spent : (d.tickFree).spent = d.spent := rfl
@[simp] theorem Dev.tickFree_reports : (d.tickFree).reports = d.reports := rfl
@[simp] theorem Dev.tickFree_caught : (d.tickFree).caught = d.caught := rfl
@[simp] theorem Dev.tickFree_mods : (d.tickFree).mods = d.mods := rfl
@[simp] theorem Dev.tickFree_modLists : (d.tickFree).modLists = d.modLists := rfl
@[simp] theorem Dev.tickFree_listPend : (d.tickFree).listPend = d.listPend := rfl
@[simp] theorem Dev.tickFree_reseat : (d.tickFree).reseat = d.reseat := rfl
@[simp] theorem Dev.tickFree_reseats : (d.tickFree).reseats = d.reseats := rfl
@[simp] theorem Dev.tickFree_queues : (d.tickFree).queues = d.queues := rfl
@[simp] theorem Dev.tickFree_slots : (d.tickFree).slots = d.slots := rfl
@[simp] theorem Dev.tickFree_starts : (d.tickFree).starts = d.starts := rfl
@[simp] theorem Dev.tickFree_kills : (d.tickFree).kills = d.kills := rfl
@[simp] theorem Dev.tickFree_phaseMarks : (d.tickFree).phaseMarks = d.phaseMarks := rfl
@[simp] theorem Dev.tickFree_quiesced : (d.tickFree).quiesced = d.quiesced := rfl
@[simp] theorem Dev.tickFree_returns : (d.tickFree).returns = d.returns := rfl
@[simp] theorem Dev.tickFree_quiet : (d.tickFree).quiet = d.quiet := rfl
@[simp] theorem Dev.tickFree_lineFault : (d.tickFree).lineFault = d.lineFault := rfl
@[simp] theorem Dev.tickFree_evlog : (d.tickFree).evlog = d.evlog := rfl
@[simp] theorem Dev.tickFree_evlogLast : (d.tickFree).evlogLast = d.evlogLast := rfl
@[simp] theorem Dev.tickFree_pldm : (d.tickFree).pldm = d.pldm := rfl
@[simp] theorem Dev.tickFree_hbm : (d.tickFree).hbm = d.hbm := rfl
@[simp] theorem Dev.tickFree_hbmPoison : (d.tickFree).hbmPoison = d.hbmPoison := rfl
@[simp] theorem Dev.tickFree_bays : (d.tickFree).bays = d.bays := rfl
@[simp] theorem Dev.tickFree_slices : (d.tickFree).slices = d.slices := rfl
@[simp] theorem Dev.tickFree_iodLines : (d.tickFree).iodLines = d.iodLines := rfl
@[simp] theorem Dev.tickFree_winFlush : (d.tickFree).winFlush = d.winFlush := rfl
@[simp] theorem Dev.tickFree_hbmStacks : (d.tickFree).hbmStacks = d.hbmStacks := rfl
@[simp] theorem Dev.tickFree_mirrors : (d.tickFree).mirrors = d.mirrors := rfl
@[simp] theorem Dev.tickFree_mirSentRem : (d.tickFree).mirSentRem = d.mirSentRem := rfl
@[simp] theorem Dev.tickFree_repairs : (d.tickFree).repairs = d.repairs := rfl
@[simp] theorem Dev.tickFree_fns : (d.tickFree).fns = d.fns := rfl
@[simp] theorem Dev.tickFree_numVfs : (d.tickFree).numVfs = d.numVfs := rfl
@[simp] theorem Dev.tickFree_vfEnable : (d.tickFree).vfEnable = d.vfEnable := rfl
@[simp] theorem Dev.tickFree_msix : (d.tickFree).msix = d.msix := rfl
@[simp] theorem Dev.tickFree_heldMsgs : (d.tickFree).heldMsgs = d.heldMsgs := rfl
@[simp] theorem Dev.tickFree_noticed : (d.tickFree).noticed = d.noticed := rfl
@[simp] theorem Dev.tickFree_cpTurn : (d.tickFree).cpTurn = d.cpTurn := rfl
@[simp] theorem Dev.tickFree_hostWait : (d.tickFree).hostWait = d.hostWait := rfl
@[simp] theorem Dev.tickFree_orphans : (d.tickFree).orphans = d.orphans := rfl
@[simp] theorem Dev.tickFree_peers : (d.tickFree).peers = d.peers := rfl
@[simp] theorem Dev.tickFree_ports : (d.tickFree).ports = d.ports := rfl
@[simp] theorem Dev.tickFree_fabReads : (d.tickFree).fabReads = d.fabReads := rfl
@[simp] theorem Dev.tickFree_nextTag : (d.tickFree).nextTag = d.nextTag := rfl
@[simp] theorem Dev.tickFree_heldBays : (d.tickFree).heldBays = d.heldBays := rfl
@[simp] theorem Dev.tickFree_bayFree : (d.tickFree).bayFree = d.bayFree := rfl
@[simp] theorem Dev.tickFree_tsAt : (d.tickFree).tsAt = d.tsAt := rfl
@[simp] theorem Dev.tickFree_tsStepped : (d.tickFree).tsStepped = d.tsStepped := rfl
@[simp] theorem Dev.tickFree_tsBad : (d.tickFree).tsBad = d.tsBad := rfl
@[simp] theorem Dev.tickFree_tsGood : (d.tickFree).tsGood = d.tsGood := rfl
@[simp] theorem Dev.tickFree_timeFrac : (d.tickFree).timeFrac = d.timeFrac := rfl
@[simp] theorem Dev.tickFree_collHeld : (d.tickFree).collHeld = d.collHeld := rfl
@[simp] theorem Dev.tickFree_out : (d.tickFree).out = d.out := rfl

/-! ### Reads after writes -/

@[simp] theorem Dev.reg_setReg (r : RegName) (ix : List Nat) (v : W32) : (d.setReg r ix v).reg r ix = v := by
  simp [Dev.reg, Dev.setReg]

/-- A write of one register leaves every register at another offset alone. -/
theorem Dev.reg_setReg_other {r q : RegName} {ix jx : List Nat} (h : q.addr jx ≠ r.addr ix) (v : W32) :
    (d.setReg r ix v).reg q jx = d.reg q jx := by
  simp [Dev.reg, Dev.setReg, SMap.getD_set_other _ h]

@[simp] theorem Dev.bench_setBench (i : Nat) (x : Bench) : (d.setBench i x).bench i = x := by
  simp [Dev.bench, Dev.setBench]

theorem Dev.bench_setBench_other {i j : Nat} (h : j ≠ i) (x : Bench) : (d.setBench i x).bench j = d.bench j := by
  simp [Dev.bench, Dev.setBench, SMap.getD_set_other _ h]

@[simp] theorem Dev.die_setDie (i : Nat) (x : Die) : (d.setDie i x).die i = x := by
  simp [Dev.die, Dev.setDie]

theorem Dev.die_setDie_other {i j : Nat} (h : j ≠ i) (x : Die) : (d.setDie i x).die j = d.die j := by
  simp [Dev.die, Dev.setDie, SMap.getD_set_other _ h]

@[simp] theorem Dev.queue_setQueue (q : Nat) (x : Queue) : (d.setQueue q x).queue q = x := by
  simp [Dev.queue, Dev.setQueue]

@[simp] theorem Dev.port_setPort (p : Nat) (x : FabPort) : (d.setPort p x).port p = x := by
  simp [Dev.port, Dev.setPort]

@[simp] theorem Dev.peer_setPeer (i : Nat) (x : Peer) : (d.setPeer i x).peer i = x := by
  simp [Dev.peer, Dev.setPeer]

@[simp] theorem Dev.fn_setFn (f : Nat) (x : HostFn) : (d.setFn f x).fn f = x := by
  simp [Dev.fn, Dev.setFn]

/-! ### Commands -/

/-- A command of the running device changes only the device, by its effect. -/
theorem State.runLive_live {s : State} (f : Dev → Dev) (h : s.dev.live = true) : s.runLive f = .next { s with dev := f s.dev } := by
  simp [State.runLive, State.run, h]

/-- Nothing happens while the device does not run. -/
theorem State.runLive_dead {s : State} (f : Dev → Dev) (h : s.dev.live = false) : s.runLive f = .next s := by
  simp [State.runLive, State.run, h]

theorem State.runOn_on {s : State} (f : Dev → Dev) (h : s.dev.on = true) : s.runOn f = .next { s with dev := f s.dev } := by
  simp [State.runOn, State.run, h]

theorem State.runOn_off {s : State} (f : Dev → Dev) (h : s.dev.on = false) : s.runOn f = .next s := by
  simp [State.runOn, State.run, h]

theorem State.run_next (s : State) (f : Dev → Dev) : s.run f = .next { s with dev := f s.dev } := rfl

end Sys2Proof.Machine
end

