-- ==== Sys2Proof/Laws/Access.lean ====
section
/-! SUPPORT. Reading back what a named part of the device was set to, and the other parts of its kind. -/

namespace Sys2Proof.Machine

variable (d : Dev)

@[simp] theorem Dev.bay_setBay (y : Nat) (x : Bay) : (d.setBay y x).bay y = x := SMap.getD_set_same _ _ _ _
theorem Dev.bay_setBay_other {y z : Nat} (h : z ≠ y) (x : Bay) : (d.setBay y x).bay z = d.bay z := SMap.getD_set_other _ h _ _
@[simp] theorem Dev.slice_setSlice (q : Nat) (x : Slice) : (d.setSlice q x).slice q = x := SMap.getD_set_same _ _ _ _
theorem Dev.slice_setSlice_other {q z : Nat} (h : z ≠ q) (x : Slice) : (d.setSlice q x).slice z = d.slice z := SMap.getD_set_other _ h _ _
theorem Dev.queue_setQueue_other {q z : Nat} (h : z ≠ q) (x : Queue) : (d.setQueue q x).queue z = d.queue z := SMap.getD_set_other _ h _ _
theorem Dev.fn_setFn_other {f g : Nat} (h : g ≠ f) (x : HostFn) : (d.setFn f x).fn g = d.fn g := SMap.getD_set_other _ h _ _
@[simp] theorem Dev.mir_setMir (w : Nat) (x : MirWin) : (d.setMir w x).mir w = x := SMap.getD_set_same _ _ _ _
theorem Dev.mir_setMir_other {w v : Nat} (h : v ≠ w) (x : MirWin) : (d.setMir w x).mir v = d.mir v := SMap.getD_set_other _ h _ _
theorem Dev.peer_setPeer_other {i j : Nat} (h : j ≠ i) (x : Peer) : (d.setPeer i x).peer j = d.peer j := SMap.getD_set_other _ h _ _
theorem Dev.port_setPort_other {p k : Nat} (h : k ≠ p) (x : FabPort) : (d.setPort p x).port k = d.port k := SMap.getD_set_other _ h _ _

/-- The stream that was set reads back, and the other one stays (R376). -/
@[simp] theorem Peer.stream_setStream (p : Peer) (c : Bool) (s : Stream) : (p.setStream c s).stream c = s := by cases c <;> rfl
@[simp] theorem Peer.stream_setStream_not (p : Peer) (c : Bool) (s : Stream) : (p.setStream c s).stream (!c) = p.stream (!c) := by cases c <;> rfl

end Sys2Proof.Machine
end

