-- ==== Sys2Proof/Laws/Bits.lean ====
section
/-! SUPPORT. The laws of bit fields: what a field reads after a write of it or of another one. -/

namespace Sys2Proof

/-- A number is its part above a bit position and its part below. -/
theorem nput_eq {w hi lo v : Nat} (h : lo ≤ hi + 1) :
    nput w hi lo v = (w >>> (hi + 1)) * 2 ^ (hi + 1) + (v % 2 ^ (hi + 1 - lo)) * 2 ^ lo + w % 2 ^ lo := by
  have e : (2 : Nat) ^ (hi + 1) = 2 ^ (hi + 1 - lo) * 2 ^ lo := by rw [← Nat.pow_add]; congr 1; omega
  simp only [nput, nfld, Nat.shiftLeft_eq, Nat.shiftRight_eq_div_pow]
  rw [e]
  have h1 : w = w / 2 ^ lo * 2 ^ lo + w % 2 ^ lo := by rw [Nat.mul_comm]; exact (Nat.div_add_mod w _).symm
  have h2 : w / 2 ^ lo = w / 2 ^ lo / 2 ^ (hi + 1 - lo) * 2 ^ (hi + 1 - lo) + w / 2 ^ lo % 2 ^ (hi + 1 - lo) := by
    rw [Nat.mul_comm]; exact (Nat.div_add_mod _ _).symm
  have h3 : w / (2 ^ (hi + 1 - lo) * 2 ^ lo) = w / 2 ^ lo / 2 ^ (hi + 1 - lo) := by
    rw [Nat.mul_comm, Nat.div_div_eq_div_mul]
  rw [h3]
  generalize w / 2 ^ lo % 2 ^ (hi + 1 - lo) = b at *
  generalize w / 2 ^ lo / 2 ^ (hi + 1 - lo) = a at *
  generalize hc : w % 2 ^ lo = c at *
  have : w = (a * 2 ^ (hi + 1 - lo) + b) * 2 ^ lo + c := by rw [← h2]; exact h1
  have : w = a * (2 ^ (hi + 1 - lo) * 2 ^ lo) + b * 2 ^ lo + c := by rw [this]; ring
  omega

/-- Bit `i` of a number with a field replaced. -/
theorem testBit_nput {w hi lo v : Nat} (h : lo ≤ hi + 1) (i : Nat) :
    (nput w hi lo v).testBit i = if lo ≤ i ∧ i ≤ hi then v.testBit (i - lo) else w.testBit i := by
  rw [nput_eq h]
  have hlow : w % 2 ^ lo < 2 ^ lo := Nat.mod_lt _ (Nat.two_pow_pos _)
  have hv : v % 2 ^ (hi + 1 - lo) < 2 ^ (hi + 1 - lo) := Nat.mod_lt _ (Nat.two_pow_pos _)
  have e : (2 : Nat) ^ (hi + 1) = 2 ^ (hi + 1 - lo) * 2 ^ lo := by rw [← Nat.pow_add]; congr 1; omega
  have hmid : v % 2 ^ (hi + 1 - lo) * 2 ^ lo + w % 2 ^ lo < 2 ^ (hi + 1) := by
    rw [e]
    calc v % 2 ^ (hi + 1 - lo) * 2 ^ lo + w % 2 ^ lo < v % 2 ^ (hi + 1 - lo) * 2 ^ lo + 2 ^ lo := by omega
      _ = (v % 2 ^ (hi + 1 - lo) + 1) * 2 ^ lo := by ring
      _ ≤ 2 ^ (hi + 1 - lo) * 2 ^ lo := Nat.mul_le_mul_right _ hv
  have r : w >>> (hi + 1) * 2 ^ (hi + 1) + v % 2 ^ (hi + 1 - lo) * 2 ^ lo + w % 2 ^ lo =
      2 ^ (hi + 1) * (w >>> (hi + 1)) + (2 ^ lo * (v % 2 ^ (hi + 1 - lo)) + w % 2 ^ lo) := by ring
  have hmid' : 2 ^ lo * (v % 2 ^ (hi + 1 - lo)) + w % 2 ^ lo < 2 ^ (hi + 1) := by rw [Nat.mul_comm]; exact hmid
  rw [r, Nat.testBit_two_pow_mul_add _ hmid', Nat.testBit_two_pow_mul_add _ hlow]
  simp only [Nat.testBit_mod_two_pow, Nat.testBit_shiftRight]
  by_cases h1 : i < hi + 1
  · by_cases h2 : i < lo
    · have : ¬(lo ≤ i ∧ i ≤ hi) := by omega
      simp [h1, h2, this]
    · have h3 : lo ≤ i ∧ i ≤ hi := by omega
      have h4 : i - lo < hi + 1 - lo := by omega
      simp [h1, h2, h3, h4]
  · have h3 : ¬(lo ≤ i ∧ i ≤ hi) := by omega
    have h4 : hi + 1 + (i - (hi + 1)) = i := by omega
    simp [h1, h3, h4]

/-- Bit `i` of a word with a field replaced. -/
theorem getLsbD_setFld {n : Nat} (w : BitVec n) {hi lo : Nat} (h : lo ≤ hi + 1) (v i : Nat) (hi' : i < n) :
    (setFld w hi lo v).getLsbD i = if lo ≤ i ∧ i ≤ hi then v.testBit (i - lo) else w.getLsbD i := by
  simp only [setFld, BitVec.getLsbD_ofNat, hi', decide_true, Bool.true_and, testBit_nput h]
  rfl

/-- Bit `i` of a field. -/
theorem testBit_fld {n : Nat} (w : BitVec n) {hi lo : Nat} (i : Nat) :
    (fld w hi lo).testBit i = (decide (i < hi + 1 - lo) && w.getLsbD (lo + i)) := by
  simp only [fld, nfld, Nat.testBit_mod_two_pow, Nat.testBit_shiftRight]
  rfl

/-- A field that has just been written reads the value written. -/
theorem fld_setFld {n : Nat} (w : BitVec n) {hi lo : Nat} (h : lo ≤ hi + 1) (hn : hi < n) (v : Nat) :
    fld (setFld w hi lo v) hi lo = v % 2 ^ (hi + 1 - lo) := by
  apply Nat.eq_of_testBit_eq
  intro i
  rw [testBit_fld, Nat.testBit_mod_two_pow]
  by_cases hi' : i < hi + 1 - lo
  · rw [getLsbD_setFld w h v (lo + i) (by omega)]
    have : lo ≤ lo + i ∧ lo + i ≤ hi := by omega
    simp [this, hi']
  · simp [hi']

/-- A write of one field leaves a field apart from it alone. -/
theorem fld_setFld_other {n : Nat} (w : BitVec n) {hi lo hi' lo' : Nat} (h : lo ≤ hi + 1) (hn : hi' < n)
    (apart : hi' < lo ∨ hi < lo') (v : Nat) : fld (setFld w hi lo v) hi' lo' = fld w hi' lo' := by
  apply Nat.eq_of_testBit_eq
  intro i
  rw [testBit_fld, testBit_fld]
  by_cases hi2 : i < hi' + 1 - lo'
  · rw [getLsbD_setFld w h v (lo' + i) (by omega)]
    have : ¬(lo ≤ lo' + i ∧ lo' + i ≤ hi) := by omega
    simp [this]
  · simp [hi2]

/-- A write of one bit is read back. -/
theorem getLsbD_setFld_bit {n : Nat} (w : BitVec n) (i v : Nat) (hn : i < n) : (setFld w i i v).getLsbD i = v.testBit 0 := by
  rw [getLsbD_setFld w (by omega) v i hn]
  simp

/-- A write of one field leaves a bit apart from it alone. -/
theorem getLsbD_setFld_other {n : Nat} (w : BitVec n) {hi lo i : Nat} (h : lo ≤ hi + 1) (hn : i < n) (apart : i < lo ∨ hi < i) (v : Nat) :
    (setFld w hi lo v).getLsbD i = w.getLsbD i := by
  rw [getLsbD_setFld w h v i hn]
  have : ¬(lo ≤ i ∧ i ≤ hi) := by omega
  simp [this]

end Sys2Proof
end

