-- ==== Sys2Proof/Laws/Effects.lean ====
section
/-! SUPPORT. What kills, messages and host writes can change, one lemma for each. -/

namespace Sys2Proof.Machine

/-- A bench's cause changes status registers, the bits set in the tick, and adds one report (R61). -/
theorem Dev.benchCause_shape (d : Dev) (b n code access addr : Nat) (t : Bool) :
    ∃ rs fs r, d.benchCause b n code access addr t = { d with regs := rs, fresh := fs, reports := d.reports ++ [r] } ∧ r.code = code ∧
      r.master = benchMaster b ∧ r.access = access ∧ r.addr = addr := by
  unfold Dev.benchCause
  dsimp only
  split
  · exact ⟨_, _, _, rfl, rfl, rfl, rfl, rfl⟩
  · exact ⟨d.regs, d.fresh, _, rfl, rfl, rfl, rfl, rfl⟩

/-- A quiet kill changes the benches and PLN_FLAGS (R59). -/
theorem Dev.killQuiet_shape (d : Dev) (b n code : Nat) : ∃ bs rs, d.killQuiet b n code = { d with benches := bs, regs := rs } := by
  unfold Dev.killQuiet
  dsimp only
  split
  · exact ⟨_, _, rfl⟩
  · exact ⟨_, d.regs, rfl⟩

/-- A kill changes the benches, status registers and the bits set in the tick, and adds one report (R59, R61). -/
theorem Dev.kill_shape (d : Dev) (b n code access addr : Nat) (t : Bool) :
    ∃ bs rs fs r, d.kill b n code access addr t = { d with benches := bs, regs := rs, fresh := fs, reports := d.reports ++ [r] } ∧
      r.code = code ∧ r.master = benchMaster b ∧ r.access = access ∧ r.addr = addr := by
  unfold Dev.kill
  obtain ⟨rs, fs, r, h, h1, h2, h3, h4⟩ := d.benchCause_shape b n code access addr t
  rw [h]
  obtain ⟨bs, qs, k⟩ := Dev.killQuiet_shape { d with regs := rs, fresh := fs, reports := d.reports ++ [r] } b n code
  exact ⟨bs, qs, fs, r, k, h1, h2, h3, h4⟩

/-- The other benches are not changed by a kill. -/
theorem Dev.killQuiet_other (d : Dev) {b c : Nat} (h : c ≠ b) (n code : Nat) : (d.killQuiet b n code).bench c = d.bench c := by
  unfold Dev.killQuiet
  dsimp only
  split
  · exact Dev.bench_setBench_other d h _
  · exact Dev.bench_setBench_other d h _

/-- Posted writes change what has left. -/
theorem Dev.hostSend_shape (f : Nat) (ro : Bool) (n : Nat) (d : Dev) (a : Nat) (bs : List Byte) :
    ∃ o, Dev.hostSend f ro n d a bs = { d with out := o } := by
  induction n generalizing d a bs with
  | zero => exact ⟨d.out, rfl⟩
  | succ n ih =>
    unfold Dev.hostSend
    split
    · exact ⟨d.out, rfl⟩
    · obtain ⟨o, h⟩ := ih (d.emit (.hostWrite f a (bs.take (tlpLen (128 * 2 ^ (d.fn f).mps.val) a bs.length)) ro))
        (a + tlpLen (128 * 2 ^ (d.fn f).mps.val) a bs.length) (bs.drop (tlpLen (128 * 2 ^ (d.fn f).mps.val) a bs.length))
      exact ⟨o, h⟩

/-- A write to host memory leaves or waits for its function to return to D0 (R347). -/
theorem Dev.hostWrite_shape (d : Dev) (f a : Nat) (bs : List Byte) (ro : Bool) : ∃ h o, d.hostWrite f a bs ro = { d with heldMsgs := h, out := o } := by
  unfold Dev.hostWrite
  split
  · exact ⟨_, d.out, rfl⟩
  · obtain ⟨o, h⟩ := Dev.hostSend_shape f ro bs.length d a bs
    exact ⟨d.heldMsgs, o, h⟩

end Sys2Proof.Machine
end

