-- ==== Sys2Proof/Laws/Fabric.lean ====
section
/-! SUPPORT. What the fabric's shared operations can change, one lemma for each (R382, R383, R385). -/

namespace Sys2Proof.Machine

/-- A link-retry port that sends a frame changes and lets the frame leave with its LSEQ. -/
theorem Dev.putDirect_shape (d : Dev) (p : Nat) (f : Frame) :
    ∃ ps, d.putDirect p f = { d with ports := ps, out := d.out ++ [.frame p { f with lseq := (d.port p).lseqNext }] } := ⟨_, rfl⟩

/-- What one waiting frame that leaves changes. -/
theorem Dev.portSent_shape (d : Dev) (p : Nat) (g : FabPort → FabPort) (f : Frame) :
    ∃ ps o, (d.modPort p g).putDirect p f = { d with ports := ps, out := o } := ⟨_, _, rfl⟩

/-- Frames that wait at a port change that port and what has left. -/
theorem Dev.portPump_shape (p n : Nat) (d : Dev) : ∃ ps o, Dev.portPump p n d = { d with ports := ps, out := o } := by
  induction n generalizing d with
  | zero => exact ⟨d.ports, d.out, rfl⟩
  | succ n ih =>
    unfold Dev.portPump
    split
    · exact ⟨d.ports, d.out, rfl⟩
    · split
      · rename_i f _ _
        obtain ⟨qs, q, k⟩ := d.portSent_shape p (fun x => { x with wait := x.wait.erase f }) f
        obtain ⟨ps, o, h⟩ := ih ((d.modPort p fun x => { x with wait := x.wait.erase f }).putDirect p f)
        exact ⟨ps, o, by rw [h, k]⟩
      · exact ⟨d.ports, d.out, rfl⟩

/-- A frame put on a port changes that port and what has left. -/
theorem Dev.putOnPort_shape (d : Dev) (p : Nat) (f : Frame) : ∃ ps o, d.putOnPort p f = { d with ports := ps, out := o } := by
  unfold Dev.putOnPort
  split
  · obtain ⟨ps, o, h⟩ := Dev.portPump_shape p ((d.port p).wait.length + 1) (d.modPort p fun x => { x with wait := x.wait ++ [f] })
    exact ⟨ps, o, h⟩
  · exact ⟨d.ports, _, rfl⟩

/-- Without link retry a frame leaves as it is. -/
theorem Dev.putOnPort_plain {d : Dev} {p : Nat} (f : Frame) (h : (d.port p).direct = false) : d.putOnPort p f = d.emit (.frame p f) := by
  simp [Dev.putOnPort, h]

/-- The one frame that waits is the one that leaves next. -/
theorem FabPort.nextFrame_one (x : FabPort) (f : Frame) : ({ x with wait := [f] } : FabPort).nextFrame = some f := by
  have h : firstOfStream [] [f] = [f] := by simp [firstOfStream]
  have k : frameClass f.op = 0 ∨ frameClass f.op = 1 ∨ frameClass f.op = 2 ∨ frameClass f.op = 3 := by
    unfold frameClass
    split <;> [skip; split <;> [skip; split]] <;> simp
  simp only [FabPort.nextFrame, h]
  rcases k with k | k | k | k <;> cases x.mirNext <;> simp [k]

/-- With link retry a frame leaves at once where none waits before it and the replay buffer has room (R382). -/
theorem Dev.putOnPort_direct {d : Dev} {p : Nat} {f : Frame} (h : (d.port p).direct = true) (w : (d.port p).wait = [])
    (r : d.replayRoom (d.port p) f = true) : d.putOnPort p f = d.putDirect p f := by
  have m : d.modPort p (fun x => { x with wait := x.wait ++ [f] }) = d.setPort p { d.port p with wait := [f] } := by
    simp only [Dev.modPort, w, List.nil_append]
  have n : ((d.setPort p { d.port p with wait := [f] }).port p).nextFrame = some f := by
    rw [Dev.port_setPort]
    exact FabPort.nextFrame_one _ f
  have r' : (d.setPort p { d.port p with wait := [f] }).replayRoom ((d.setPort p { d.port p with wait := [f] }).port p) f = true := by
    rw [Dev.port_setPort]
    exact r
  have e : (d.setPort p { d.port p with wait := [f] }).modPort p (fun x => { x with wait := x.wait.erase f }) = d.setPort p (d.port p) := by
    simp only [Dev.modPort, Dev.port_setPort, List.erase_cons_head, ← w]
    simp only [Dev.setPort, SMap.set_set]
  have g : (d.setPort p (d.port p)).putDirect p f = d.putDirect p f := by
    simp only [Dev.putDirect, Dev.port_setPort]
    simp only [Dev.setPort, SMap.set_set]
  have one (y : Dev) (hn : (y.port p).nextFrame = some f) (hr : y.replayRoom (y.port p) f = true) :
      Dev.portPump p 1 y = (y.modPort p fun x => { x with wait := x.wait.erase f }).putDirect p f := by
    simp only [Dev.portPump, hn, hr, if_true]
  rw [Dev.putOnPort, if_pos h, w, m]
  exact (one _ n r').trans (by rw [e, g])

/-- A frame outside the sequence changes a port and what has left, and nothing where no port is UP. -/
theorem Dev.sendPlain_shape (d : Dev) (i : Nat) (f : Frame) : ∃ ps o, d.sendPlain i f = { d with ports := ps, out := o } := by
  unfold Dev.sendPlain
  split
  · exact d.putOnPort_shape _ f
  · exact ⟨d.ports, d.out, rfl⟩

/-- Frames put on a port one after another. -/
theorem Dev.foldPut_shape (p : Nat) (f : SentFrame → Frame) (xs : List SentFrame) (d : Dev) :
    ∃ ps o, xs.foldl (fun d x => d.putOnPort p (f x)) d = { d with ports := ps, out := o } := by
  induction xs generalizing d with
  | nil => exact ⟨d.ports, d.out, rfl⟩
  | cons x xs ih =>
    obtain ⟨ps, g, h⟩ := d.putOnPort_shape p (f x)
    obtain ⟨qs, o, k⟩ := ih (d.putOnPort p (f x))
    exact ⟨qs, o, by rw [List.foldl_cons, k, h]⟩

/-- Sending again changes peers, ports and what has left. -/
theorem Dev.resend_shape (d : Dev) (i : Nat) (c : Bool) : ∃ q ps o, d.resend i c = { d with peers := q, ports := ps, out := o } := by
  unfold Dev.resend
  dsimp only
  split
  · exact ⟨d.peers, d.ports, d.out, rfl⟩
  · rename_i sl p _
    obtain ⟨ps, o, h⟩ := Dev.foldPut_shape p (fun x => { x.frame with ack := ((d.peer i).stream c).ackVal }) ((d.peer i).stream c).unacked
      (d.modPeer i fun q => q.setStream c { (d.peer i).stream c with
        unacked := ((d.peer i).stream c).unacked.map fun x => { x with sentAt := d.ticks }, slot := sl, ackDue := ((d.peer i).stream c).ackDue && ((d.peer i).stream c).unacked.isEmpty })
    exact ⟨_, ps, o, h⟩

/-- Moving waiting frames into the window changes peers, ports and what has left. -/
theorem Dev.pump_shape (n : Nat) (d : Dev) (i : Nat) (c : Bool) : ∃ q ps o, d.pump i c n = { d with peers := q, ports := ps, out := o } := by
  induction n generalizing d with
  | zero => exact ⟨d.peers, d.ports, d.out, rfl⟩
  | succ n ih =>
    unfold Dev.pump
    dsimp only
    split
    · exact ⟨d.peers, d.ports, d.out, rfl⟩
    · split
      · split
        · rename_i p _
          obtain ⟨q, ps, o, h⟩ := ih (Dev.putOnPort _ p _)
          obtain ⟨ps', g, k⟩ := Dev.putOnPort_shape _ p _
          exact ⟨q, ps, o, by rw [h, k]; rfl⟩
        · obtain ⟨q, ps, o, h⟩ := ih (d.modPeer i _)
          exact ⟨q, ps, o, by rw [h]; rfl⟩
      · exact ⟨d.peers, d.ports, d.out, rfl⟩

/-- Sending a sequenced frame changes peers, ports and what has left. -/
theorem Dev.sendSeq_shape (d : Dev) (i : Nat) (f : Frame) (o : FabOwner) (ans : Option Nat) :
    ∃ q ps out, d.sendSeq i f o ans = { d with peers := q, ports := ps, out := out } := by
  unfold Dev.sendSeq
  dsimp only
  obtain ⟨q, ps, out, h⟩ := Dev.pump_shape _ (d.modPeer i _) i (clampStream f.op)
  exact ⟨q, ps, out, by rw [h]; rfl⟩

/-- The causes of the fabric change a status register, the bits set in the tick and the reports. -/
theorem Dev.fabCause_shape (d : Dev) (inst src code bit access addr : Nat) :
    ∃ rs fs r, d.fabCause inst src code bit access addr = { d with regs := rs, fresh := fs, reports := d.reports ++ [r] } ∧ r.code = code ∧
      r.master = fabMaster src :=
  ⟨_, _, _, rfl, rfl, rfl⟩

theorem Dev.portCause_shape (d : Dev) (p code bit : Nat) :
    ∃ rs fs r, d.portCause p code bit = { d with regs := rs, fresh := fs, reports := d.reports ++ [r] } ∧ r.code = code ∧ r.master = 0xF880 + p :=
  ⟨_, _, _, rfl, rfl, rfl⟩

end Sys2Proof.Machine
end

