-- ==== Sys2Proof/Laws/Outcomes.lean ====
section
/-! SUPPORT. From a command's outcome to what a statement says of it. -/

namespace Sys2Proof.Machine
open Host

/-- A request of the host to a running device. -/
theorem State.runAsk_live {s : State} (k : Nat) (f : Dev → Dev) (h : s.dev.live = true) : s.runAsk k f = .next { s with dev := f s.dev } := by
  simp [State.runAsk, State.run, h]

/-- A command whose outcome is an effect on a running device completes with it. -/
theorem completes_of_runLive {c : Instr} {f : Dev → Dev} {s : State} (hc : exec c s = s.runLive f) (h : s.dev.live = true) :
    Completes c s (f s.dev) := hc.trans (State.runLive_live f h)

theorem completes_of_runOn {c : Instr} {f : Dev → Dev} {s : State} (hc : exec c s = s.runOn f) (h : s.dev.on = true) :
    Completes c s (f s.dev) := hc.trans (State.runOn_on f h)

theorem completes_of_runAsk {c : Instr} {k : Nat} {f : Dev → Dev} {s : State} (hc : exec c s = s.runAsk k f) (h : s.dev.live = true) :
    Completes c s (f s.dev) := hc.trans (State.runAsk_live k f h)

/-- What completes reaches what its device satisfies. -/
theorem reaches_of_completes {c : Instr} {s : State} {d : Dev} {P : Dev → Prop} (h : Completes c s d) (hp : P d) : Reaches c s P := ⟨d, h, hp⟩

end Sys2Proof.Machine
end

