-- ==== Sys2Proof/Laws/Shapes.lean ====
section
/-! SUPPORT. What the shared operations can change, one lemma for each: the device afterwards is the device before with the named
fields set. -/

namespace Sys2Proof.Machine

/-- A message to the host changes pending bits, what waits and what has left. -/
theorem Dev.msixEvent_shape (d : Dev) (f v : Nat) :
    ∃ h m o, d.msixEvent f v = { d with heldMsgs := h, msix := m, out := o } := by
  unfold Dev.msixEvent Dev.msixNow Dev.setVec Dev.emit
  dsimp only
  repeat' split
  all_goals exact ⟨_, _, _, rfl⟩

/-- A power event changes PWR_EVT and what a message changes; one that meets its bit set is noted where the bit was set in the same tick
(R8, R455). -/
theorem Dev.pwrEvent_shape (d : Dev) (bit : Nat) :
    ∃ r fs p h m o, d.pwrEvent bit = { d with regs := r, fresh := fs, pwr := p, heldMsgs := h, msix := m, out := o } := by
  unfold Dev.pwrEvent
  dsimp only
  split
  · split
    · exact ⟨d.regs, d.fresh, d.pwr, d.heldMsgs, d.msix, d.out, rfl⟩
    · exact ⟨(d.setRegBit .pwrEvt [] bit).regs, (d.setRegBit .pwrEvt [] bit).fresh, _, d.heldMsgs, d.msix, d.out, rfl⟩
  · obtain ⟨h, m, o, e⟩ := Dev.msixEvent_shape (d.setRegBit .pwrEvt [] bit) 0 9
    rw [e]
    exact ⟨(d.setRegBit .pwrEvt [] bit).regs, (d.setRegBit .pwrEvt [] bit).fresh, d.pwr, h, m, o, rfl⟩

/-- Raising a cause changes a status register, the bits set in the tick and the reports on their way. -/
theorem Dev.raise_eq (d : Dev) (reg : RegName) (ix : List Nat) (bit : Nat) (r : Report) :
    d.raise reg ix bit r =
      { d with
        regs := d.regs.set (reg.addr ix) (d.reg reg ix ||| BitVec.ofNat 32 (2 ^ bit))
        fresh := d.fresh.set (reg.addr ix) (d.freshBits reg ix ||| BitVec.ofNat 32 (2 ^ bit))
        reports := d.reports ++ [{ r with seen := if d.pairClear reg ix r.code then some (d.time + 20) else none, raisedAt := d.ticks }] } := rfl

end Sys2Proof.Machine
end

