-- ==== Sys2Proof/Tests/Slice0.lean ====
section
/-! SUPPORT. Tests: ill-formed commands are refused by the well-formedness check, and for every statement concrete states and operands
that meet its hypotheses, with what the command leaves there. -/

set_option Elab.async false

namespace Sys2Proof.Tests
open Sys2Proof Sys2Proof.Machine

/-- A device that runs: the input switch is closed, the eight dies are UP, and the boot lock has been taken. -/
def dev : Dev :=
  { board := { swOn := true, mated := true, risen := true, booted := some false }
    dies := ⟨(List.range 8).map fun i => (i, { st := 2 })⟩
    regs := SMap.set ⟨[]⟩ (RegName.secStatus.addr []) 0x80000000#32 }

/-- The state of a device with an empty queue. -/
def st (d : Dev) : State := ⟨[], d⟩

/-- What a command leaves of a device. -/
def res {α : Type} (c : Instr) (d : Dev) (f : Dev → α) : Option α :=
  match exec c (st d) with
  | .next t => some (f t.dev)
  | _ => none

/-- The end `due` has come once time has passed to it. -/
def comes (due : Dev → Option Nat) (d : Dev) : Bool :=
  let d1 := d.passDue (due d)
  match due d1 with
  | some t => decide (t ≤ d1.ticks)
  | none => false

def comesAt (k : Nat) (due : Dev → Option Nat) (d : Dev) : Bool :=
  let d1 := d.passCount k (due d)
  match due d1 with
  | some c => decide (c ≤ d1.cycle k)
  | none => false

theorem comes_ok {due : Dev → Option Nat} {d : Dev} (h : comes due d = true) : Comes due d (d.passDue (due d)) := by
  unfold comes at h
  refine ⟨rfl, ?_⟩
  dsimp only at h
  split at h
  · exact ⟨_, ‹_›, of_decide_eq_true h⟩
  · cases h

theorem comesAt_ok {k : Nat} {due : Dev → Option Nat} {d : Dev} (h : comesAt k due d = true) : ComesAt k due d (d.passCount k (due d)) := by
  unfold comesAt at h
  refine ⟨rfl, ?_⟩
  dsimp only at h
  split at h
  · exact ⟨_, ‹_›, of_decide_eq_true h⟩
  · cases h

/-! ### Well-formedness: each check refuses an ill-formed term -/

theorem test_wf_under : under (some 16384) 16384 = false ∧ under (some 16383) 16384 = true ∧ under none 0 = true := by decide
theorem test_wf_payload : payloadOk (List.replicate 4097 0) = false ∧ payloadOk (List.replicate 4096 0) = true := by decide +kernel
theorem test_wf_ecc : ({ e := .single, off := 1048576 } : EccAt).wf = false ∧ ({ e := .ok, off := 8 } : EccAt).wf = false ∧ ({ e := .double, off := 8 } : EccAt).wf = true := by decide
theorem test_wf_linkup : ({ pll := true, record := some (List.replicate 63 0), trained := 0 } : LinkUpFind).wf = false ∧ ({ pll := true, record := none, trained := 0 } : LinkUpFind).wf = true := by decide
theorem test_wf_boot : ({ layout := true, identity := true, trims := 0, bad := [], dies := [], refclk := true } : BootFind).wf = false ∧
    ({ layout := true, identity := true, trims := 0, bad := [], dies := List.replicate 8 { pll := true, record := some [], trained := 0 }, refclk := true } : BootFind).wf = false ∧
    ({ layout := true, identity := true, trims := 0, bad := [], dies := List.replicate 8 { pll := true, record := none, trained := 0 }, refclk := true } : BootFind).wf = true := by decide
def plainFrame : Frame := { op := 1, src := 1, dst := 1 }
theorem test_wf_frame : plainFrame.wf = true ∧ [{ plainFrame with op := 256 }, { plainFrame with lseq := 256 }, { plainFrame with src := 2 ^ 20 }, { plainFrame with dst := 2 ^ 20 }, { plainFrame with seq := 2 ^ 32 }].all (!·.wf) = true ∧
    [{ plainFrame with ack := 2 ^ 32 }, { plainFrame with laddr := 2 ^ 64 }, { plainFrame with len := 65536 }, { plainFrame with tag := 65536 }, { plainFrame with data := List.replicate 4097 0 }].all (!·.wf) = true := by decide +kernel
theorem test_wf_train : (TrainFind.up (some (32, 0, true)) false).wf = false ∧ (TrainFind.up (some (0, 2 ^ 20, true)) false).wf = false ∧ (TrainFind.up (some (31, 5, true)) false).wf = true := by decide
def plainPart : Component := { start := true, ty := 1, off := 4096, size := 4, svn := 1, good := true, body := [] }
theorem test_wf_component : plainPart.wf = true ∧ [{ plainPart with ty := 65536 }, { plainPart with size := 264241152 }, { plainPart with svn := 2 ^ 32 }, { plainPart with body := List.replicate 5 0 }].all (!·.wf) = true := by decide
theorem test_wf_target : (RegTarget.bar0 0 0 []).wf = false ∧ (RegTarget.bar0 1 1048573 [0, 0, 0, 0]).wf = false ∧ (RegTarget.bar0 0 67108860 [0, 0, 0, 0]).wf = true := by decide +kernel
theorem test_wf_host : (Instr.hostBar0Read 0 0 0).wf = false ∧ (Instr.hostBar0Read 1 1048574 4).wf = false ∧ (Instr.hostBar2Read 0 0 0).wf = false := by decide +kernel
theorem test_wf_host_writes : (Instr.hostBar2Write 0 0 [] false).wf = false ∧ (Instr.hostAtomicop 0 0 5 0 0 0).wf = false ∧ (Instr.registerReadClear 1 1048573).wf = false := by decide +kernel
theorem test_wf_lists : (Instr.seal ⟨0, [(0, { ls := { e := .single, off := 1048576 } })]⟩).wf = false ∧ (Instr.faultReport 0).wf = false ∧ (Instr.clampRootUpdate 0 0 .ok).wf = false := by decide +kernel
theorem test_wf_arrays : (Instr.commandBoundary 0 none ⟨(some 16384), none⟩).wf = false ∧ (Instr.mortiseStep 0 {} none (some 65536)).wf = false ∧ (Instr.hbmEcs 0 65536).wf = false := by decide +kernel
theorem test_wf_lines : (Instr.vld 0 {} (some (2 ^ 37)) none).wf = false ∧ (Instr.dressing 0 (some 8192)).wf = false ∧ (Instr.alu 0 .ok).wf = true := by decide +kernel

/-! ### The module (R22 to R32) -/

theorem test_live : dev.live = true := by decide +kernel
theorem test_reset_not_live : State.reset.dev.live = false := by decide +kernel
theorem test_dormant : State.reset.Dormant := ⟨rfl, fun _ h => by cases h⟩

/-- A tick is 8 core cycles at OP0 and 19.2 at OP3. -/
theorem test_idle : (match step ⟨[], { board := { mated := true } }⟩ with
      | .next t => decide (t.dev = { board := { mated := true } })
      | _ => false) = true ∧
    (match step (st dev) with
      | .next t => [t.dev.time, t.dev.ticks, (t.dev.die 0).cyc10]
      | _ => []) = [20, 1, 80] ∧
    (match step (st (dev.setReg .pwrDieOp [1] 0x300)) with
      | .next t => [(t.dev.die 0).cyc10, (t.dev.die 1).cyc10]
      | _ => []) = [80, 192] ∧ dev.dieClock 1 = true := by decide +kernel
theorem test_start_conditions : res .inputRiseAboveTurnOn { board := { mated := true } } (·.board.starting) = some true ∧
    res .busPrsntMate { board := { risen := true } } (·.board.starting) = some true ∧
    res .busPrsntMate { board := { risen := true, pwrDis := true } } (·.board.starting) = some false ∧
    res .pwrDisRelease { board := { mated := true, risen := true, pwrDis := true } } (·.board.starting) = some true := by decide +kernel
theorem test_switch_opens : dev.board.swOn = true ∧ res .inputOverVoltageDisconnect dev (·.board.ovTrip) = some true ∧
    res .busPrsntBreak dev (·.board.mated) = some false ∧ res .pwrDisAssert dev (·.board.swOn) = some false ∧
    res .brownOut dev (fun d => (d.board.brownOut, d.board.risen, d.live)) = some (true, false, false) := by decide +kernel
theorem test_cables : res (.cableMate true) State.reset.dev (·.cable 3) = some { mated := true } ∧
    res (.cableMate false) dev (·.cable 2) = some { mated := true, supply := true } ∧
    res (.cableSupplyOverload true) (dev.setCable 3 { mated := true, supply := true }) (fun d => (d.cable 3, d.reports.map (·.access))) =
      some ({ mated := true, latched := true }, [3]) ∧
    res (.cableRemove true) (dev.setCable 3 { mated := true, latched := true }) (·.cable 3) = some {} := by decide +kernel
theorem test_cable_ports : res (.cableMate false) { dev with ports := ⟨[(0, { st := 1, why := 2 }), (5, { st := 1, why := 2 })]⟩ }
      (fun d => ((d.port 0).st, (d.port 5).st)) = some (1, 1) ∧ dev.portConnector 0 = 2 ∧ dev.portConnector 5 = 3 ∧
    res (.cableMate false) ((((dev.setReg .fabDevid [0] 0x80000001).setReg .fabCfg [] 0x8000)).setPort 0 { st := 1, why := 2 })
      (fun d => (d.port 0).st) = some 2 := by decide +kernel
theorem test_module_causes : res .coolantLeak dev (fun d => (d.modCauses, d.reports.map (·.code))) = some ([0x7C01], [0x7C01]) ∧
    res .coolantLeak { dev with modCauses := [0x7C01] } (·.reports) = some [] ∧
    res (.coolantInletHot 321) dev (·.modCauses) = some [0x7C02] ∧ res (.coolantInletHot 320) dev (·.modCauses) = some [] ∧
    res (.coolantRiseHigh 321) dev (·.modCauses) = some [0x7C03] ∧ res (.coolantRiseHigh 320) dev (·.modCauses) = some [] ∧
    res (.moduleBoardHot 5 801) dev (·.modCauses) = some [0x7C07] ∧ res (.moduleBoardHot 5 800) dev (·.modCauses) = some [] := by decide +kernel
theorem test_module_failed : (dev.setRegBit .pwrSens [568] 30).sensFailed 568 = true ∧
    res (.coolantInletHot 400) (dev.setRegBit .pwrSens [568] 30) (·.modCauses) = some [] ∧
    res (.coolantRiseHigh 400) (dev.setRegBit .pwrSens [569] 30) (·.modCauses) = some [] ∧
    res (.moduleBoardHot 0 900) (dev.setRegBit .pwrSens [570] 30) (·.modCauses) = some [] := by decide +kernel
theorem test_module_clear : res (.registerWrite (.bar0 0 0x400020 [0, 1, 0, 0])) { (dev.setReg .pwrEvt [] 0x100) with modCauses := [0x7C01, 0x7C02, 0x7C07] }
      (fun d => (d.modCauses, d.regBit .pwrEvt [] 8)) = some ([0x7C02], false) := by decide +kernel
theorem test_over_voltage : res .inputOverVoltageWarning dev (fun d => (d.modCauses, d.board.ovExc)) = some ([0x7C04], true) ∧
    res .inputOverVoltageWarning { dev with board := { dev.board with ovExc := true } } (·.reports) = some [] ∧
    res .overVoltageWarningEnd { dev with modCauses := [0x7C04] } (·.modCauses) = some [] := by decide +kernel

/-! ### Power (R432 to R457) -/

theorem test_supply : dev.pwr.supply ≠ 1 ∧ res .inputBelowWarning dev (fun d => (d.limLevel 7, d.reports.map (·.code), (d.reg .pwrDips []).toNat)) = some (2, [0x7101], 1) ∧
    res .inputBackAboveWarning { dev with pwr := { supply := 1 } } (·.pwr.supply) = some 2 := by decide +kernel
theorem test_supply_end : comes Dev.supplyDue { dev with pwr := { supply := 2, supplyAt := 7 } } = true ∧
    res .supplyTriggerEnd { dev with pwr := { supply := 2, supplyAt := 7 } } (fun d => (d.pwr.supply, d.ticks, d.time)) = some (0, 5007, 100140) := by decide +kernel
theorem test_current : dev.iwarn < (7901#16).toNat ∧ res (.inputCurrentWarning 7901) dev (fun d => (d.limLevel 0, d.reports)) = some (2, []) ∧
    res (.inputCurrentLimit 8000) dev (fun d => (d.limLevel 0, d.reports.map (·.code))) = some (3, [0x7103]) ∧
    res (.inputCurrentLimit 8000) { dev with pwr := { curExc := true } } (·.reports) = some [] ∧
    res (.currentBackBelowIwarn 0) { dev with pwr := { curWarn := true } } (·.pwr.curBack) = some true ∧
    comes Dev.currentDue { dev with pwr := { curWarn := true, curBack := true } } = true ∧
    res .currentTriggerEnd { dev with pwr := { curWarn := true, curBack := true } } (·.pwr.curWarn) = some false := by decide +kernel
/-- 60 V and 70 A are 4,200 W: 600 µJ in a microsecond. -/
theorem test_energy : res (.energyBucketUpdate 6000 7000) dev (·.pwr.bucket) = some 6000000 ∧
    res (.energyBucketUpdate 6000 7000) { dev with pwr := { bucket := 59999999999 } } (fun d => (d.pwr.energy, d.limLevel 3)) = some (some 1, 1) ∧
    res (.energyBucketUpdate 0 0) { dev with pwr := { bucket := 30036000000, energy := some 2 } } (·.pwr.energy) = some none ∧
    res (.energyBucketUpdate 6000 6000) { dev with pwr := { bucket := 30000000001, energy := some 2 } } (·.pwr.energy) = some (some 2) ∧
    res (.energyBucketUpdate 6000 7000) { dev with pwr := { bucket := 60000000000, energy := some 2 } } (·.pwr.energy) = some (some 2) := by decide +kernel
theorem test_limiter_steps : comes (·.stepDue .energy) { dev with pwr := { energy := some 3 } } = true ∧
    res (.limiterStepDown .energy) { dev with pwr := { energy := some 3 } } (fun d => (d.pwr.energy, d.limLevel 1, d.ticks)) = some (some 3, 3, 50000) ∧
    comes (·.stepDue (.sensor 567)) { dev with pwr := { therm := SMap.set ⟨[]⟩ 567 1 } } = true ∧
    res (.limiterStepDown (.sensor 567)) { dev with pwr := { therm := SMap.set ⟨[]⟩ 567 1 } } (fun d => (d.pwr.therm.find? 567, d.limLevel 7)) = some (some 2, 2) := by decide +kernel
/-- 256 cycles at OP0 take 32 ticks. -/
theorem test_limiter_release : comesAt 7 (·.releaseDue 7) { (dev.setReg .pwrDieLim [7] 3) with pwr := { limRel := SMap.set ⟨[]⟩ 7 0 } } = true ∧
    res (.limiterReleaseStep 7) { (dev.setReg .pwrDieLim [7] 3) with pwr := { limRel := SMap.set ⟨[]⟩ 7 0 } } (fun d => (d.limLevel 7, d.ticks)) = some (2, 32) := by decide +kernel
theorem test_throttle : res (.thermalThrottle 0 841) dev (fun d => (d.reports.map (fun r => (r.code, r.addr)), d.limLevel 0, d.limLevel 1)) = some ([(0x7201, 0)], 1, 0) ∧
    res (.thermalThrottle 567 761) dev (·.reports.map (·.code)) = some [0x7203] ∧ res (.thermalThrottle 0 840) dev (·.reports) = some [] ∧
    res (.thermalThrottle 0 919) { dev with pwr := { therm := SMap.set ⟨[]⟩ 0 2 } } (·.reports) = some [] := by decide +kernel
theorem test_trip : res (.thermalTrip 0 920) dev (fun d => (d.tripped, d.live, d.reports.map (·.code))) = some (true, false, [0x7202]) ∧
    res (.thermalTrip 567 840) dev (·.tripped) = some true ∧ res (.thermalTrip 0 919) dev (·.tripped) = some false := by decide +kernel
theorem test_sensors : res (.sensorFailed 575) dev (fun d => (d.sensFailed 575, d.reports.map (·.code))) = some (true, [0x7204]) ∧
    res (.thermalThrottle 64 1201) dev (fun d => (d.sensFailed 64, d.limLevel 1)) = some (true, 1) ∧
    res (.sensorFailed 1) (dev.setRegBit .pwrSens [1] 30) (·.reports) = some [] ∧ (dev.setRegBit .pwrSens [1] 30).sensFailed 1 = true ∧
    res (.sensorBelowReleaseThreshold 0 799) { dev with pwr := { therm := SMap.set ⟨[]⟩ 0 1 } } (·.quiet.has 256) = some true := by decide +kernel
theorem test_thermal_cap : comes (·.capDue 0) { dev with pwr := { thermCap := SMap.set ⟨[]⟩ 0 2 } } = true ∧
    res (.thermalCapStep 0) { dev with pwr := { thermCap := SMap.set ⟨[]⟩ 0 2 } } (·.pwr.thermCap.find? 0) = some (some 3) ∧
    res (.thermalCapStep 0) { dev with pwr := { thermCap := SMap.set ⟨[]⟩ 0 3 } } (·.pwr.thermCap.find? 0) = some none ∧
    comes (·.capDue 0) { dev with pwr := { therm := SMap.set ⟨[]⟩ 9 3, capAt := SMap.set ⟨[]⟩ 0 (1, 0) } } = true ∧
    res (.thermalCapStep 0) { dev with pwr := { therm := SMap.set ⟨[]⟩ 9 3, capAt := SMap.set ⟨[]⟩ 0 (1, 0) } } (fun d => (d.pwr.thermCap.find? 0, d.ticks)) =
      some (none, 500000) := by decide +kernel
theorem test_points : res .phaseMarkAct { dev with phaseMarks := [(1, 3), (2, 4)] } (·.phaseMarks) = some [(2, 4)] ∧
    res (.opChangeDone 2) { (dev.setReg .pwrDieOp [2] 0x800) with pwr := { opTarget := SMap.set ⟨[]⟩ 2 3 } } (·.opNow 2) = some 3 := by decide +kernel
theorem test_bays : comes (·.sleepDue 63) ((dev.setReg .pwrSleep [] 1).setReg .pwrDieDom [7] domAllOn) = true ∧
    res (.baySleep 63) ((dev.setReg .pwrSleep [] 1).setReg .pwrDieDom [7] domAllOn) (fun d => (d.bayDom 63, d.bayDom 62)) = some (1, 2) ∧
    res (.bayWakeDone 0) (dev.setBayDom 0 3) (·.bayDom 0) = some 2 := by decide +kernel
theorem test_power_faults : res (.regulatorFault 0) dev (fun d => (d.halted, d.reports.map (·.code))) = some (true, [0x7302]) ∧
    res (.domainWakeTimeout (.iod 2)) dev (·.halted) = some true ∧
    res (.domainWakeTimeout (.die 7 7)) (dev.setBayDom 63 3) (fun d => ((d.die 7).st, d.reports.map (·.code))) = some (3, [0x7301]) := by decide +kernel
theorem test_power_dies : dev.dieUsed 3 = false ∧ res (.powerOff 3) dev (·.regBit .pwrDieCtl [3] 0) = some true ∧
    res (.powerOff 3) (dev.setBench 1728 { ctxs := SMap.set ⟨[]⟩ 0 { valid := true } }) (·.regBit .pwrDieCtl [3] 2) = some true ∧
    res (.powerOffDone 3) (dev.setReg .pwrDieCtl [3] 1) (fun d => (d.die 3).st) = some 0 ∧
    res (.powerOffDone 3) ((dev.setReg .pwrDieCtl [3] 1).setDie 3 { st := 3 }) (fun d => (d.die 3).st) = some 3 ∧
    res (.powerOn 3) (dev.setDie 3 {}) (fun d => (d.die 3).st) = some 1 ∧
    res (.powerOnDone 3) (dev.setReg .pwrDieCtl [3] 2) (·.regBit .pwrDieCtl [3] 1) = some false := by decide +kernel

/-! ### Resets and boot (R458 to R472) -/

/-- A boot that finds nothing wrong, but no compute die. -/
def find : BootFind := { layout := true, identity := true, trims := 0, bad := [], dies := [], refclk := true }

theorem test_cold_boot : ({ board := { starting := true } } : Dev).firstSlot find = some false ∧
    res (.inputSwitchCloseDelay find) { board := { starting := true, ovTrip := true } } (fun d => (d.live, d.board.booted, d.flash.a.st, d.regFld .secStatus [] 31 26)) =
      some (true, some false, 2, 0b101010) := by decide +kernel
theorem test_recovery : res (.inputSwitchCloseDelay { find with layout := false }) { board := { starting := true } }
      (fun d => (d.live, d.regBit .secStatus [] 26, d.reports.map (·.code))) = some (false, true, [0x8107]) ∧
    ({} : Dev).firstSlot { find with bad := [(false, 0)] } = none := by decide +kernel
theorem test_warm_resets : dev.firstSlot find = some false ∧ dev.tripped = false ∧
    res (.perstNAssert find) dev (fun d => (d.live, d.board.bootWait)) = some (false, some (false, false, true)) ∧
    res .perstNDeassert { dev with board := { dev.board with perst := true, bootWait := some (false, false, true) } } (fun d => (d.live, d.board.booted)) =
      some (true, some false) ∧
    res (.secReset 0x57520001 find) { dev with time := 40 } (fun d => (d.live, d.time, d.regFld .secStatus [] 2 0)) = some (true, 40, 2) ∧
    res (.secReset 0x57510001 find) { dev with slots := SMap.set ⟨[]⟩ 0 ⟨[], 0, [], [], 0⟩ } (fun d => d.slots.has 0) = some true ∧
    res (.securityWatchdog find) { dev with slots := SMap.set ⟨[]⟩ 0 ⟨[], 0, [], [], 0⟩ } (fun d => (d.slots.has 0, d.regFld .secStatus [] 2 0)) =
      some (false, 3) := by decide +kernel
theorem test_link_resets : (dev.setReg .hstLinkStatus [] 1).regBit .hstLinkStatus [] 0 = true ∧
    res (.hostLinkDown find) (dev.setReg .hstLinkStatus [] 1) (fun d => (d.live, (d.reports.map (·.code)).head?, d.regFld .secStatus [] 2 0)) = some (true, some 0x9204, 1) ∧
    res (.hotReset find) (dev.setReg .hstLinkStatus [] 1) (fun d => (d.live, d.regFld .secStatus [] 2 0)) = some (true, 1) := by decide +kernel
theorem test_no_crystal : res (.inputSwitchCloseDelay { find with xtal := false }) { board := { starting := true, ovTrip := true } }
      (fun d => (d.on, d.live, d.board.ovTrip)) = some (false, false, true) := by decide +kernel
theorem test_no_reset : res (.securityWatchdog find) { dev with board := { dev.board with perst := true } } (·.board.bootWait) = some (some (false, false, true)) ∧
    res (.securityWatchdog find) { dev with tripped := true, nextTag := 3 } (·.nextTag) = some 3 ∧
    res (.hotReset find) { dev with nextTag := 3 } (·.nextTag) = some 3 ∧
    res .perstNDeassert { dev with board := { dev.board with perst := true } } (·.board.perst) = some false := by decide +kernel
/-! ### Management (R26 to R28, R463, R464, R473, R474) -/

theorem test_taps : res (.idcode 8) dev (fun d => (d.taps.find? 8, d.out)) = some (some 1, [.mgmt 0x101 [1], .mgmt 0x100 [0x49, 0x4C, 0x82, 0x1E]]) ∧
    res (.idcode 0) dev (fun d => d.out.getLast?) = some (some (.mgmt 0x100 [0x4B, 0x4C, 0x82, 0x1E])) ∧
    res (.bypass 1) (dev.setDie 0 {}) (·.out) = some [.mgmt 0x101 [5]] ∧ res (.samplePreload 1) (dev.setDie 0 {}) (·.taps.find? 1) = some (some 0) ∧
    res (.extest 1) dev (·.taps.find? 1) = some (some 0) ∧ res (.extest 1) (dev.setReg .secStatus [] 0) (·.taps.find? 1) = some (some 3) ∧
    res (.debugInstruction 1) dev (·.taps.find? 1) = some (some 0) := by decide +kernel
theorem test_pldm : res (.entdaa 127) dev (·.i3cAddr) = some (some 127) ∧
    res (.pldmPlatformRequest (.sensor 575)) (dev.setReg .pwrSens [575] 0x80000123) (·.out) = some [.mgmt 0x120 [0x23, 0x01, 0, 0x80]] ∧
    res (.pldmPlatformRequest .event) { dev with pldm := [(0x7C01, 0xF810), (1, 2)] } (fun d => (d.out, d.pldm)) =
      some ([.mgmt 0x121 [0x01, 0x7C, 0x10, 0xF8]], [(1, 2)]) := by decide +kernel
theorem test_spdm : (dev.setReg .secStatus [] 0xA0000000).regBit .secStatus [] 29 = true ∧ (dev.setReg .secStatus [] 0xA0000000).live = true ∧
    res (.getVersion true false) dev (·.out) = some [.mgmt 4 [0x12]] ∧ res (.getVersion false true) dev (·.out) = some [.mgmt 0x7F [3]] ∧
    res (.getCapabilities false false) dev (·.out) = some [.mgmt 0x61 [0x16, 0, 0, 0]] ∧
    res (.negotiateAlgorithms false false false true) dev (·.spdmAlgs) = some (some (false, true)) ∧
    res (.negotiateAlgorithms false false false false) dev (fun d => (d.out, d.spdmAlgs)) = some ([.mgmt 0x7F [1]], none) ∧
    res (.getMeasurements false false 0 false) dev (·.out) = some [.mgmt 0x60 [11]] ∧
    res (.getMeasurements false false 12 false) dev (·.out) = some [.mgmt 0x7F [1]] := by decide +kernel
/-- SM3 of "abc", from the standard. -/
theorem test_sm3 : sm3 [0x61, 0x62, 0x63] = [0x66, 0xC7, 0xF0, 0xF4, 0x62, 0xEE, 0xED, 0xD9, 0xD1, 0xF2, 0xD4, 0x6B, 0xDC, 0x10, 0xE4, 0xE2, 0x41, 0x67, 0xC4,
    0x87, 0x5C, 0xF2, 0xF7, 0xA2, 0x29, 0x7D, 0xA0, 0x2B, 0x8F, 0x4B, 0xA8, 0xE0] := by decide +kernel
theorem test_debug : res .debugNonceRequest { dev with free := 7 } (·.nonce) = some (some 7) ∧
    res (.debugToken true) { dev with nonce := some 0 } (fun d => (d.regBit .secStatus [] 30, d.reports, d.nonce)) = some (true, [], none) ∧
    res (.debugToken true) dev (fun d => (d.regBit .secStatus [] 30, d.reports.map (·.code))) = some (false, [0x8106]) ∧
    res (.debugToken false) { dev with nonce := some 0 } (fun d => (d.reports.map (·.code), d.nonce)) = some ([0x8106], none) := by decide +kernel

/-- The first component of an update. -/
def comp : Component := { start := true, ty := 1, off := 0, size := 16, svn := 0, good := true, body := [] }

theorem test_update : dev.bootedSvn 1 = 0 ∧ res (.firmwareUpdateComponent comp) dev (fun d => (d.flash.b.seq, d.flash.b.imgs.map (·.ty), d.out)) =
      some (1, [1], [.mgmt 0x123 [0]]) ∧
    res (.firmwareUpdateComponent { comp with good := false }) dev (fun d => (d.flash.b, d.reports.map (·.code))) = some ({}, [0x8101]) ∧
    res (.firmwareUpdateComponent comp) { dev with update := some { slot := true } } (·.out) = some [.mgmt 0x123 [0x81]] ∧
    res .activateFirmware { dev with update := some { slot := true, got := [1] }, flash := { b := { imgs := [{ ty := 1, size := 16 }] } } }
      (fun d => (d.flash.b.st, d.flash.b.imgs.map (·.ty), d.update)) = some (1, [1, 2, 3, 4, 5], none) := by decide +kernel

/-! ### The host link (R339 to R352) and registers (R8, R467, R468, R477) -/

theorem test_hits : dev.bar0Loc 0 (RegName.cpSlice.addr []) = .reg (RegName.cpSlice.addr []) false ∧ regAt (RegName.cpSlice.addr []) = some (.cpSlice, []) ∧
    dev.regHidden (RegName.cpSlice.addr []) = false ∧ dev.filterRight 0 (RegName.cpSlice.addr []) = 2 ∧ RegName.cpSlice.plain = true ∧
    dev.bar0Loc 0 (RegName.cpErrStatus.addr []) = .reg (RegName.cpErrStatus.addr []) false ∧ regAt (RegName.cpErrStatus.addr []) = some (.cpErrStatus, []) := by decide +kernel
theorem test_register_write : res (.registerWrite (.bar0 0 (RegName.cpSlice.addr []) [0x34, 0x12, 0, 0])) dev (·.regFld .cpSlice [] 15 0) = some 0x1234 ∧
    res (.registerWrite (.bar0 0 (RegName.cpErrStatus.addr []) [5, 0, 0, 0])) (dev.setReg .cpErrStatus [] 6) (fun d => (d.reg .cpErrStatus []).toNat) = some 2 := by decide +kernel
theorem test_lock : res (.registerWrite (.bar0 0 (RegName.drwCfg.addr []) [3, 0, 0, 0])) (dev.setReg .drwCfg [] 0x80000001)
      (fun d => (d.regFld .drwCfg [] 1 0, d.reports.map fun r => (r.code, r.addr))) = some (1, [(0x8102, RegName.drwCfg.addr [])]) := by decide +kernel
/-- A device whose filter makes all of BAR0 but its first 4 KiB read-only, and one that hides it. -/
def filtered (right : W32) : Dev := (dev.setReg .secRafBase [0] (0x80000000 ||| right <<< 16)).setReg .secRafLimit [0] 0x3FFF
theorem test_filter : (filtered 1).filterRight 0 0x2000 = 1 ∧
    res (.registerWrite (.bar0 0 (RegName.cpSlice.addr []) [1, 0, 0, 0])) (filtered 1) (fun d => (d.regs.has (RegName.cpSlice.addr []), d.reports.map (·.code))) =
      some (false, [0x8103]) ∧
    res (.hostBar0Read 0 0x2000 4) (filtered 0) (fun d => (d.out, d.reports.map (·.code))) = some ([.completion 0 0 false [0, 0, 0, 0]], [0x8103]) := by decide +kernel
theorem test_register_reads : res (.hostBar0Read 0 (BitVec.ofNat 26 (RegName.cpSlice.addr [])) 4) (dev.setReg .cpSlice [] 0x1234) (·.out) =
      some [.completion 0 0 false [0x34, 0x12, 0, 0]] ∧ RegName.cpSlice.readClears = false ∧ RegName.cpDmSwitches.readClears = true ∧
    res (.registerReadClear 0 (BitVec.ofNat 26 (RegName.cpDmSwitches.addr []))) (dev.setReg .cpDmSwitches [] 7) (fun d => (d.out, (d.reg .cpDmSwitches []).toNat)) =
      some ([.completion 0 0 false [7, 0, 0, 0]], 0) ∧
    res (.hostBar0Read 0 0x2000 8) dev (·.reports) = some [] ∧
    res (.hostBar0Read 0 0x2004 8) dev (fun d => (d.out, d.reports.map (·.code))) =
      some ([.error 0 .unsupported .nonFatal, .completion 0 1 false []], [0x9206]) := by decide +kernel

/-- A line at its home: window 0 of 1 GiB on die 3 from address 0, its line 0 in slice 48 with bytes 0, 1, 2 and so on. -/
def line0 : SLine := { line := 0, loc := 0, valid := true, data := lineOf ((List.range 128).map fun i => BitVec.ofNat 8 i) }
def homed : Dev :=
  ((dev.setReg .hbmWinBase [0] 0x80000000).setReg .hbmWinCfg [0] 0x300).setSlice 48 { lines := SMap.set ⟨[]⟩ 0 line0 }
theorem test_homed : (homed.access .manager 0).map (fun l => (l.die, l.x, l.ro)) = some (3, 0, false) ∧ homeSlice 3 0 = 48 ∧ (homed.slice 48).find 0 = some 0 ∧
    homed.mapped .manager true 0 128 = true ∧ homed.mirOf 0 = [] ∧ homed.barOn 0 = true := by decide +kernel
theorem test_host_memory : res (.hostBar2Read 0 124 4) homed (·.out) = some [.completion 0 0 false [124, 125, 126, 127]] ∧
    res (.hostBar2Write 0 1 [0xAA] false) homed (fun d => (((d.slice 48).at 0).data.slice 0 4, ((d.slice 48).at 0).poison)) = some ([0, 0xAA, 2, 3], false) ∧
    res (.hostBar2Write 0 1 [0xAA] true) homed (fun d => (((d.slice 48).at 0).poison, d.reports.map (·.code))) = some (true, [0x9203]) ∧
    res (.hostAtomicop 0 4 4 0 1 0) homed (fun d => (d.out, ((d.slice 48).at 0).data.slice 4 4)) = some ([.completion 0 0 false [4, 5, 6, 7]], [5, 5, 6, 7]) ∧
    res (.hostAtomicop 0 4 4 2 1 0x07060504) homed (fun d => ((d.slice 48).at 0).data.slice 4 4) = some [1, 0, 0, 0] ∧
    res (.hostAtomicop 0 4 4 2 1 0) homed (fun d => ((d.slice 48).at 0).data.slice 4 4) = some [4, 5, 6, 7] := by decide +kernel
theorem test_host_turned_away : res (.hostBar2Read 0 0x40000000 4) homed (fun d => (d.out, d.reports.map (·.code))) = some ([.error 0 .unsupported .advisory, .completion 0 1 false []], [0x3101]) ∧
    res (.hostBar2Write 0 0x3FFFFFFF [1, 2] false) homed (fun d => d.reports.map (·.code)) = some [0x3101] ∧
    { homed with vfEnable := true, numVfs := 1 }.barOn 1 = true ∧
    res (.hostBar2Write 1 0 [1] false) { homed with vfEnable := true, numVfs := 1 } (fun d => d.reports.map (·.code)) = some [0x9205] := by decide +kernel
theorem test_functions : res (.bar2Resize 3 5) dev (fun d => (d.fn 8).bar2) = some 5 ∧ res (.bar2Resize 0 5) (dev.setFn 0 { memEn := true }) (fun d => (d.fn 0).bar2) = some 10 ∧
    res (.d3hotEntry 0) dev (fun d => (d.fn 0).d3) = some true ∧
    res (.d0Return 0) { dev.setFn 0 { d3 := true } with heldMsgs := [(0, .write 64 [1] false), (1, .event 0)] } (fun d => (d.out, d.heldMsgs)) =
      some ([.hostWrite 0 64 [1] false], [(1, .event 0)]) ∧
    res (.msixUnmask 0 (some 2047)) ((dev.setFn 0 { msixEn := true }).setVec 0 2047 { addr := 8, data := 9, pend := true }) (·.out) = some [.msix 0 8 9] ∧
    res (.hostLinkUp 4 6 true) dev (fun d => (d.reg .hstLinkStatus []).toNat) = some 0x100711 ∧ res (.hostLinkUp 4 5 false) dev (fun d => (d.reg .hstLinkStatus []).toNat) = some 0 ∧
    res (.linkCorrectableError .fec) dev (fun d => (d.reports.map (·.code), d.regFld .hstCeCount [] 31 16)) = some ([0x9201], 1) ∧
    res (.malformedTlp 1 false true) dev (·.out) = some [.error 1 .unsupported .nonFatal, .completion 1 1 false []] ∧
    res (.malformedTlp 1 true false) (dev.setFn 1 { aerMask := [.malformed] }) (fun d => (d.out, (d.fn 1).aer)) = some ([], [.malformed]) := by decide +kernel
/-- A bit that the device has set in the same tick outlasts its clearing. -/
theorem test_w1c_fresh : res (.registerWrite (.bar0 0 (RegName.cpErrStatus.addr []) [6, 0, 0, 0])) ((dev.setReg .cpErrStatus [] 2).setRegBit .cpErrStatus [] 2)
      (fun d => (d.reg .cpErrStatus []).toNat) = some 4 := by decide +kernel
theorem test_read_uses : res (.hostBar2Read 0 124 4) homed (fun d => decide (d = { homed.usedAt 48 0 with out := [.completion 0 0 false [124, 125, 126, 127]] })) =
    some true := by decide +kernel
/-- A read waits behind a posted write of its function. -/
theorem test_host_waits : ({ homed with hostWait := [.write 0 0 [1] false] } : Dev).writesWait 0 = true ∧
    res (.hostBar2Read 0 128 4) { homed with hostWait := [.write 0 0 [1] false] } (fun d => (d.hostWait.length, d.out)) = some (2, []) := by decide +kernel
/-! ### Instances and drawers (R343 to R345, R353 to R366) -/

theorem test_rings : res (.drawerTailWrite 7 true 16) dev (fun d => (d.ringTail 7 true, d.reports)) = some (16, []) ∧
    res (.drawerTailWrite 0 false 17) dev (fun d => (d.ringTail 0 false, d.reports.map (·.code))) = some (0, [0x9301]) ∧
    res (.drawerHeadWrite 0 false 4) (dev.setReg .drwDnTail [0] 4) (fun d => (d.ringHead 0 false, d.reports)) = some (4, []) ∧
    res (.drawerHeadWrite 0 false 5) (dev.setReg .drwDnTail [0] 4) (fun d => (d.ringHead 0 false, d.reports.map (·.code))) = some (0, [0x9301]) ∧
    res (.drawerSlotWrite 0 false 4 15 9) (dev.setReg .drwDnTail [0] 4) (fun d => (d.reg .drwDnSlot [0, 4, 15]).toNat) = some 9 ∧
    res (.drawerSlotWrite 0 false 3 15 9) (dev.setReg .drwDnTail [0] 4) (fun d => d.reports.map (·.code)) = some [0x9302] := by decide +kernel
/-- Instance 0 of eight with a resident context, a filled slot and a command running on queue 5. -/
def busyInst : Dev :=
  { (dev.setReg .drwCfg [] 3).setBench 9 { ctxs := SMap.set ⟨[]⟩ 3 { valid := true, prog := 15 } } with
    queues := SMap.set ⟨[]⟩ 5 { run := some { seq := 0, pkt := [] } }
    slots := SMap.set ⟨[]⟩ 15 ⟨[], 0, [], [], 1⟩ }
theorem test_instance_reset : busyInst.instWork 0 = true ∧ 0 < busyInst.instN ∧ busyInst.instBusyReset 0 = false ∧
    res (.instanceReset 0 false) busyInst (fun d => (d.regFld .drwInstStatus [0] 1 0, d.reports.map (·.code), d.slots.has 15)) = some (2, [0x9303], true) ∧
    res (.instanceResetDone 0) (dev.setReg .drwInstStatus [0] 0xFFFE0001) (fun d => (d.reg .drwInstStatus [0]).toNat / 65536) = some 0xFFFF := by decide +kernel
theorem test_instance_reset_forced : res (.instanceReset 0 true) busyInst (fun d => (d.regBit .drwInstStatus [0] 0, (d.bench 9).ctxs.cells.map (·.2.valid), d.slots.has 15,
    d.queues.has 5)) = some (true, [false], false, false) := by decide +kernel
theorem test_virtual_functions : res (.numvfsWrite 3) dev (·.numVfs) = some 1 ∧ res (.numvfsWrite 0) { dev with vfEnable := true, numVfs := 1 } (·.numVfs) = some 1 ∧
    { dev with vfEnable := true, numVfs := 1 }.vfOn 0 = true ∧
    res (.vfFlr 0) { dev with vfEnable := true, numVfs := 1 } (fun d => ((d.fn 1).flr, (d.reg .drwUpNotice [0, 0]).toNat, d.regBit .drwUpPend [0] 0)) =
      some (true, 0x00018004, true) ∧
    res .vfEnableClear { dev with vfEnable := true, numVfs := 1 } (fun d => (d.vfEnable, (d.fn 1).flr)) = some (false, true) ∧
    res .vfEnableSet dev (·.vfEnable) = some true ∧
    comes (·.flrDue 7) ((dev.setReg .drwCfg [] 3).setFn 8 { flr := true }) = true ∧
    res (.flrHoldExpiry 7) ((dev.setReg .drwCfg [] 3).setFn 8 { flr := true }) (·.regBit .drwInstStatus [7] 0) = some true ∧
    res .pfFlr ((dev.setFn 0 { msixEn := true }).setReg .cpQcfg [511] 0xC0000000) (fun d => ((d.fn 0).msixEn, d.queueEn 511)) = some (false, false) := by decide +kernel
theorem test_flr_hold : comes (·.flrDue 0) (busyInst.setFn 1 { flr := true, flrEnd := 300 }) = true ∧
    res (.flrHoldExpiry 0) (busyInst.setFn 1 { flr := true, flrEnd := 300 }) (fun d => (d.ticks, d.regBit .drwInstStatus [0] 0)) = some (300, true) := by decide +kernel
/-! ### Fault collectors (R392 to R406) -/

def rep (c m : Nat) : Report := { code := c, master := m, access := 1, addr := 5, inst := none, die := none }

theorem test_fault_records : res (.faultReport 1) { dev with reports := [rep 0x3205 0x0012, rep 1 2] } (fun d =>
      (d.reports, d.fcWord .dev 3 0, (d.fcWord (.die 0) 3 1).toNat, d.fcWord (.view 0) 3 6)) = some ([rep 1 2], 0x00123205#32, 0x80000101, 1#32) ∧
    res (.faultReport 1) { ({ dev with reports := [rep 0x3205 0x0012] } : Dev).setFcWord .dev 3 1 0x80FF0001 with time := 9 } (fun d =>
      ((d.fcWord .dev 3 1).toNat, d.fcWord .dev 3 4)) = some (0x81000101, 9#32) ∧
    res (.faultReport 1) ((({ dev with reports := [rep 0x3205 0x0012] } : Dev).setFcWord .dev 3 1 0x80FF0101).setFcWord .dev 3 6 65535) (fun d =>
      ((d.fcWord .dev 3 1).toNat, (d.fcWord .dev 3 6).toNat)) = some (0x80FF0101, 65535) ∧
    res (.faultRecordClear (.view 2) 3) ((dev.setFcWord (.view 2) 4 6 7).setFcWord .dev 4 6 7) (fun d => (d.fcWord (.view 2) 4 6, d.fcWord .dev 4 6)) =
      some (0#32, 7#32) := by decide +kernel
theorem test_line_faults : homeClass 0xF880 = some 6 ∧
    res (.linePairInvalid (.source 0xF880)) dev (fun d => (d.lineFault, d.fcWord .dev 6 0, d.fcWord .dev 6 6)) = some ([0xF880], 0xF8806E01#32, 1#32) ∧
    res (.lineAssertTimeout 0xF880) { dev with lineFault := [0xF880] } (·.lineFault) = some [0xF880] ∧
    res (.linePairInvalid (.path 3)) dev (·.regBit .fcDieSum [] 11) = some true ∧
    res .reportLostTimeout { dev with reports := [rep 1 0, { rep 0x6101 0xF881 with seen := some 3 }] } (fun d => (d.reports, d.fcWord .dev 6 0)) =
      some ([rep 1 0], 0xF8816E03#32) ∧
    res (.linePairValidAgain 5) { dev with lineFault := [4, 5] } (·.lineFault) = some [4] := by decide +kernel

/-- A device whose source `i` has its quiet period, and has returned `n` times just now. -/
def quietDev (i n : Nat) : Dev := { dev with quiet := SMap.set ⟨[]⟩ i 0, returns := SMap.set ⟨[]⟩ i (List.replicate n 0) }

theorem test_recovery_sensor : res (.recoveryQuietExpiry 256) { quietDev 256 7 with pwr := { therm := SMap.set ⟨[]⟩ 0 1 } } (fun d =>
      (d.pwr.therm.find? 0, d.regFld .fcRcv [256] 15 0, d.rcvLatched 256)) = some (none, 1, false) ∧
    res (.recoveryQuietExpiry 256) { quietDev 256 8 with pwr := { therm := SMap.set ⟨[]⟩ 0 1 } } (fun d =>
      (d.pwr.therm.find? 0, d.rcvLatched 256, d.fcWord .dev 7 0)) = some (some 1, true, 0xF8707E02#32) := by decide +kernel
theorem test_recovery_port : res (.recoveryQuietExpiry 7) ((quietDev 7 7).setPort 7 { st := 4 }) (fun d => (d.port 7).st) = some 2 ∧
    res (.recoveryQuietExpiry 7) ((quietDev 7 8).setPort 7 { st := 4 }) (fun d => ((d.port 7).st, d.fcWord .dev 6 0)) = some (5, 0xF8876E02#32) := by
  decide +kernel
theorem test_recovery_module : modRcv 1 2 = 58 ∧ siteFacing 1 2 = some 8 ∧
    res (.recoveryQuietExpiry 58) (quietDev 58 0) (fun d => (d.mod 1 2).training) = some true ∧
    res (.recoveryQuietExpiry 58) (quietDev 58 15) (fun d => ((d.mod 1 2).training, d.rcvLatched 58)) = some (false, true) := by decide +kernel
theorem test_release : res (.latchRelease (.modules 1)) ((dev.setRegBit .fcRcv [58] 31).setReg .datErrStatus [1] 4) (fun d =>
      (d.rcvLatched 58, (d.mod 1 2).training, d.regBit .datErrStatus [1] 2)) = some (false, true, false) ∧
    res (.latchRelease .ports) ((dev.setRegBit .fcRcv [7] 31).setPort 7 { st := 5, why := 5 }) (·.rcvLatched 7) = some false := by decide +kernel
theorem test_recovery_time : comes (·.quiet.find? 256) (quietDev 256 7) = true ∧
    res (.recoveryQuietExpiry 256) { quietDev 256 7 with quiet := SMap.set ⟨[]⟩ 256 50 } (fun d => (d.ticks, d.time, d.quiet.has 256)) = some (50, 1000, false) := by
  decide +kernel
theorem test_record_clear_tie : res (.faultRecordClear .dev 2) { dev with caught := [rep 0x3205 0x0012, rep 0x3101 3] } (fun d =>
      (d.fcValid .dev 3, (d.fcWord .dev 3 6).toNat)) = some (true, 2) := by decide +kernel
theorem test_release_fresh : res (.latchRelease .ports) (dev.setRegBit .fabErrStatus [] 0) (·.regBit .fabErrStatus [] 0) = some true := by decide +kernel
/-- An HBM sensor that still throttles raises its cause again. -/
def hot : Dev := { dev with pwr := { therm := ⟨[(536, 1)]⟩ } }
theorem test_release_held : res (.latchRelease (.sensors true)) (hot.setReg .pwrErrStatus [] 32) (fun d =>
      (d.regBit .pwrErrStatus [] 5, d.reports.map (·.code))) = some (true, [0x7203]) := by decide +kernel
theorem test_release_sensor : res (.latchRelease (.sensors true)) ((({ dev with pwr := { therm := ⟨[(0, 1), (536, 2)]⟩ } } : Dev).setRegBit .fcRcv [792] 31)
    |>.setRegBit .fcRcv [256] 31) (fun d => (d.rcvLatched 792, d.rcvLatched 256, d.pwr.therm.cells)) = some (false, true, [(0, 1)]) := by decide +kernel

/-! ### Die attach and the networks (R211 to R250) -/

/-- A device with a context on bench 600, of die 1. -/
def held : Dev := dev.setBench 600 { ctxs := SMap.set ⟨[]⟩ 1 { valid := true } }

theorem test_fences : res (.clockMonitorTrip 1) held (fun d => ((d.die 1).st, (d.die 0).st, ((d.bench 600).ctxN 1).killed, d.regBit .datClkStatus [] 9,
      d.reports.map (·.code))) = some (3, 2, true, true, [0x5106]) := by decide +kernel
theorem test_fence_link : res (.linkMonitorTrip 1) held (fun d => ((d.die 1).st, d.reports.map (·.master))) = some (3, [0xF851]) := by decide +kernel
theorem test_fence_asked : res (.dieFenceRequest 1) held (fun d => ((d.die 1).st, d.reports)) = some (3, []) := by decide +kernel
theorem test_fenced_trips : res (.clockMonitorTrip 1) (held.setDie 1 { st := 3 }) (fun d => ((d.die 1).st, (d.die 1).linkFence, d.regBit .datClkStatus [] 9,
      d.reports.map (·.code))) = some (3, true, true, [0x5106]) ∧
    res (.linkMonitorTrip 1) (held.setDie 1 { st := 3 }) (fun d => ((d.die 1).linkFence, d.reports.map (·.code))) = some (true, [0x5107]) := by decide +kernel
theorem test_control_flit : res (.controlFlitReceive 1 9) held (fun d => ((d.die 1).st, d.reports.map (·.code))) = some (3, [0x4201, 0x4201, 0x4201, 0x4202]) ∧
    res (.controlFlitReceive 1 2) held (fun d => ((d.die 1).st, d.regFld .netCeCount [1] 31 16)) = some (2, 2) := by decide +kernel

/-- The first 60 bytes of a capability record: magic, version 1, type 0x10, revision 1, and SITES with S0 alone. -/
def record60 : List Byte := leBytes 0x52435A45 4 ++ leBytes 1 2 ++ [0, 0, 0x10, 0, 0, 1] ++ leBytes 0x40 4 ++ List.replicate 44 0
def goodLink : LinkUpFind := { pll := true, record := some (record60 ++ leBytes (crc32 record60) 4), trained := 0xFFFFFF }
def upDev : Dev := held.setDie 1 { st := 1, stopped := true }

/-- The check value of CRC-32 over the digits 1 to 9. -/
theorem test_crc32 : crc32 [0x31, 0x32, 0x33, 0x34, 0x35, 0x36, 0x37, 0x38, 0x39] = 0xCBF43926 := by decide +kernel
theorem test_link_up : LinksUp upDev 1 goodLink ∧ res (.dieLinkUp 1 goodLink) upDev (fun d => ((d.die 1).st, (d.die 1).stopped, d.reg .datCap [1, 3])) =
    some (2, false, 0x40#32) :=
  ⟨⟨by decide, record60 ++ leBytes (crc32 record60) 4, rfl, by decide +kernel, by decide +kernel, 6, by decide +kernel⟩, by decide +kernel⟩
theorem test_link_up_fails : res (.dieLinkUp 1 { goodLink with pll := false }) upDev (fun d => ((d.die 1).st, d.reports.map (·.code))) = some (3, [0x5106]) ∧
    res (.dieLinkUp 1 { goodLink with record := none }) upDev (fun d => ((d.die 1).st, d.reports.map (·.code))) = some (3, [0x5105]) ∧
    res (.dieLinkUp 1 { goodLink with record := some record60 }) upDev (fun d => ((d.die 1).st, d.reports.map (·.code))) = some (3, [0x5105]) := by decide +kernel
theorem test_reseat : res (.reseat 1) (held.clrRegBit .datCtl [1] 2) (fun d => (d.reseat, (d.die 1).st, ((d.bench 600).ctxN 1).killed)) = some (some (1, false), 4, true) := by
  decide +kernel
theorem test_reseat_refused : res (.reseat 1) (held.setRegBit .datCtl [1] 2) (fun d => (d.reseat, d.regBit .datState [1] 19)) = some (none, true) ∧
    res (.reseat 1) { held with reseat := some (2, false) } (·.reseats) = some [1] := by decide +kernel
theorem test_reseat_orderly : res (.reseat 1) { held.setRegBit .datCtl [1] 2 with quiesced := [dev.instOfDie 1] } (·.reseat) = some (some (1, true)) := by
  decide +kernel
theorem test_reseat_done : res (.reseatDone true goodLink) { upDev with reseat := some (1, false), hbm := ⟨[(5, 6), (2 ^ 37 + 5, 7)]⟩ } (fun d =>
      (d.hbm.cells, (d.die 1).st, d.bench 600 == {}, d.regFld .datState [1] 15 8, d.regBit .datState [1] 18)) = some ([(5, 6)], 2, true, 1, true) := by
  decide +kernel
theorem test_reseat_fails : res (.reseatDone false goodLink) { upDev with reseat := some (1, true), hbm := ⟨[(2 ^ 37 + 5, 7)]⟩ } (fun d =>
      (d.hbm.cells.length, (d.die 1).st, d.regBit .datErrStatus [1] 8)) = some (1, 3, true) := by decide +kernel

/-- A request of die 0's bay 0 to die 1's slice 16, and the module of die 1 that brings it: W-edge site 0 toward die 0. -/
def crossing : Msg := { kind := .rds, src := .bay 0, dst := .slice 16 }
def linked : Dev := { ((dev.putModUp 1 18 1).putModUp 1 2 1) with modLists := ⟨[(listKey 1 0, [18]), (listKey 1 8, [2])]⟩, net := [crossing] }

theorem test_flit : linked.comesBy 1 18 true crossing = true ∧ linked.modUp 1 18 = true ∧
    takeBest (linked.comesBy 1 18 true) linked.exitKey linked.net = some (crossing, []) ∧
    res (.gatewayFlitReceive 1 18 true ⟨.bulk, .ok⟩) linked (·.net.map (·.ready)) = some [true] ∧
    res (.gatewayFlitReceive 1 18 true ⟨.bulk, .corrected⟩) linked (fun d => (d.reports.map (·.code), d.regFld .datCount [1] 15 0)) = some ([0x5101], 1) ∧
    res (.gatewayFlitReceive 1 18 true ⟨.bulk, .uncorrectable⟩) linked (fun d => ((d.mod 1 18).askIn, d.net.map (·.ready))) = some (true, [false]) ∧
    res (.gatewayFlitReceive 1 18 true ⟨.bulk, .uncorrectable⟩) (linked.setMod 1 18 { failsIn := 4 }) (fun d => (d.modUp 1 18, d.modUp 0 12, d.reports.map (·.code))) =
      some (false, false, [0x5103, 0x510A]) := by decide +kernel
theorem test_beats : (linked.beatSite 1 false, linked.beatSite 1 true, linked.beatComes 1 false true) = (some 2, some 2, true) ∧
    res (.gatewayFlitReceive 1 2 true ⟨.control, .corrected⟩) linked (fun d => (d.reports.map (·.code), d.net.map (·.ready))) = some ([0x5101], [false]) ∧
    res (.gatewayFlitReceive 1 2 true ⟨.control, .uncorrectable⟩) linked (fun d => (d.mod 1 2).askIn) = some true := by decide +kernel
theorem test_hub : res (.gatewayFlitReceive 0 6 false ⟨.bulk, .ok⟩) { (dev.putModUp 0 6 1) with
      modLists := ⟨[(listKey 0 8, [6])]⟩, net := [{ crossing with dst := .slice 48 }] } (·.net.map fun m => (m.hub, m.gw)) = some [(true, false)] := by decide +kernel
theorem test_replay : res (.linkReplay 1 2 true) (linked.setMod 1 2 { askIn := true }) (fun d => ((d.mod 1 2).askIn, d.regFld .datCount [1] 31 16)) =
      some (false, 1) := by decide +kernel
theorem test_training : res (.moduleTrainingDone 1 2 true) (dev.setMod 1 2 { training := true }) (fun d =>
      (d.modUp 1 2, d.listPend.has (listKey 1 8), d.regFld .fcRcv [58] 15 0)) = some (true, true, 1) ∧
    res (.moduleTrainingDone 1 2 false) (linked.setMod 1 2 { training := true }) (fun d => (d.modUp 1 2, d.reports.map (·.code))) = some (false, [0x5104]) ∧
    res (.moduleListApply 1 8) { linked with modLists := ⟨[]⟩, listPend := SMap.set ⟨[]⟩ (listKey 1 8) () } (·.modList 1 8) = some [2] := by decide +kernel

theorem test_epoch : res (.epochStart 1) { dev with dies := SMap.set ⟨[]⟩ 1 { st := 2, cyc10 := 10240 }, spent := ⟨[(2048, 5), (4096, 5)]⟩ } (fun d =>
      (d.cycle 1, (d.die 1).budget, d.spent.cells)) = some (2048, 0x1018180A#32, [(4096, 5)]) := by decide +kernel
theorem test_ejection : (({ kind := .benchRead, src := .bench 3, dst := .bay 0 } : Msg).ejects = true) ∧
    ([.ok, .single, .payload, .header] : List FlitFind).map (fun f => res (.bulkFlitEject 0 f) { dev with net := [{ kind := .benchRead, src := .bench 3, dst := .bay 0 }] }
      (fun d => (d.reports.map (·.code), d.net.map fun m => (m.kind, m.poison)))) =
    [some ([], [(.benchRead, false)]), some ([0x4101], [(.benchRead, false)]), some ([0x4102], [(.benchRead, true)]), some ([0x4102], [(.lineRsp, true)])] := by decide +kernel
/-! ### The jig core (R38, R55, R177 to R185) -/

/-- A device whose bench 0 runs context 0 with the instruction `w` at its program counter 0, and registers j1 to j3. -/
def jig (w j1 j2 : Nat) (j3 : Nat := 0) : Dev := dev.setBench 0 { (({} : Bench).setJ 1 (BitVec.ofNat 32 j1)).setJ 2 (BitVec.ofNat 32 j2) |>.setJ 3 (BitVec.ofNat 32 j3) with
  running := true
  ctxs := SMap.set ⟨[]⟩ 0 { valid := true, istrSize := 1, partSize := 1 }
  istore := Mem.empty.writeN 0 8 w }
/-- Formats R and I of R180. -/
def encR (op rd rs1 rs2 fn : Nat) : Nat := op + 64 * rd + 2048 * rs1 + 65536 * rs2 + 2097152 * fn
def encI (op rd rs1 imm : Nat) : Nat := op + 64 * rd + 2048 * rs1 + 65536 * imm
/-- Register j3 and the program counter after a command. -/
def j3 (c : Instr) (d : Dev) : Option (Nat × Nat) := res c d fun d => (((d.bench 0).j 3).toNat, (d.bench 0).pc)

theorem test_jig_ready : JigReady (jig (encI 2 3 1 5) 7 0) 0 .ok (BitVec.ofNat 64 (encI 2 3 1 5)) :=
  ⟨by decide +kernel, by decide +kernel, by decide +kernel, by decide +kernel, by decide +kernel, by decide +kernel, by decide⟩
/-- R183: shifts, signed and unsigned compares and products, and the four division corners. -/
theorem test_alu : ([(7, 0x80000000, 33), (8, 0xFFFFFFFF, 1), (9, 0xFFFFFFFF, 1), (17, 0xFFFFFFFF, 2), (18, 0xFFFFFFFF, 2), (20, 7, 0), (22, 7, 0), (20, 0x80000000, 0xFFFFFFFF),
      (22, 0x80000000, 0xFFFFFFFF), (22, 0xFFFFFFF9, 2)] : List (Nat × Nat × Nat)).map (fun q => (j3 (.alu 0 .ok) (jig (encR 1 3 1 2 q.1) q.2.1 q.2.2)).map (·.1)) =
    [0xC0000000, 1, 0, 0xFFFFFFFF, 1, 0xFFFFFFFF, 7, 0x80000000, 0, 0xFFFFFFFF].map some := by decide +kernel
theorem test_immediates : j3 (.addi 0 .ok) (jig (encI 2 3 1 0xFFFF) 7 0) = some (6, 4) ∧ j3 (.andi 0 .ok) (jig (encI 3 3 1 0xFFFF) 0x12345678 0) = some (0x5678, 4) ∧
    j3 (.ori 0 .single) (jig (encI 4 3 1 0x8000) 1 0) = some (0x8001, 4) ∧ j3 (.xori 0 .ok) (jig (encI 5 3 1 0xFFFF) 0xFFFF 0) = some (0, 4) ∧
    j3 (.slti 0 .ok) (jig (encI 6 3 1 0xFFFF) 0xFFFFFFFE 0) = some (1, 4) ∧ j3 (.sltiu 0 .ok) (jig (encI 7 3 1 0xFFFF) 0xFFFFFFFE 0) = some (1, 4) := by decide +kernel
theorem test_shifts : j3 (.shi 0 .ok) (jig (encR 8 3 1 4 2) 0x80000000 0) = some (0xF8000000, 4) ∧ j3 (.shi 0 .ok) (jig (encR 8 3 1 4 1) 0x80000000 0) = some (0x08000000, 4) ∧
    j3 (.lui 0 .ok) (jig (9 + 64 * 3 + 2048 * 5) 0 0) = some (10240, 4) ∧
    j3 (.rdcyc 0 .ok) ((jig (encR 0x1B 3 0 2 0) 0 0).setDie 0 { st := 2, cyc10 := 57 }) = some (5, 4) ∧
    j3 (.addi 0 .ok) (jig (encI 2 0 1 5) 7 0) = some (0, 4) := by decide +kernel
theorem test_branches : (j3 (.jigBranch 0 .ok) (jig (encI 0x13 2 1 3) 5 5)).map (·.2) = some 12 ∧ (j3 (.jigBranch 0 .ok) (jig (encI 0x13 2 1 3) 5 6)).map (·.2) = some 4 ∧
    (j3 (.jigBranch 0 .ok) (jig (encI 0x15 2 1 0xFFFF) 0xFFFFFFFF 6)).map (·.2) = some 0xFFFFFFFC ∧
    (j3 (.jigBranch 0 .ok) (jig (encI 0x18 2 1 3) 0xFFFFFFFF 6)).map (·.2) = some 12 ∧
    j3 (.jal 0 .ok) (jig (0x19 + 64 * 3 + 2048 * 16) 0 0) = some (4, 64) ∧ j3 (.jalr 0 .ok) (jig (encI 0x1A 3 1 0xFFFC) 20 0) = some (4, 16) := by decide +kernel
theorem test_system : res (.sysNop 0 .ok) (jig 0x1B 0 0) (fun d => ((d.bench 0).pc, (d.bench 0).ended)) = some (4, false) ∧
    res (.endOp 0 .ok) (jig (encR 0x1B 0 0 1 0) 0 0) (fun d => ((d.bench 0).pc, (d.bench 0).ended)) = some (0, true) ∧
    res (.sysFence 0 .ok false) (jig (0x1B + 65536 * 3 + 2 ^ 21 + 2 ^ 23) 0 0) (fun d => ((d.bench 0).pc, (d.bench 0).wait)) = some (4, .none) ∧
    res (.cwait 0 .ok) (jig (0x1C + 64 * 5 + 1024 + 2048 + 65536 * 3) 0xFFFFE 0) (fun d => ((d.bench 0).pc, (d.bench 0).wait)) =
      some (4, .counter 5 1 true) := by decide +kernel
/-- A target is reached once the counter has passed it by less than 2^15. -/
theorem test_counter_wait : res (.cwaitExit 0) ((jig 0 0 0).modBench 0 fun x => { x with wait := .counter 5 32769 true }) (fun d => ((d.bench 0).wait, d.cycle 0)) =
      some (.none, 8) ∧
    res (.cwaitExit 0) ((jig 0 0 0).modBench 0 fun x => { x with wait := .counter 5 32768 true }) (fun d => (d.bench 0).wait) = some (.counter 5 32768 true) ∧
    comesAt 0 (fun d => some (d.counterDue 0)) ((jig 0 0 0).modBench 0 fun x => { x with wait := .counter 5 1 true }) = true ∧
    res (.counterWaitTimeout 0) ((jig 0 0 0).modBench 0 fun x => { x with wait := .counter 5 1 true }) (fun d =>
      ((d.bench 0).running, ((d.bench 0).ctxN 0).killCause, d.reports.map (·.master))) = some (false, 0x1103, [0]) := by decide +kernel
theorem test_fetch_faults : res (.addi 0 .ok) ((jig (encI 2 3 1 5) 7 0).modBench 0 fun x => { x with pc := 1022 }) (fun d => d.reports.map fun r => (r.code, r.addr)) =
      some [(0x1605, 1022)] ∧
    res (.tm 0 .ok) ((jig (encI 2 3 1 5) 7 0).modBench 0 fun x => { x with pc := 1024 }) (fun d => d.reports.map fun r => (r.code, r.addr)) = some [(0x1605, 1024)] ∧
    res (.addi 0 .double) (jig (encI 2 3 1 5) 7 0) (fun d => d.reports.map (·.code)) = some [0x2107] ∧
    res (.addi 0 .ok) ((jig (0x30 * 2 ^ 32) 7 0).modBench 0 fun x => { x with pc := 4 }) (fun d => d.reports.map (·.code)) = some [0x1604] ∧
    res (.jal 0 .ok) (jig (encR 1 3 1 2 14) 7 0) (fun d => d.reports.map (·.code)) = some [0x1601] := by decide +kernel

/-- Bench 0 has `w` at hand, its pair j2, j3 addresses local store (or device memory), and its partition holds bytes 0x80, 0x81, ... -/
def jigMem (w a : Nat) (far : Bool := false) : Dev := (jig w 0xDDCCBBAA a (if far then 0 else 0x8000)).modBench 0 fun x =>
  { x with tile := x.tile.writeBytes 0 ((List.range 16).map fun i => BitVec.ofNat 8 (0x80 + i)) }
/-- Register j1, the program counter, what is in flight and the causes after a command. -/
def seen (c : Instr) (d : Dev) : Option (Nat × Nat × List MsgKind × List Nat) :=
  res c d fun d => (((d.bench 0).j 1).toNat, (d.bench 0).pc, d.net.map (·.kind), d.reports.map (·.code))

theorem test_load_enters : Enters (jigMem (encI 0x0A 1 2 0) 4) 0 { dev := false, first := 4, last := 7, wr := false, l1 := false } 0
    ((jigMem (encI 0x0A 1 2 0) 4).sbTry 0 none { dev := false, first := 4, last := 7, wr := false, l1 := false }).2 := Prod.ext (by decide +kernel) rfl
theorem test_loads :
    [seen (.jigLoad 0 .ok .ok false) (jigMem (encI 0x0A 1 2 1) 4),
      seen (.jigLoad 0 .ok .ok false) (jigMem (encI 0x0B 1 2 0xFFFF) 4),
      seen (.jigLoad 0 .ok .ok false) (jigMem (encI 0x0C 1 2 0) 4),
      seen (.jigLoad 0 .ok .ok false) (jigMem (encI 0x0D 1 2 0) 4),
      seen (.jigLoad 0 .ok .single false) (jigMem (encI 0x0E 1 2 0) 4)] =
    [some (0x87868584, 4, [], []), some (0xFFFF8382, 4, [], []), some (0x8584, 4, [], []), some (0xFFFFFF84, 4, [], []), some (0x84, 4, [], [0x2101])] := by decide +kernel
theorem test_load_faults :
    [seen (.jigLoad 0 .ok .double false) (jigMem (encI 0x0A 1 2 0) 4),
      seen (.jigLoad 0 .ok .ok false) (jigMem (encI 0x0A 1 2 0) 65536),
      seen (.jigLoad 0 .ok .ok false) ((jigMem (encI 0x0A 1 2 0) 0).modBench 0 fun x => x.setJ 3 0x9000)] =
    [some (0xDDCCBBAA, 0, [], [0x2102]), some (0xDDCCBBAA, 0, [], [0x1101]), some (0xDDCCBBAA, 0, [], [0x1102])] := by decide +kernel
theorem test_load_far : seen (.jigLoad 0 .ok .ok false) (jigMem (encI 0x0A 1 2 0) 0x104 true) = some (0xDDCCBBAA, 4, [.benchRead], []) ∧
    seen (.jigLoad 0 .ok .ok false) ((jigMem (encI 0x0A 1 2 0) 0x104 true).modBench 0 fun x =>
      { x with split := 1, tile := x.tile.writeBytes (917504 + 2052) [1, 2, 3, 4], l1 := SMap.set ⟨[]⟩ 16 { line := 2, poison := none } }) =
      some (0x04030201, 4, [], []) := by decide +kernel
theorem test_stores : res (.jigStore 0 .ok .ok false false) (jigMem (encI 0x10 1 2 0) 4) (fun d => (leNat ((d.bench 0).tile.readBytes 2 6), (d.bench 0).pc)) =
      some (0x8786BBAA8382, 4) ∧
    res (.jigStore 0 .ok .ok false false) (jigMem (encI 0x0F 1 2 0) 0x104 true) (fun d => ((d.bench 0).merge.map fun e => (e.line, leNat (Line.slice e.data 4 4), e.be.toNat))) =
      some [(2, 0xDDCCBBAA, 0xF0)] ∧
    seen (.jigStore 0 .ok .ok false false) (jigMem (encI 0x11 1 2 0) 65536) = some (0xDDCCBBAA, 0, [], [0x1101]) := by decide +kernel
theorem test_prefetch : seen (.pf 0 .ok) (jigMem (encI 0x12 0 2 0) 65536) = some (0xDDCCBBAA, 4, [], []) ∧
    seen (.pf 0 .ok) (jigMem (encI 0x12 0 2 0) 0x104 true) = some (0xDDCCBBAA, 4, [.benchRead], []) ∧
    res (.pf 0 .ok) ((jigMem (encI 0x12 0 2 0) 0x104 true).modBench 0 fun x => { x with infeed := List.replicate 8 { line := 9, held := true, data := 0, poison := none } })
      (fun d => (d.net, d.reg .bchPfDrop [0])) = some ([], 1#32) := by decide +kernel

/-! ### The bench's buffers, tile mover and slots (R46 to R54, R168) -/

/-- Bench 0 runs context 0 with a 64 KiB partition whose bytes 0 to 255 are their own offsets, and L1 split 1. -/
def bench0 : Bench := { running := true, split := 1, ctxs := SMap.set ⟨[]⟩ 0 { valid := true, istrSize := 1, partSize := 1, prog := 3, slots := [⟨16, 130, 5, 64, 1, 2⟩] },
                        tile := Mem.empty.writeBytes 0 ((List.range 256).map (BitVec.ofNat 8)) }
def onBench (x : Bench) (net : List Msg := []) : Dev := { dev.setBench 0 x with net := net }

def fillBench : Bench := { bench0 with
  wait := .load 260 2 false 1 7
  fills := [{ line := 2, infeed := false, jig := true, plane := false, ctx := 0, gen := 0, sent := true, void := false, ovData := 0xEE00000000#1024, ovBe := 0x10 }] }
theorem test_fill : res (.lineFillArrival 0) (onBench fillBench [{ kind := .lineRsp, src := .bay 0, dst := .bench 0, line := 2, data := 0xAABBCCDDEEFF#1024 }]) (fun d =>
      (d.net.length, (d.bench 0).wait, (d.bench 0).j 1, (d.bench 0).l1Find 2, leNat ((d.bench 0).tile.readBytes (917504 + 2048 + 4) 2))) =
    some (0, .none, 0xAAEE#32, some 16, 0xAAEE) := by decide +kernel

def mergeBench : Bench := { bench0 with
  merge := [{ id := 4, line := 2, data := 9, be := 1, draining := false, sbs := [7] }]
  sb := [{ id := 7, dev := true, fabric := false, first := 256, last := 383, wr := true, l1 := true, done := false, ctx := 0, group := none, atomic := false }] }
theorem test_drain : res (.mergeBufferIdleDrain 0 false) (onBench mergeBench) (fun d => (d.net.map fun m => [m.line, m.data.toNat, m.be.toNat, m.tag], (d.bench 0).merge.map (·.draining))) =
      some ([[2, 9, 1, 4]], [true]) ∧
    comesAt 0 (·.idleFirst 0) (onBench mergeBench) = true ∧
    res (.mergeBufferDrainAck 0) (onBench mergeBench [{ kind := .writeAck, src := .bay 0, dst := .bench 0, line := 2, tag := 4 }]) (fun d =>
      ((d.bench 0).merge.length, (d.bench 0).sb.map (·.done))) = some (0, [true]) ∧
    res (.scoreboardRetire 0) (onBench (mergeBench.sbDone [7])) (fun d => (d.bench 0).sb.length) = some 0 := by decide +kernel

theorem test_drain_high : res (.mergeBufferDrainAck 0) (onBench { bench0 with
      merge := (List.range 13).map fun i => { id := i, line := i, data := 0, be := 1, draining := i == 4, sbs := [] } }
      [{ kind := .writeAck, src := .bay 0, dst := .bench 0, line := 4, tag := 4 }]) (fun d =>
      ((d.bench 0).merge.map (·.draining), d.net.map (·.tag))) = some (true :: List.replicate 11 false, [0]) := by decide +kernel

/-- TM with the descriptor registers j8 to j15: two rows of 4 bytes from offset 8, stride 16, to `dst`, stride 32, on counter 5. -/
def tmBench (dst dstHi len : Nat) : Bench :=
  { ([8, 0x8000, dst, dstHi, len, 2, 16, 32].zipIdx.foldl (fun x q => x.setJ (8 + q.2) (BitVec.ofNat 32 q.1)) bench0) with
    istore := Mem.empty.writeN 0 8 (0x1D + 64 + 256 * 5) }
theorem test_tm : res (.tm 0 .ok) (onBench (tmBench 0x400 0x8000 4)) (fun d => ((d.bench 0).pc, (d.bench 0).tm.map fun t => [t.src, t.rowLen, t.rows, t.srcStride.toNat, t.dstStride.toNat, t.cnt],
      (d.bench 0).sb.map fun e => [e.first, e.last, b2n e.wr])) = some (4, [[0x800000000008, 4, 2, 16, 32, 5]], [[0, 63, 0], [0x400, 0x43F, 1]]) := by decide +kernel
theorem test_tm_faults : res (.tm 0 .ok) (onBench (tmBench 0x400 0x8000 6)) (fun d => d.reports.map (·.code)) = some [0x1104] ∧
    res (.tm 0 .ok) (onBench (tmBench 0xFFF0 0x8000 4)) (fun d => d.reports.map fun r => (r.code, r.access)) = some [(0x1101, 0x41)] ∧
    res (.tm 0 .ok) (onBench (tmBench 0 0x9000 4)) (fun d => d.reports.map fun r => (r.code, r.access)) = some [(0x1102, 0x41)] := by decide +kernel

def desc (src dst : Nat) : TmDesc := { id := 9, ctx := 0, gen := 0, fsrc := false, fdst := false, src := src, dst := dst, rowLen := 4, rows := 2, srcStride := 16, dstStride := 32,
                                       cnt := 5, sbSrc := 1, sbDst := 2, active := false, reads := 0, writes := 0, slot := none, buf := none }
theorem test_tm_local : (bench0.tmNext).isNone ∧ res (.tileMoverDescriptorStart 0 {}) (onBench { bench0 with tm := [desc (localAddr 8) (localAddr 0x400)] }) (fun d =>
      ((d.bench 0).tm.length, ((d.bench 0).ctxN 0).counters[5])) = some (0, 1#16) := by decide +kernel
theorem test_tm_out : res (.tileMoverDescriptorStart 0 {}) (onBench { bench0 with tm := [desc (localAddr 8) 0x27E] }) (fun d =>
      d.net.map fun m => (m.kind, m.line, m.be.toNat)) =
    some [(.benchWrite, 4, 3 * 2 ^ 126), (.benchWrite, 5, 3), (.benchWrite, 5, 15 * 2 ^ 30)] := by decide +kernel
theorem test_tm_in : res (.tileMoverDescriptorStart 0 {}) (onBench { bench0 with tm := [desc 0x27E (localAddr 0x400)] }) (fun d =>
      (d.net.map fun m => [m.line, m.off, m.v0, m.v1], (d.bench 0).tm.map (·.reads))) =
    some ([[4, 126, 0x400, 2], [5, 0, 0x402, 2], [5, 14, 0x420, 4]], [3]) := by decide +kernel
theorem test_tm_answers : res (.tileMoverResponse 0) (onBench { bench0 with tm := [{ desc 0x200 (localAddr 0x400) with active := true, reads := 1 }] }
      [{ kind := .lineRsp, src := .bay 0, dst := .bench 0, line := 4, tag := 10, data := 0x04030201FF#1024, off := 1, v0 := 0x400, v1 := 4 }]) (fun d =>
      (leNat ((d.bench 0).tile.readBytes 0x400 4), (d.bench 0).tm.length, ((d.bench 0).ctxN 0).counters[5])) = some (0x04030201, 0, 1#16) ∧
    res (.tileMoverWriteAck 0) (onBench { bench0 with tm := [{ desc (localAddr 8) 0x200 with active := true, writes := 2 }] }
      [{ kind := .writeAck, src := .bay 0, dst := .bench 0, line := 4, tag := 9, op := 1 }]) (fun d => (d.bench 0).tm.map (·.writes)) = some [1] := by decide +kernel

/-- Placement 1 of the program stands on bench 1. -/
def withPeer (x : Bench) (net : List Msg := []) : Dev := (onBench x net).setBench 1 { ctxs := SMap.set ⟨[]⟩ 2 { valid := true, prog := 3, place := 1, partSize := 1 } }
theorem test_slot : res (.slot 0 .ok) (withPeer { bench0 with istore := Mem.empty.writeN 0 8 0x1E }) (fun d => ((d.bench 0).pc, (d.bench 0).tm.map (·.rowLen), (d.bench 0).sb.length)) =
      some (4, [130], 1) ∧
    res (.slot 0 .ok) (withPeer { bench0 with istore := Mem.empty.writeN 0 8 0x5E }) (fun d => d.reports.map (·.code)) = some [0x1104] ∧
    res (.slot 0 .ok) (onBench { bench0 with istore := Mem.empty.writeN 0 8 0x1E }) (fun d => d.reports.map (·.code)) = some [0x1104] := by decide +kernel
theorem test_slot_start : res (.slotTransferStart 0 {}) (withPeer { bench0 with tm := [{ desc (localAddr 16) 0 with slot := some ⟨16, 130, 5, 64, 1, 2⟩ }] }) (fun d =>
      (d.net.map fun m => [m.ctx, m.off, m.v1, (m.data.byte 1).toNat], d.cycle 0, (d.bench 0).tm.length)) =
    some ([[2, 64, 128, 17], [2, 192, 2, 145]], 5, 0) := by decide +kernel
theorem test_slot_clash : trainsClash [trainAt 0 2 1 5, trainAt 1 2 2 6] = 1 ∧ trainsClash [trainAt 0 2 1 5, trainAt 1 2 2 7] = 0 ∧
    res (.slotTransferStart 0 {}) (withPeer { bench0 with tm := [{ desc (localAddr 16) 0 with slot := some ⟨16, 130, 5, 64, 1, 2⟩ }] }
      [{ kind := .slotChunk, src := .bench 0, dst := .bench 1, tag := 99, loc := 5 }]) (fun d => d.reg .netRsvColl [0]) = some 1#32 := by decide +kernel
theorem test_slot_lands : res (.slotTransferLanding 1) (withPeer bench0 [{ kind := .slotChunk, src := .bench 0, dst := .bench 1, off := 64, data := 0x0201, v0 := 2, v1 := 2, ctx := 2 },
      { kind := .slotChunk, src := .bench 0, dst := .bench 1, off := 192, data := 0x03, v0 := 2, v1 := 1, ctx := 2 }]) (fun d =>
      (d.net.length, leNat ((d.bench 1).tile.readBytes 64 2), leNat ((d.bench 1).tile.readBytes 192 1), ((d.bench 1).ctxN 2).counters[2])) = some (0, 0x0201, 3, 1#16) := by decide +kernel

/-! ### Boundaries, switches, starts and kills (R57, R203, R216, R321) -/

def endBench : Bench := { bench0 with
  ended := true, pc := 44, outfeed := [{ data := 0, tag := 0 }]
  ctxs := ⟨[(0, { valid := true, save := true, partSize := 2, prog := 3, entry := 8 }), (1, { valid := true, partBase := 2, partSize := 2, save := true })]⟩ }
theorem test_boundary : endBench.workDone = true ∧ res (.commandBoundary 0 none ⟨none, none⟩) (onBench endBench) (fun d =>
      ((d.bench 0).running, (d.bench 0).outfeed.length, (d.bench 0).ctx.idle, d.regBit .bchStatus [0] 8)) = some (false, 0, true, true) ∧
    res (.commandBoundary 0 none ⟨none, none⟩) (onBench { endBench with mortise := { region := some 1 } }) (fun d => d.reports.map (·.code)) = some [0x1204] ∧
    res (.commandBoundary 0 none ⟨none, none⟩) (onBench { endBench with merge := mergeBench.merge, sb := mergeBench.sb }) (fun d => ((d.bench 0).running, d.net.map (·.line))) =
      some (true, [2]) := by decide +kernel
theorem test_switch_witness : endBench.merge = [] ∧ endBench.mortise.region = none ∧ (endBench.ctxN 1).valid = true ∧ endBench.ctx.save = true := by decide +kernel
theorem test_switch : res (.commandBoundary 0 (some 1) ⟨none, (some 3)⟩) (onBench endBench) (fun d => (((d.bench 0).ctxN 0).killCause, (d.bench 0).switchTo)) =
      some (0x2301, some 1) ∧
    res (.contextStart ⟨0, { off := 131072 + 32768, e := .double }⟩) (onBench { endBench with
      running := false, switchTo := some 1
      ctxs := ⟨[(1, { valid := true, partBase := 2, partSize := 2, save := true, savedOut := true })]⟩ }) (fun d =>
      (((d.bench 0).ctxN 1).killCause, d.reports.map (·.code))) = some (0x2102, [0x2102]) := by decide +kernel
theorem test_context_start : res (.contextStart ⟨0, {}⟩) (onBench { endBench with
      running := false, switchTo := some 1
      ctxs := ⟨[(1, { valid := true, partBase := 2, partSize := 2, save := true, savedOut := true, counters := Vector.replicate 16 9 })]⟩
      tile := (endBench.tile.writeN (131072 + 32768 + 0x14014) 4 0xABCD).writeN (131072 + 32768 + 0x14080) 8 44 }) (fun d =>
      let x := d.bench 0
      ((x.running, x.runCtx, x.switchTo, x.pc), ((x.j 5).toNat, (x.ctx.counters[3]).toNat))) = some ((true, 1, none, 44), (0xABCD, 9)) := by decide +kernel

/-- Queue 0 runs a LAUNCH of program 3, at step 6. -/
def launched (x : Bench) : Dev := { onBench x with queues := SMap.set ⟨[]⟩ 0 { run := some { seq := 0, pkt := [], launch := some { prog := 3, step := 6, running := true, marks := [(7, 0)] } } } }
theorem test_start : res (.startMessage 0 0) { dev with starts := [{ die := 0, q := 0, cycle := 1024 }] } (·.starts) = some [{ die := 0, q := 0, cycle := 1024, arrived := true }] ∧
    (launched { endBench with running := false }).ctxsOf 3 = [(0, 0)] ∧
    ({ launched { endBench with running := false } with starts := [{ die := 0, q := 0, cycle := 1024, arrived := true }] } : Dev).startable
      { die := 0, q := 0, cycle := 1024, arrived := true } = true ∧
    res (.benchStart 0 ⟨0, []⟩) { launched { endBench with running := false } with starts := [{ die := 0, q := 0, cycle := 1024, arrived := true }] } (fun d =>
      ((d.bench 0).running, d.cycle 0, (d.bench 0).pc, ((d.bench 0).j 1).toNat)) = some (true, 1024, 8, 6) := by decide +kernel
theorem test_kill_message : res (.killMessage 0) { onBench { bench0 with ctxs := SMap.set ⟨[]⟩ 0 { valid := true, idle := false } } with kills := [⟨0, 0, 0x1103, 0⟩] } (fun d =>
      (d.kills.length, ((d.bench 0).ctxN 0).killed, ((d.bench 0).ctxN 0).killCause)) = some (0, true, 0x1103) ∧
    res (.killMessage 0) { onBench bench0 with kills := [⟨0, 0, 0x1103, 0⟩] } (fun d => ((d.bench 0).ctxN 0).killed) = some false := by decide +kernel
def markDev (kind : Nat) (idx : Nat := 0) : Dev := { launched { bench0 with istore := Mem.empty.writeN 0 8 (0x21 + 64 * idx) } with
  slots := SMap.set ⟨[]⟩ 3 { image := [], split := 0, progId := [], marks := [⟨kind, 2, 0, 7⟩], contexts := 1 } }
theorem test_mark : res (.mark 0 .ok) (markDev 1) (fun d => (d.phaseMarks, (d.bench 0).pc)) = some ([(3, 2)], 4) ∧
    res (.mark 0 .ok) (markDev 2) (fun d => (d.launch 0).map (·.arrived)) = some (some [7]) ∧
    res (.mark 0 .ok) (markDev 1 1) (fun d => (d.phaseMarks, (d.bench 0).pc)) = some ([], 4) := by decide +kernel

/-! ### The mortise engine (R62 to R82, R94, R129) -/

/-- A FOLD of 4 × 4 × 4 elements of format `f` in FP32 output `out`, its panels at quad 1 and quad 2. -/
def encFold (f out cont : Nat) : Nat := 0x30 + 2 ^ 24 * f + 2 ^ 28 * f + 2 ^ 32 * out + 2 ^ 36 * cont + 2 ^ 43 * 1 + 2 ^ 46 * 2
/-- A queued mortise instruction: its word, the panels of A and B, and the source register. -/
def mop (w a b rs : Nat) : MOp :=
  { word := BitVec.ofNat 64 w, quadA := [BitVec.ofNat 32 a, 4#32, 0#32, 0#32], quadB := [BitVec.ofNat 32 b, 4#32, 0#32, 0#32], rs := BitVec.ofNat 32 rs, sbs := [] }
/-- Bench 0, whose store holds E4M3 ones from 0x100 on, with the engine in a given state. -/
def mort (m : Mortise) : Bench := { bench0 with
  tile := bench0.tile.writeBytes 0x100 (List.replicate 16 0x38#8), mortise := m
  ctxs := SMap.set ⟨[]⟩ 0 { valid := true, istrSize := 1, partSize := 1, prog := 3, seq := 63, scale := Vector.replicate 8 0x3F800000#32 } }
def atHead : MHead := { seq := 0, sigma := 0x3F800000, tile := 0, block := 0, slice := 0, pass := 0, since := 0 }
/-- What a command does to the engine of bench 0. -/
def mrt {α : Type} (c : Instr) (m : Mortise) (f : Bench → α) : Option α := res c (onBench (mort m)) fun d => f (d.bench 0)
/-- The causes a command raises on bench 0: code, access, address. -/
def mrtKill (c : Instr) (m : Mortise) : Option (List (List Nat)) := res c (onBench (mort m)) fun d => d.reports.map fun r => [r.code, r.access, r.addr]

theorem test_mortise_issue : res (.jigIssueMortise 0 .ok) (((jig (encFold 6 1 0) 0 0).modBench 0 fun x => (x.setJ 4 0x100#32).setJ 8 0x104#32)) (fun d =>
      ((d.bench 0).pc, (d.bench 0).mortise.queue.map (fun o => (o.quadA.head?, o.quadB.head?)), (d.bench 0).sb.length)) = some (8, [(some 0x100#32, some 0x104#32)], 2) := by decide +kernel
theorem test_fold : mrt (.fold 0) { queue := [mop (encFold 6 1 0) 0x100 0x100 0] } (fun x => (x.mortise.head.map fun h => [h.seq, h.sigma.toNat, h.slice], x.ctx.seq)) =
      some (some [0, 0x3F800000, 0], 0) ∧
    mrtKill (.fold 0) { queue := [mop (encFold 11 1 0) 0x100 0x100 0] } = some [[0x1201, 0x20, localAddr 0x100]] ∧
    mrtKill (.fold 0) { queue := [mop (encFold 6 6 0) 0x100 0x100 0] } = some [[0x1201, 0x20, localAddr 0x100]] ∧
    mrtKill (.fold 0) { queue := [mop (encFold 6 1 1 + 2 ^ 6 * 8) 0x100 0x100 0] } = some [[0x1202, 0x20, localAddr 0x100]] ∧
    mrtKill (.fold 0) { queue := [mop (encFold 6 1 0) 0x100 0xFFFC 0] } = some [[0x1101, 0x20, localAddr 0xFFFC]] ∧
    mrtKill (.fold 0) { queue := [mop (encFold 6 1 0) 0x100000 0 0] } = some [[0x1102, 0x20, localAddr 0x100000]] := by decide +kernel
/-- STREAM of four rows in E4M3. -/
def encStream : Nat := 0x31 + 2 ^ 7 * 4 + 2 ^ 23 * 6 + 2 ^ 27
theorem test_stream : mrt (.stream 0) { queue := [mop encStream 0x100 0 0], s0 := { valid := true, fmt := 6, ks := 16, ns := 4 } } (fun x => x.mortise.head.map (·.seq)) = some (some 0) ∧
    mrtKill (.stream 0) { queue := [mop encStream 0x100 0 0] } = some [[0x1203, 0x20, localAddr 0x100]] ∧
    mrtKill (.stream 0) { queue := [mop (encStream + 2 ^ 23 * 4) 0x100 0 0] } = some [[0x1201, 0x20, localAddr 0x100]] := by decide +kernel
theorem test_sload : mrt (.sload 0) { queue := [mop (encFold 6 1 0) 0 0 0, mop (0x32 + 64 + 2 ^ 7 * 6) 0 0x100 0] } (fun x => (x.mortise.queue.length, x.mortise.s1.valid, x.mortise.s1.ns, x.mortise.s0.valid)) =
      some (1, true, 4, false) ∧
    mrtKill (.sload 0) { queue := [mop (0x32 + 2 ^ 7 * 10) 0 0x100 0] } = some [[0x1201, 0x21, localAddr 0x100]] ∧
    mrtKill (.sload 0) { queue := [mop (0x32 + 2 ^ 7 * 6 + 2 ^ 14 * 4) 0 0x100 0] } = some [[0x1202, 0x21, localAddr 0x100]] ∧
    mrt (.stationaryReady 0 {}) { s0 := { valid := true, fmt := 6, ks := 4, ns := 4, load := some ((mop 0 0 0xFF 0).quadB, []) } } (fun x => (x.mortise.s0.ready, x.mortise.s0.elems.take 2)) =
      some (true, [0xFF, 0x38]) := by decide +kernel
/-- GOPEN of group 9 in E4M3. -/
def encOpen (fa : Nat) : Nat := 0x33 + 2 ^ 6 * 9 + 2 ^ 12 * fa + 2 ^ 16 * 6 + 2 ^ 20
theorem test_gopen : mrt (.gopen 0) { queue := [mop (encOpen 6) 0 0 0] } (fun x => (x.mortise.region, x.mortise.regionSet, x.mortise.setA.phase, x.ctx.nextSet)) =
      some (some 9, some false, .filling, true) ∧
    mrtKill (.gopen 0) { queue := [mop (encOpen 5) 0 0 0] } = some [[0x1204, 0x20, 0]] ∧ mrtKill (.gopen 0) { queue := [mop (encOpen 8) 0 0 0] } = some [[0x1201, 0x20, 0]] ∧
    mrt (.gopen 0) { queue := [mop (encOpen 6) 0 0 0], setA := { phase := .drain } } (fun x => (x.mortise.region, x.mortise.queue.length)) = some (none, 1) ∧
    mrt (.gclose 0) { queue := [mop 0x34 0 0 0], region := some 9, regionSet := some true, setB := { phase := .filling } } (fun x => (x.mortise.region, x.mortise.setB.phase, x.mortise.queue.length)) =
      some (none, .idle, 0) := by decide +kernel
theorem test_set : mrt (.scset 0) { queue := [mop (0x35 + 2 ^ 10 * 2) 0 0 7] } (fun x => x.ctx.scale[2]) = some 7#32 ∧
    mrt (.srseed 0) { queue := [mop (0x35 + 2 ^ 6) 0 0 7] } (fun x => x.ctx.srSeed) = some 7#32 ∧
    mrt (.air 0) { queue := [mop (0x35 + 2 ^ 6 * 2 + 2 ^ 10) 0 0 7], gap := some 3 } (fun x => (x.mortise.air, x.mortise.gap)) = some (1, none) := by decide +kernel
theorem test_mortise_step : mrt (.mortiseStep 0 {} none none) { queue := [mop (encFold 6 1 0) 0x100 0x100 0], head := some atHead } (fun x =>
      (x.mortise.head.isNone, x.mortise.queue.length, x.mortise.due.map (fun y => [y.seq, b2n y.tileDone, y.elems.length]))) = some (true, 0, some [0, 1, 16]) ∧
    mrt (.mortiseStep 0 {} none none) { queue := [mop (encFold 6 1 0 + 2 ^ 18 * 63) 0x100 0x100 0], head := some atHead } (fun x =>
      (x.mortise.head.map (fun h => [h.slice, h.since]), x.mortise.due.isSome)) = some (some [1, 1], false) ∧
    mrt (.mortiseStep 0 {} none none) { queue := [mop encStream 0x100 0 0], head := some atHead, s0 := { valid := true, ready := true, fmt := 6, ks := 4, ns := 4, elems := List.replicate 16 0x38 } } (fun x =>
      (x.mortise.head.isNone, x.mortise.due.isSome)) = some (true, true) := by decide +kernel
theorem test_step_parity : mrtKill (.mortiseStep 0 {} (some 5) none) { queue := [mop (encFold 6 1 0) 0x100 0x100 0], head := some atHead } = some [[0x2202, 0x20, 5]] ∧
    mrtKill (.mortiseStep 0 {} none (some 6)) { queue := [mop encStream 0x100 0 0], head := some atHead, s0 := { ready := true } } = some [[0x2201, 0x20, 6]] ∧
    res (.mortiseStep 0 {} none none) (onBench (mort { air := 2 })) (fun d => (d.reg .mrtAircuts [0]).toNat) = some 1 ∧
    mrt (.mortiseStep 0 {} none none) { air := 1, gap := some 3 } (·.mortise.gap) = some (some 4) := by decide +kernel
/-- A dressing of element 0 is due, whose rough sum is four products of ones. -/
def dueOne (done cont : Bool) : MDress :=
  { elems := [(0, [(⟨2 ^ 14, .none⟩, 7)])], sigma := 0x3F800000, tile := ⟨false, 0, 4, 4, true, cont⟩, seq := 1, tileDone := done }
theorem test_dressing : mrt (.dressing 0 none) { due := some (dueOne true false) } (fun x =>
      (laneN x.mortise.setA.data 64 0, x.mortise.setA.phase, x.mortise.due.isNone, x.ctx.nextSet)) =
      some (0x40800000, .drain, true, true) ∧
    mrt (.dressing 0 none) { due := some (dueOne true true), tileSet := some true, setB := { phase := .filling } } (fun x => (x.mortise.setB.phase, x.mortise.tileSet)) = some (.chained, none) ∧
    mrt (.dressing 0 none) { due := some (dueOne true false), setA := { phase := .drain } } (·.mortise.due.isSome) = some true := by decide +kernel
theorem test_dressing_sum : (dressElem ⟨0, 0, 0⟩ ⟨2 ^ 14, .none⟩ 7 0x3F800000).s = 0x40800000 := by decide +kernel
theorem test_dressing_pe : mrtKill (.dressing 0 (some 9)) { due := some (dueOne false false), tileSet := some false, setA := { phase := .filling } } = some [[0x2203, 0x22, 9]] := by decide +kernel
def drained : Mortise := { setB := { phase := .drain, data := BitVec.ofNat 65536 0x40800000, out := 0, seq := 5, last := true, vrows := 4, vcols := 4 } }
theorem test_drain_tile : mrt (.glueUpDrain 0 none) drained (fun x => (x.mortise.setB.phase, x.outfeed.map fun t => (laneN t.data 64 0, t.tag.toNat), x.ctx.srTile)) =
      some (.idle, [(0x40800000, 4 + 4 * 256 + 5 * 65536 + 2 ^ 31)], 1#32) ∧
    mrtKill (.glueUpDrain 0 (some 9)) drained = some [[0x2203, 0x22, 0x2009]] := by decide +kernel
/-! ### The plane engine (R115 to R130, R188 to R193) -/

/-- Bench 0 has the plane instruction `w` at the head of its queue, VL 2, vectors v1 and v2, mask m1, and v3 all ones in lanes 0 to 3. -/
def plane (w v1 v2 m1 : Nat) (vl : Nat := 2) (value : Nat := 0) : Dev := onBench { bench0 with
  plane := { queue := [{ word := BitVec.ofNat 64 w, base := 0, stride := 0, value := BitVec.ofNat 32 value, fill := 0 }], vl := vl
             vregs := ⟨[(1, BitVec.ofNat 2048 v1), (2, BitVec.ofNat 2048 v2), (3, BitVec.ofNat 2048 (2 ^ 128 - 1))]⟩
             masks := SMap.set ⟨[]⟩ 1 (BitVec.ofNat 64 m1) }
  outfeed := [{ data := BitVec.ofNat 65536 (5 + 2 ^ 2048 * 7), tag := BitVec.ofNat 32 (2 ^ 24) }] }
/-- Format P of R188. -/
def encP (maj vd va vb vc mk zm es ty fn : Nat) : Nat := maj + 2 ^ 6 * vd + 2 ^ 14 * va + 2 ^ 22 * vb + 2 ^ 30 * vc + 2 ^ 38 * mk + 2 ^ 41 * zm + 2 ^ 45 * es + 2 ^ 47 * ty + 2 ^ 50 * fn
/-- The first three lanes of v3, the sticky flags and the length of the queue after a command. -/
def v3 (c : Instr) (d : Dev) : Option (List Nat) := res c d fun d =>
  (List.range 3).map (fun l => laneN ((d.bench 0).vreg 3) 32 l) ++ [(d.reg .plnFlags [0]).toNat, (d.bench 0).plane.queue.length]

/-- ADD of 16-bit elements under m1 = 01 with ZM, of which lane 1 is zeroed and lane 2 kept. -/
theorem test_plane_ready : (match (plane (encP 0x38 3 1 2 0 1 1 1 1 0) 0xFFFF0001 0x00020003 1).queueHead 0 with | .go i _ => planeBad i.word false == none | _ => false) = true := by
  decide +kernel
theorem test_plane_add : v3 (.vopArith 0 .jig .ok none) (plane (encP 0x38 3 1 2 0 1 1 1 1 0) 0xFFFF0001 0x00020003 1) = some [0x00010004, 0, 0xFFFFFFFF, 0, 0] := by decide +kernel
/-- 1.5 + 0.25, 1.5 × 0.25, −1.5 × 0.25 + 1.5, and the square root of 2.25. -/
theorem test_plane_float : v3 (.vopArith 0 .jig .ok none) (plane (encP 0x38 3 1 2 0 0 0 2 2 0) 0x3FC00000 0x3E800000 0 1) = some [0x3FE00000, 0xFFFFFFFF, 0xFFFFFFFF, 0, 0] ∧
    v3 (.vopArith 0 .jig .ok none) (plane (encP 0x38 3 1 0 0 0 0 2 2 6) 0x3FC00000 0 0 1) = some [0xBFC00000, 0xFFFFFFFF, 0xFFFFFFFF, 0, 0] ∧
    v3 (.fma 0 .jig .ok none) (plane (encP 0x38 3 1 2 1 0 0 2 2 10) 0x3FC00000 0x3E800000 0 1) = some [0x3F900000, 0xFFFFFFFF, 0xFFFFFFFF, 0, 0] ∧
    v3 (.rcpRsqSqrtExp2Log2 0 .jig .ok none) (plane (encP 0x38 3 1 0 0 0 0 2 2 0x12) 0x40100000 0 0 1) = some [0x3FC00000, 0xFFFFFFFF, 0xFFFFFFFF, 0, 0] := by decide +kernel
theorem test_plane_int : v3 (.mulh 0 .jig .ok none) (plane (encP 0x38 3 1 2 0 0 0 2 0 0x18) 0xFFFFFFFF 2 0 1) = some [0xFFFFFFFF, 0xFFFFFFFF, 0xFFFFFFFF, 0, 0] ∧
    v3 (.shlShr 0 .jig .ok none) (plane (encP 0x38 3 1 2 0 0 0 2 0 0x1A) 0x80000000 33 0 1) = some [0xC0000000, 0xFFFFFFFF, 0xFFFFFFFF, 0, 0] ∧
    v3 (.andOrXor 0 .jig .ok none) (plane (encP 0x38 3 1 2 0 0 0 2 0 0x1D) 12 10 0 1) = some [6, 0xFFFFFFFF, 0xFFFFFFFF, 0, 0] ∧
    v3 (.cvt 0 .jig .ok none) (plane (encP 0x38 3 1 0 (0 + 8 * 2) 0 0 0 1 0x20) 0xFFFFFFFE 0 0 1) = some [0, 0xFFFFFFFF, 0xFFFFFFFF, 16, 0] ∧
    v3 (.cvt 0 .jig .ok none) (plane (encP 0x38 3 1 0 (2 + 8 * 2) 0 0 2 0 0x20) 0xC0700000 0 0 1) = some [0xFFFFFFFD, 0xFFFFFFFF, 0xFFFFFFFF, 0, 0] ∧
    v3 (.sel 0 .jig .ok none) (plane (encP 0x38 3 1 2 1 0 0 2 0 0x30) (5 + 2 ^ 32 * 6) (7 + 2 ^ 32 * 8) 2) = some [7, 6, 0xFFFFFFFF, 0, 0] := by decide +kernel
theorem test_plane_masks : res (.cmp 0 .jig .ok none) (plane (encP 0x38 1 1 2 0 0 0 2 0 0x2A) 0xFFFFFFFF 0 12) (fun d => ((d.bench 0).mreg 1, (d.bench 0).plane.queue.length)) =
      some (1, 0) ∧
    res (.maskLogic 0 .jig .ok none) (plane (encP 0x38 2 1 0 0 0 0 0 0 0x3C) 0 0 12) (fun d => (d.bench 0).mreg 2) = some (2 ^ 64 - 13) := by decide +kernel
/-- R123's example: ES 16, VL 3, and indices 5, 0, 6, 2, 9, 1 give a[5], a[0], 0, a[2], 0, a[1] and RANGE. -/
theorem test_plane_perm : v3 (.perm 0 .jig .ok none) (plane (encP 0x39 3 1 2 0 0 0 1 1 0) 0x000F000E000D000C000B000A 0x000100090002000600000005 0 3) =
      some [0x000A000F, 0x000C0000, 0x000B0000, 1, 0] ∧
    v3 (.perm2 0 .jig .ok none) (plane (encP 0x39 3 1 2 2 0 0 2 1 1) (5 + 2 ^ 32 * 6) (3 + 2 ^ 32 * 1) 0) = some [1, 6, 0xFFFFFFFF, 0, 0] ∧
    v3 (.rot 0 .jig .ok none) (plane (encP 0x39 3 1 0 3 0 0 2 1 2) (5 + 2 ^ 32 * 6) 0 0) = some [6, 5, 0xFFFFFFFF, 0, 0] ∧
    v3 (.rev 0 .jig .ok none) (plane (encP 0x39 3 1 0 0 0 0 2 1 3) (5 + 2 ^ 32 * 6) 0 0) = some [6, 5, 0xFFFFFFFF, 0, 0] ∧
    v3 (.xswap 0 .jig .ok none) (plane (encP 0x39 3 1 0 2 0 0 2 1 4) (5 + 2 ^ 32 * 6) 0 0) = some [0, 0, 0xFFFFFFFF, 1, 0] ∧
    v3 (.bcast 0 .jig .ok none) (plane (encP 0x39 3 1 0 1 0 0 2 1 5) (5 + 2 ^ 32 * 6) 0 0) = some [6, 6, 0xFFFFFFFF, 0, 0] := by decide +kernel
theorem test_plane_zip : v3 (.zipUnzip 0 .jig .ok none) (plane (encP 0x39 3 1 2 0 0 0 2 1 7) (5 + 2 ^ 32 * 6 + 2 ^ 64 * 7) (1 + 2 ^ 32 * 2 + 2 ^ 64 * 3) 0 3) = some [7, 3, 0, 1, 0] ∧
    v3 (.zipUnzip 0 .jig .ok none) (plane (encP 0x39 3 1 2 0 0 0 2 1 8) (5 + 2 ^ 32 * 6) (1 + 2 ^ 32 * 2) 0) = some [5, 1, 0xFFFFFFFF, 0, 0] ∧
    v3 (.pack 0 .jig .ok none) (plane (encP 0x39 3 1 2 2 0 0 2 0 0x10) (0x10005 + 2 ^ 32 * 0xFFFFFFFF) (1 + 2 ^ 32 * 2) 0) = some [0xFFFF, 0x00020001, 0xFFFFFFFF, 16, 0] ∧
    v3 (.unpk 0 .jig .ok none) (plane (encP 0x39 3 1 0 0 0 0 1 0 0x12) 0xFFFE0005000100FF 0 0 2) = some [5, 0xFFFFFFFE, 0xFFFFFFFF, 0, 0] := by decide +kernel
/-- Format VSEL of R192: FN, VD, VA, JD, the selector, ZM and CAP. -/
def encSel (fn vd va jd ms zm cap : Nat) : Nat := 0x3B + 2 ^ 6 * fn + 2 ^ 8 * vd + 2 ^ 16 * va + 2 ^ 24 * jd + 2 ^ 42 * zm + 2 ^ 43 * ms + 2 ^ 48 * (cap - 1)
theorem test_plane_compress : v3 (.compress 0 .jig .ok none) (plane (encSel 0 3 1 5 1 0 2) (5 + 2 ^ 32 * 6 + 2 ^ 64 * 7 + 2 ^ 96 * 8) 0 14 4) = some [6, 7, 0xFFFFFFFF, 2, 0] ∧
    v3 (.expand 0 .jig .ok none) (plane (encSel 1 3 1 5 1 1 1) (5 + 2 ^ 32 * 6) 0 6 4) = some [0, 5, 0, 2, 0] ∧
    res (.expand 0 .jig .ok none) (plane (encSel 1 3 1 5 1 1 1) (5 + 2 ^ 32 * 6) 0 6 4) (fun d => ((d.bench 0).j 5).toNat) = some 1 := by decide +kernel
/-- Format VCTL of R193: FN, VD, VA, JD, JS, the depth and the chunk. -/
def encCtl (fn vd va jd js dd c : Nat) : Nat := 0x3C + 2 ^ 6 * fn + 2 ^ 12 * vd + 2 ^ 20 * va + 2 ^ 28 * jd + 2 ^ 33 * js + 2 ^ 42 * dd + 2 ^ 45 * c
/-- j5, VL and the flags after a command. -/
def j5 (c : Instr) (d : Dev) : Option (List Nat) := res c d fun d => [((d.bench 0).j 5).toNat, (d.bench 0).plane.vl, (d.reg .plnFlags [0]).toNat, (d.bench 0).plane.queue.length]
theorem test_plane_sum : j5 (.sum 0 .jig .ok none) (plane (encCtl 0xB 0 1 5 0 0 0) 0 0 2) = some [1, 2, 0, 0] ∧ j5 (.sum 0 .jig .ok none) (plane (encCtl 0xC 0 1 5 0 0 0) (5 + 2 ^ 32 * 0xFFFFFFFF) 0 2) =
      some [0xFFFFFFFF, 2, 0, 0] ∧ j5 (.sum 0 .jig .ok none) (plane (encCtl 0x11 0 1 5 0 0 0) (0x80000000 + 2 ^ 32 * 0xBF800000) 0 2) = some [0x80000000, 2, 0, 0] := by decide +kernel
theorem test_plane_control : j5 (.setvl 0 .jig .ok) (plane (encCtl 0 0 0 5 6 0 0) 0 0 0 2 100) = some [64, 64, 0, 0] ∧
    res (.setvl 0 .jig .ok) (plane (encCtl 0 0 0 5 6 0 0) 0 0 0) (fun d => d.reports.map (·.code)) = some [0x1301] ∧
    v3 (.mvjp 0 .jig .ok none) (plane (encCtl 1 3 0 0 6 0 0) 0 0 0 2 9) = some [9, 0xFFFFFFFF, 0xFFFFFFFF, 0, 0] ∧
    j5 (.pflags 0 .jig .ok) ((plane (encCtl 2 0 0 5 0 0 0) 0 0 0).setReg .plnFlags [0] 5) = some [5, 2, 0, 0] := by decide +kernel
/-- A tile in FP32 has 16 chunks: chunk 1 is read, chunk 16 reads zero and raises RANGE, depth 1 is not held. -/
theorem test_plane_outfeed : v3 (.ofrd 0 .jig .ok none) (plane (encCtl 0x18 3 0 0 0 0 1) 0 0 0) = some [7, 0, 0, 0, 0] ∧
    v3 (.ofrd 0 .jig .ok none) (plane (encCtl 0x18 3 0 0 0 0 16) 0 0 0) = some [0, 0, 0, 1, 0] ∧
    res (.ofrd 0 .jig .ok (some 3)) (plane (encCtl 0x18 3 0 0 0 0 1) 0 0 0) (fun d => d.reports.map fun r => [r.code, r.access, r.addr]) = some [[0x2302, 0x35, 3]] ∧
    v3 (.ofrd 0 .jig .ok none) (plane (encCtl 0x18 3 0 0 0 1 1) 0 0 0) = some [0xFFFFFFFF, 0xFFFFFFFF, 0xFFFFFFFF, 0, 1] ∧
    comesAt 0 (fun d => some (d.outfeedDue 0)) (plane (encCtl 0x18 3 0 0 0 1 1) 0 0 0) = true ∧
    res (.outfeedWaitTimeout 0) (plane (encCtl 0x18 3 0 0 0 1 1) 0 0 0) (fun d => d.reports.map fun r => [r.code, r.access, r.addr]) = some [[0x1302, 0x35, 0]] ∧
    j5 (.oftag 0 .jig .ok) (plane (encCtl 0x19 0 0 5 0 0 0) 0 0 0) = some [2 ^ 24, 2, 0, 0] ∧
    res (.ofpop 0 .jig .ok) (plane (encCtl 0x1A 0 0 0 0 0 0) 0 0 0) (fun d => (d.bench 0).outfeed.length) = some 0 := by decide +kernel
theorem test_plane_queue : res (.planeQueueIssue 0 .ok) (jig (encCtl 1 3 0 0 2 0 0) 7 9) (fun d => ((d.bench 0).pc, (d.bench 0).plane.queue.map fun p => (p.word.toNat, p.value.toNat))) =
    some (8, [(encCtl 1 3 0 0 2 0 0, 9)]) := by decide +kernel
/-! ### Memory accesses of the plane engine (R120, R127, R144, R145) -/

/-- The plane instruction `w` with base and stride in local store, 16-bit offsets as bytes of the store, and indices 3 and 1 in v4. -/
def mem (w base stride fill : Nat) (l1 : SMap L1Way := ⟨[]⟩) (split : Nat := 1) : Dev := onBench { bench0 with
  split := split, l1 := l1
  plane := { queue := [{ word := BitVec.ofNat 64 w, base := base, stride := BitVec.ofNat 32 stride, value := 0, fill := BitVec.ofNat 32 fill }], vl := 2
             vregs := ⟨[(1, 0xDDCCBBAA44332211#2048), (3, BitVec.ofNat 2048 (2 ^ 128 - 1)), (4, BitVec.ofNat 2048 (3 + 2 ^ 32))]⟩
             masks := SMap.set ⟨[]⟩ 1 3#64 } }
/-- Format VMEM of R191: V, VX, MK, ES and FN. -/
def encMem (v vx mk es fn : Nat) : Nat := 0x3A + 2 ^ 6 * v + 2 ^ 14 * vx + 2 ^ 32 * mk + 2 ^ 36 * es + 2 ^ 38 * fn
theorem test_vld : v3 (.vld 0 {} none none) (mem (encMem 3 0 0 2 0) (localAddr 9) 16 0) = some [0x0B0A0908, 0x1B1A1918, 0xFFFFFFFF, 0, 0] ∧
    v3 (.vld 0 {} none none) (mem (encMem 3 0 0 2 0) 0 4 0 (SMap.set ⟨[]⟩ 3 ⟨0, none⟩)) = some [0, 0, 0xFFFFFFFF, 0, 0] ∧
    res (.vld 0 {} none none) (mem (encMem 3 0 0 2 0) 0x200 4 0) (fun d => (d.net.map (·.line), (d.bench 0).plane.pends.map fun p => p.wait == .line, (d.bench 0).plane.queue.length)) = some ([4], [true], 0) ∧
    res (.vld 0 {} none none) (mem (encMem 3 0 0 2 0) (localAddr 65532) 4 0) (fun d => d.reports.map fun r => [r.code, r.access, r.addr]) = some [[0x1101, 0x30, localAddr 65536]] ∧
    res (.vld 0 {} none none) (mem (encMem 3 0 0 2 0) 0x900000000000 4 0) (fun d => d.reports.map fun r => [r.code, r.access, r.addr]) = some [[0x1102, 0x30, 0x900000000000]] ∧
    v3 (.vldx 0 {} none none) (mem (encMem 3 4 0 2 2) (localAddr 8) 0 0) = some [0x17161514, 0x0F0E0D0C, 0xFFFFFFFF, 0, 0] := by decide +kernel
theorem test_vst : res (.vst 0 {} none none false) (mem (encMem 1 0 0 2 1) (localAddr 0x101) 8 0) (fun d => (leNat ((d.bench 0).tile.readBytes 0x100 4), leNat ((d.bench 0).tile.readBytes 0x108 4))) =
      some (0x44332211, 0xDDCCBBAA) ∧
    res (.vst 0 {} none none false) (mem (encMem 1 0 0 2 1) 0x27C 8 0) (fun d => ((d.bench 0).merge.map fun e => [e.line, e.data.toNat, e.be.toNat], (d.bench 0).plane.queue.length)) =
      some ([[4, 0x44332211 * 2 ^ 992, 15 * 2 ^ 124], [5, 0xDDCCBBAA * 2 ^ 32, 15 * 2 ^ 4]], 0) ∧
    res (.vstx 0 {} none none false) (mem (encMem 1 4 0 2 3) (localAddr 0x100) 0 0) (fun d => (leNat ((d.bench 0).tile.readBytes 0x10C 4), leNat ((d.bench 0).tile.readBytes 0x104 4))) =
      some (0x44332211, 0xDDCCBBAA) ∧
    res (.vpf 0) (mem (encMem 0 0 0 0 4) 0x200 0 0) (fun d => (d.net.map (·.line), (d.bench 0).infeed.map (·.line), (d.bench 0).plane.queue.length)) = some ([4], [4], 0) := by decide +kernel
/-- Two lanes are selected, the capacity is 3 and the fill 2: one word is kept and one dropped. -/
theorem test_window : res (.cstore 0 .jig .ok none {}) (mem (0x3B + 2 ^ 6 * 2 + 2 ^ 16 + 2 ^ 24 * 5 + 2 ^ 29 * 6 + 2 ^ 43 + 2 ^ 48 * 2) (localAddr 0x100) 0 2) (fun d =>
      [leNat ((d.bench 0).tile.readBytes 0x108 4), leNat ((d.bench 0).tile.readBytes 0x10C 4), ((d.bench 0).j 5).toNat, ((d.bench 0).j 6).toNat, (d.reg .plnFlags [0]).toNat]) =
      some [0x44332211, 0, 1, 3, 2] ∧
    res (.xload 0 .jig .ok none {}) (mem (0x3B + 2 ^ 6 * 3 + 2 ^ 8 * 3 + 2 ^ 24 * 5 + 2 ^ 29 * 6 + 2 ^ 43 + 2 ^ 48 * 2) (localAddr 8) 0 2) (fun d =>
      [laneN ((d.bench 0).vreg 3) 32 0, laneN ((d.bench 0).vreg 3) 32 1, laneN ((d.bench 0).vreg 3) 32 2, ((d.bench 0).j 5).toNat, ((d.bench 0).j 6).toNat]) =
      some [0x13121110, 0, 0xFFFFFFFF, 1, 3] ∧
    res (.cstore 0 .jig .ok none {}) (mem (0x3B + 2 ^ 6 * 2 + 2 ^ 16 + 2 ^ 24 * 5 + 2 ^ 29 * 6 + 2 ^ 43 + 2 ^ 48 * 2) 0x100 0 2) (fun d => d.reports.map (·.code)) = some [0x1303] := by decide +kernel

/-- Group 9 holds slot 0, its threads 0 and 1 at the instruction `w` and the others exited; u1 and u2 are the address, u3 data, u4 new values. -/
def group (w : Nat) (u1 u2 u3 u4 : Nat) : Bench := { bench0 with
  istore := Mem.empty.writeN 0 8 w
  groups := SMap.set ⟨[]⟩ 9 { ctx := 0, cnt := 3, slot := some 0 }
  slots := SMap.set ⟨[]⟩ 0 { num := 9, pcs := List.replicate 64 0, ages := List.replicate 64 0, exited := ~~~3#64, arrived := 0, clampWait := 0 }
  plane := { vregs := ⟨[(1, BitVec.ofNat 2048 u1), (2, BitVec.ofNat 2048 u2), (3, BitVec.ofNat 2048 u3), (4, BitVec.ofNat 2048 u4)]⟩ } }
/-- TMEM of R196: FN, UD, UA, UH, UB, UC, ES and IMM16. -/
def encT (fn ud ua uh ub uc es imm : Nat) : Nat := 0x3E + 2 ^ 6 * fn + 2 ^ 12 * ud + 2 ^ 17 * ua + 2 ^ 22 * uh + 2 ^ 27 * ub + 2 ^ 32 * uc + 2 ^ 37 * es + 2 ^ 39 * imm
/-- Lanes 0 and 1 of u5, the words at 8 and 12 of the store, and the program counters of threads 0 and 2. -/
def u5 (c : Instr) (d : Dev) : Option (List Nat) := res c d fun d => [laneN ((d.bench 0).vreg 5) 32 0, laneN ((d.bench 0).vreg 5) 32 1, leNat ((d.bench 0).tile.readBytes 8 4),
  leNat ((d.bench 0).tile.readBytes 12 4), ((d.bench 0).group 0).elim 99 (·.pc 0), ((d.bench 0).group 0).elim 99 (·.pc 2)]
theorem test_thread_memory : (match (onBench (group (encT 0 5 1 2 0 0 0 0xFFF8) 0x88 0 0 0)).threadFetch 0 0 .ok with | .go i _ => planeBad i.word true == none && i.mask == 3 | _ => false) = true ∧
    u5 (.tmemLd 0 0 .ok {} none none) (onBench (group (encT 0 5 1 2 0 0 0 0xFFF8) (0x90 + 2 ^ 32 * 0x11) (0x8000 + 2 ^ 32 * 0x8000) 0 0)) = some [0xFFFFFF88, 9, 0x0B0A0908, 0x0F0E0D0C, 8, 0] ∧
    u5 (.tmemSt 0 0 .ok {} none none false) (onBench (group (encT 2 0 1 2 3 0 1 0) (8 + 2 ^ 32 * 8) (0x8000 + 2 ^ 32 * 0x8000) (0x1111 + 2 ^ 32 * 0x2222) 0)) =
      some [0, 0, 0x0B0A2222, 0x0F0E0D0C, 8, 0] := by decide +kernel
/-- R145: both threads add 1 to one word, and each has the value it saw; on device memory one request leaves for each. -/
theorem test_thread_atomic : u5 (.threadAtomic 0 0 .ok {} none) (onBench (group (encT 0x10 5 1 2 3 0 2 0) (8 + 2 ^ 32 * 8) (0x8000 + 2 ^ 32 * 0x8000) (1 + 2 ^ 32) 0)) =
      some [0x0B0A0908, 0x0B0A0909, 0x0B0A090A, 0x0F0E0D0C, 8, 0] ∧
    res (.threadAtomic 0 0 .ok {} none) (onBench (group (encT 0x1C 5 1 2 3 4 2 0) (0x200 + 2 ^ 32 * 0x204) 0 (1 + 2 ^ 32) (7 + 2 ^ 32 * 8))) (fun d =>
      (d.net.map fun m => [m.line, m.off, m.op, m.v0, m.v1, m.data.toNat], ((d.bench 0).group 0).map (·.atoms.map (·.wait)))) =
      some ([[4, 0, 0x1C, 0, 1, 7], [4, 4, 0x1C, 1, 1, 8]], some [3#64]) := by decide +kernel
/-- All 64 threads of group 9 are at a GMMA with FIN in quadrant 3 whose B panel lies at 0x100. -/
def gmmaBench (fmt : Nat) (region : Option Nat) : Bench :=
  let x := group (0x3D + 2 ^ 6 * 0x10 + 2 ^ 12 * 3 + 2 ^ 17 * 1 + 2 ^ 27 * 3 + 2 ^ 29) 0x100 0 0x3838383838383838 0
  { x with
    slots := SMap.set ⟨[]⟩ 0 { num := 9, pcs := List.replicate 64 0, ages := List.replicate 64 0, exited := 0, arrived := 0, clampWait := 0 }
    tile := x.tile.writeBytes 0x100 (List.replicate 16 0x38#8)
    mortise := { region := region, regionFmt := fmt, regionSet := some false, setA := { phase := .filling } } }
theorem test_gmma_witness : (match (onBench (gmmaBench (6 + 16 * 6 + 256) (some 9))).threadFetch 0 0 .ok with
      | .go i _ => planeBad i.word true == none && i.mask == 2 ^ 64 - 1 && i.num == 9
      | _ => false) = true := by decide +kernel
theorem test_gmma_kills : res (.gmma 0 0 .ok {} ⟨none, none⟩) (onBench (gmmaBench (6 + 16 * 6 + 256) (some 8))) (fun d => d.reports.map fun r => [r.code, r.access, r.addr]) =
      some [[0x1204, 0x20, localAddr 0x100]] ∧
    res (.gmma 0 0 .ok {} ⟨none, none⟩) (onBench ((gmmaBench 102 (some 9)).modGroup 0 fun g => { g with exited := 1 })) (fun d => d.reports.map (·.code)) = some [0x1205] := by decide +kernel
/-! ### Thread groups (R134 to R147, R195) -/

/-- TGLAUNCH of group 9 with entry j1 and argument j2, on counter 3, to slot `dest` (8: the park area). -/
def encLaunch (dest : Nat) : Nat := 0x1F + 2 ^ 8 * 9 + 2 ^ 14 * dest + 2 ^ 18 * 3 + 2 ^ 22 * 1 + 2 ^ 27 * 2
/-- Bench 0 at the instruction `w`, with a park area of 128 KiB at 0. -/
def parks (w j1 j2 : Nat) : Dev := (jig w j1 j2).modBench 0 fun x => { x with ctxs := SMap.set ⟨[]⟩ 0 { valid := true, istrSize := 1, partSize := 4, parkSize := 128 } }
theorem test_tglaunch : res (.tglaunch 0 .ok) (parks (encLaunch 2) 16 77) (fun d =>
      [(d.bench 0).pc, laneN ((d.bench 0).vreg 64) 32 63, laneN ((d.bench 0).vreg 65) 32 5, laneN ((d.bench 0).vreg 66) 32 5, ((d.bench 0).group 2).elim 99 (·.pc 63), ((d.bench 0).groups.getD 9 ⟨0, 0, none, ⟨[]⟩⟩).cnt]) =
      some [4, 63, 9, 77, 16, 3] ∧
    res (.tglaunch 0 .ok) (parks (encLaunch 2) 20 77) (fun d => d.reports.map (·.code)) = some [0x1401] ∧
    res (.tglaunch 0 .ok) ((parks (encLaunch 2) 16 77).modBench 0 fun x => { x with groups := SMap.set ⟨[]⟩ 9 ⟨0, 0, none, ⟨[]⟩⟩ }) (fun d => d.reports.map (·.code)) = some [0x1401] := by decide +kernel
theorem test_tglaunch_pend_witness : (parks (encLaunch 8) 16 77).sbTry 0 none { dev := false, first := 0x14400, last := 0x167FF, wr := true, l1 := false } =
      (some (0, true), ((parks (encLaunch 8) 16 77).sbTry 0 none { dev := false, first := 0x14400, last := 0x167FF, wr := true, l1 := false }).2) := Prod.ext (by decide +kernel) rfl
theorem test_tgpark : res (.tgpark 0 .ok) ((parks (0x1F + 64 + 2 ^ 8 * 2) 0 0).modBench 0 fun x => x.setGroup 2 (newGroup 9 16)) (fun d => ((d.bench 0).pc, (d.bench 0).moves)) =
      some (4, [{ slot := 2, group := 9, park := true, sb := 0 }]) ∧
    res (.tgpark 0 .ok) (parks (0x1F + 64 + 2 ^ 8 * 2) 0 0) (fun d => d.reports.map (·.code)) = some [0x1402] ∧
    res (.tgact 0 .ok) ((parks (0x1F + 128 + 2 ^ 8 * 9 + 2 ^ 14 * 3) 0 0).modBench 0 fun x => { x with groups := SMap.set ⟨[]⟩ 9 ⟨0, 0, none, ⟨[]⟩⟩ }) (fun d => ((d.bench 0).pc, (d.bench 0).moves)) =
      some (4, [{ slot := 3, group := 9, park := false, sb := 0 }]) ∧
    res (.tgact 0 .ok) (parks (0x1F + 128 + 2 ^ 8 * 9 + 2 ^ 14 * 3) 0 0) (fun d => d.reports.map (·.code)) = some [0x1402] := by decide +kernel
theorem test_move_witness : ((parks 0 0 0).bench 0).quietSlot 2 = true ∧ ((parks 0 0 0).bench 0).sbWaits 5 = false := by decide +kernel
theorem test_group_retire : res (.groupRetire 0 0) (onBench ((group 0 0 0 0 0).modGroup 0 fun g => { g with exited := BitVec.allOnes 64 })) (fun d =>
      [b2n ((d.bench 0).group 0).isNone, b2n ((d.bench 0).groups.find? 9).isNone, ((d.bench 0).ctx.counters[3]).toNat]) = some [1, 1, 1] := by decide +kernel
/-- The program counters of threads 0, 1 and 2, and the exited and arrived masks of group 9, whose threads 0 and 1 run `w` with u1 = 0, 1. -/
def tg (c : Instr) (w : Nat) (a : W64 := 0) : Option (List Nat) := res c (onBench ((group w (2 ^ 32) 0 0 0).modGroup 0 fun g => { g with arrived := a, exited := g.exited &&& ~~~a })) fun d =>
  ((d.bench 0).group 0).elim [] fun g => [g.pc 0, g.pc 1, g.pc 2, g.exited.toNat, g.arrived.toNat]
/-- TCTL of R195: FN, UA, and OFF24. -/
def encTctl (fn ua off : Nat) : Nat := 0x3D + 2 ^ 6 * fn + 2 ^ 12 * ua + 2 ^ 40 * off
theorem test_thread_branches : tg (.bnz 0 0 .ok none) (encTctl 0 1 5) = some [8, 40, 0, 2 ^ 64 - 4, 0] ∧ tg (.bz 0 0 .ok none) (encTctl 1 1 5) = some [40, 8, 0, 2 ^ 64 - 4, 0] ∧
    tg (.jmp 0 0 .ok) (encTctl 2 0 0xFFFFFF) = some [2 ^ 32 - 8, 2 ^ 32 - 8, 0, 2 ^ 64 - 4, 0] := by decide +kernel
theorem test_thread_ends : tg (.exitThreads 0 0 .ok) (encTctl 3 0 0) 8 = some [8, 8, 0, 2 ^ 64 - 9, 0] ∧ tg (.bar 0 0 .ok) (encTctl 4 0 0) 8 = some [8, 8, 0, 2 ^ 64 - 12, 0] ∧
    tg (.exitThreads 0 0 .ok) (encTctl 3 0 0) = some [8, 8, 0, 2 ^ 64 - 1, 0] := by decide +kernel
theorem test_thread_fence : tg (.tctlFence 0 0 .ok false) (encTctl 5 0 0 + 2 ^ 29) = some [8, 8, 0, 2 ^ 64 - 4, 0] ∧
    res (.tctlFence 0 0 .ok false) (onBench { group (encTctl 5 0 0 + 2 ^ 29 * 3 + 2 ^ 28) 0 0 0 0 with l1 := SMap.set ⟨[]⟩ 0 ⟨0, none⟩ }) (fun d =>
      ((d.bench 0).l1.cells.length, ((d.bench 0).group 0).map (·.fences.length))) = some (0, some 0) ∧
    res (.tctlFence 0 0 .ok false) (onBench { group (encTctl 5 0 0 + 2 ^ 29 + 2 ^ 28) 0 0 0 0 with nextId := 9, sb := mergeBench.sb }) (fun d =>
      ((d.bench 0).group 0).map (·.fences)) = some (some [{ mask := 3, sys := false, acq := false, upto := 9 }]) ∧
    res (.li 0 0 .ok) (onBench (group (0x3D + 2 ^ 6 * 6 + 2 ^ 22 * 5 + 2 ^ 32 * 7) 0 0 0 0)) (fun d => [laneN ((d.bench 0).vreg 5) 32 1, laneN ((d.bench 0).vreg 5) 32 2]) = some [7, 0] := by decide +kernel
/-! ### Clamps (R148, R218 to R224) -/

/-- Device ID 5 with its configuration word, all eight dies in one instance. -/
def ids (d : Dev) (cfg : Nat) : Dev := d.setReg .clpIdcfg [5] (BitVec.ofNat 32 cfg)
/-- CLP of R184: SUB, DEV, IDX and JS = j1. -/
def encClp (sub dev idx js : Nat) : Nat := 0x20 + 2 ^ 6 * sub + 2 ^ 8 * dev + 2 ^ 9 * idx + 2 ^ 18 * js
theorem test_clp : res (.clpArrive 0 .ok) (jig (encClp 0 0 5 0) 7 0) (fun d => [(d.bench 0).pc, ((d.bench 0).clampVal.getD 5 9).toNat, d.net.length]) = some [4, 1, 0] ∧
    res (.clpAdd 0 .ok) ((jig (encClp 1 0 5 1) 7 0).modBench 0 fun x => { x with clampOwner := SMap.set ⟨[]⟩ 5 0, clampVal := SMap.set ⟨[]⟩ 5 3#32 }) (fun d => ((d.bench 0).clampVal.getD 5 9).toNat) = some 10 ∧
    res (.clpAdd 0 .ok) (ids (jig (encClp 1 1 5 1) 7 0) (2 ^ 31 + 2 ^ 29)) (fun d => d.net.map fun m => (m.kind, m.dst, m.v0, m.v1)) = some [(.clampUp, .clampIod, 5, 7)] ∧
    res (.clpAdd 0 .ok) (ids (jig (encClp 1 1 5 1) 7 0) (2 ^ 31 + 2 ^ 30)) (fun d => d.net.length) = some 0 ∧
    res (.clpWait 0 .ok) (jig (encClp 2 0 5 1 + 2 ^ 17) 7 0) (fun d => ((d.bench 0).pc, (d.bench 0).wait)) = some (4, .clamp false 5 7 true) := by decide +kernel
theorem test_clp_kills : ([(jig (encClp 0 1 5 0) 7 0, 0x1503), (ids (jig (encClp 0 1 5 0) 7 0) (2 ^ 31 + 2 ^ 24 * 3), 0x1503), (ids (jig (encClp 0 1 5 0) 7 0) (2 ^ 31 + 2 ^ 16), 0x1503),
      ((jig (encClp 0 0 5 0) 7 0).modBench 0 fun x => { x with clampOwner := SMap.set ⟨[]⟩ 5 1 }, 0x1502)] : List (Dev × Nat)).all
      (fun q => res (.clpArrive 0 .ok) q.1 (fun d => d.reports.map (·.code)) == some [q.2]) = true ∧
    res (.clpWait 0 .ok) (ids (jig (encClp 2 1 5 1) 7 0) (2 ^ 31 + 2 ^ 30)) (fun d => d.reports.map (·.code)) = some [0x1504] := by decide +kernel
/-- Thread clamps of R195: FN and IDX, with UB = u3. -/
def encTclp (fn dev idx : Nat) : Nat := 0x3D + 2 ^ 6 * fn + 2 ^ 17 * 3 + 2 ^ 31 * dev + 2 ^ 32 * idx
theorem test_thread_clamps : res (.carrive 0 0 .ok) (onBench (group (encTclp 8 0 5 - 2 ^ 17 * 3) 0 0 0 0)) (fun d => [((d.bench 0).clampVal.getD 5 9).toNat, ((d.bench 0).group 0).elim 99 (·.pc 1)]) = some [2, 8] ∧
    res (.cadd 0 0 .ok none) (onBench (group (encTclp 9 0 5) 0 0 (7 + 2 ^ 32 * 8) 0)) (fun d => ((d.bench 0).clampVal.getD 5 9).toNat) = some 15 ∧
    res (.tctlCwait 0 0 .ok none) (onBench (group (encTclp 10 0 5) 0 0 7 0)) (fun d => ((d.bench 0).group 0).map fun g => (g.pc 0, g.clampWait)) = some (some (0, 3#64)) := by decide +kernel
def waiting (target : Nat) : Dev := (jig 0 0 0).modBench 0 fun x => { x with wait := .clamp false 5 target true, clampVal := SMap.set ⟨[]⟩ 5 9#32 }
theorem test_clamp_waits : res (.clampWaitExit 0 none) (waiting 9) (fun d => ((d.bench 0).wait, d.cycle 0)) = some (.none, 8) ∧
    res (.clampWaitExit 0 none) (waiting 10) (fun d => (d.bench 0).wait) = some (.clamp false 5 10 true) ∧
    res (.clampWatchdogExpiry 0 none) (waiting 10) (fun d => d.reports.map (·.code)) = some [0x1501] ∧
    res (.clampWaitExit 0 (some 0)) (onBench ({ group (encTclp 10 0 5) 0 0 (9 + 2 ^ 32 * 10) 0 with clampVal := SMap.set ⟨[]⟩ 5 9#32 }.modGroup 0 fun g => { g with clampWait := 3 })) (fun d =>
      ((d.bench 0).group 0).map fun g => (g.pc 0, g.pc 1, g.clampWait)) = some (some (8, 0, 2#64)) ∧
    res (.clampWatchdogExpiry 0 (some 0)) (onBench ({ group (encTclp 10 0 5) 0 0 (9 + 2 ^ 32 * 10) 0 with clampVal := SMap.set ⟨[]⟩ 5 9#32 }.modGroup 0 fun g => { g with clampWait := 3 })) (fun d =>
      d.reports.map (·.code)) = some [0x1501] := by decide +kernel
theorem test_clamp_watchdog_comes : comesAt 0 (·.clampDue 0 none) (waiting 10) = true ∧
    comesAt 0 (·.clampDue 0 (some 0)) (onBench ({ group (encTclp 10 0 5) 0 0 (9 + 2 ^ 32 * 10) 0 with clampVal := SMap.set ⟨[]⟩ 5 9#32 }.modGroup 0 fun g => { g with clampWait := 3 })) = true ∧
    (onBench ({ group (encTclp 10 0 5) 0 0 (9 + 2 ^ 32 * 10) 0 with clampVal := SMap.set ⟨[]⟩ 5 9#32 }.modGroup 0 fun g => { g with clampWait := 3 })).clampDue 0 (some 0) =
      some ((dev.limitOf .clpWdog 0)) := by decide +kernel
def ups : List Msg := [{ kind := .clampUp, src := .bench 0, dst := .clampIod, v0 := 5, v1 := 3 }, { kind := .clampUp, src := .bench 1, dst := .clampIod, v0 := 6, v1 := 3 },
  { kind := .clampUp, src := .bench 0, dst := .clampIod, v0 := 5, v1 := 4 }]
theorem test_clamp_root : res (.clampRootUpdate 5 2 .ok) (ids { dev with net := ups } (2 ^ 31 + 2 ^ 24)) (fun d => (d.net.map (·.v0), (d.reg .clpIdval [5]).toNat, d.clampDown.map fun x => (x.die, x.value.toNat))) =
      some ([6], 7, [(1, 7)]) ∧
    res (.clampRootUpdate 5 2 .ok) (ids { dev with net := ups } (2 ^ 31 + 2 ^ 30)) (fun d => (d.net.length, (d.reg .clpIdval [5]).toNat)) = some (1, 0) ∧
    res (.clampRootUpdate 5 2 .double) (ids { dev with net := ups } (2 ^ 31)) (fun d => (d.net.length, d.regBit .clpIdcfg [5] 30, d.reports.map (·.code))) = some (1, true, [0x4302]) := by decide +kernel
/-- Node 13 of die 1 serves benches (2, 2), (2, 3), (3, 2) and (3, 3). -/
theorem test_clamp_shadow : res (.clampShadowUpdate 1 13 5 .ok) { dev with clampDown := [{ die := 1, id := 5, value := 7, left := 3#144 <<< 13 }] } (fun d =>
      ([626, 627, 650, 651, 625, 628].map fun b => ((d.bench b).shadow.getD 5 0).toNat, d.clampDown.map (·.left))) = some ([7, 7, 7, 7, 0, 0], [1#144 <<< 14]) := by decide +kernel
/-! ### Bay caches (R253 to R266) -/

/-- Window 16, of instance 0, maps the first GiB to die 0; a read-only one of the manager maps the second. Bay cache 0 is `b`. -/
def win (b : Bay) (net : List Msg) : Dev :=
  { ((dev.setReg .hbmWinBase [16] 0x80000000).setReg .hbmWinBase [0] 0x80000001).setBench 0 { bench0 with ctxs := SMap.set ⟨[]⟩ 0 { valid := true } } with
    bays := SMap.set ⟨[]⟩ 0 b, net := net }
/-- A message from bench 0 to bay cache 0 about a line. -/
def toBay (kind : MsgKind) (line : Nat := 2) (be : ByteEn := 3) : Msg := { kind := kind, src := .bench 0, dst := .bay 0, line := line, off := 4, data := 0xAABBCCDD#1024, be := be, tag := 6, v1 := 5, op := 0x10 }
/-- Line 2 in its way, key 16 × 1, with data 0x1_0000_0009 in its low lanes. -/
def bayWith (st : BayState) : Bay := { lines := SMap.set ⟨[]⟩ 16 { line := 2, loc := 2, st := st, data := 0x700000009#1024 } }
/-- What is in flight afterwards: kind, line and low bytes of each message; with the causes. -/
def flow (c : Instr) (d : Dev) : Option (List (MsgKind × Nat × Nat) × List Nat) := res c d fun d => (d.net.map (fun m => (m.kind, m.line, m.data.toNat % 2 ^ 64)), d.reports.map (·.code))

theorem test_bay_find : (bayWith .m).find 2 = some 16 ∧ (dev.instOfDie 0) = 0 ∧ ((win {} []).access (.inst 0) 256).map (fun l => (l.die, l.x, l.ro)) = some (0, 256, false) := by decide +kernel
theorem test_bay_read : flow (.bayLoadRequest 0 .ok) (win (bayWith .s) [toBay .benchRead]) = some ([(.lineRsp, 2, 0x700000009)], []) ∧
    flow (.bayLoadRequest 0 .ok) (win {} [toBay .benchRead]) = some ([(.rds, 2, 0)], []) := by decide +kernel
theorem test_bay_joins : res (.bayLoadRequest 0 .ok) (win { misses := [{ line := 2, want := .rds, waiting := [] }] } [toBay .benchRead]) (fun d => (d.net.length, ((d.bay 0).misses.map (·.waiting.length)))) = some (0, [1]) ∧
    flow (.bayLoadRequest 0 .ok) (win {} [toBay .benchRead (2 ^ 24)]) = some ([], [0x3101]) := by decide +kernel
theorem test_bay_lost : res (.bayLoadRequest 0 .ok) ((win {} [toBay .benchRead]).setReg .hbmWinCfg [16] 0x100 |>.setDie 1 { st := 3 }) (fun d => d.net.map fun m => (m.kind, m.poison, m.code)) =
      some [(.lineRsp, true, 0x5108)] := by decide +kernel
theorem test_bay_write : res (.bayMaskedWrite 0 .ok) (win (bayWith .e) [toBay .benchWrite]) (fun d => (d.net.map (·.kind), ((d.bay 0).get 2).map fun x => (x.st, x.data.toNat))) =
      some ([.writeAck], some (.m, 0x70000CCDD)) ∧
    flow (.bayMaskedWrite 0 .ok) (win (bayWith .s) [toBay .benchWrite]) = some ([(.rdx, 2, 0)], []) := by decide +kernel
theorem test_bay_write_asks : flow (.bayMaskedWrite 0 .ok) (win {} [toBay .benchWrite 2 (BitVec.allOnes 128)]) = some ([(.rdxn, 2, 0)], []) ∧
    flow (.bayMaskedWrite 0 .ok) (win {} [toBay .benchWrite (2 ^ 23)]) = some ([], [0x1701]) := by decide +kernel
/-- Reduction window 0 of instance 0 covers the first 64 KiB with MAX on INT32. -/
def redDev (m : Msg) : Dev := ((win {} [m]).setReg .ucRwCfg [0, 0] 0x80000022).setReg .ucRwSize [0, 0] 1
theorem test_bay_forward : res (.bayMaskedWrite 0 .ok) (redDev { toBay .benchWrite with op := 1 }) (fun d => d.net.map fun m => (m.kind, m.ty, m.req)) = some [(.red, 10, some (.bench 0))] ∧
    flow (.bayMaskedWrite 0 .ok) (redDev (toBay .benchWrite)) = some ([], [0x1702]) ∧
    res (.bayAtomic 0 .ok) (redDev (toBay .benchAtomic)) (fun d => d.net.map fun m => (m.kind, m.acc)) = some [(.ata, 0x53)] := by decide +kernel
theorem test_bay_atomic : res (.bayAtomic 0 .ok) (win (bayWith .m) [toBay .benchAtomic]) (fun d => (d.net.map fun m => (m.kind, m.v1), ((d.bay 0).get 2).map (·.data.toNat))) =
    some ([(.atomRsp, 7)], some 0xC00000009) := by decide +kernel
def grantMsg (op line : Nat) : Msg := { kind := .grant, src := .slice 0, dst := .bay 0, line := line, loc := line, op := op, data := 9 }
theorem test_bay_grant : res (.bayGrant 0) (win { misses := [{ line := 2, want := .rds, waiting := [toBay .benchRead, toBay .benchRead] }] } [grantMsg 0 2]) (fun d =>
      (d.net.map (·.kind), (d.bay 0).misses.length, ((d.bay 0).get 2).map (·.st))) = some ([.lineRsp, .lineRsp], 0, some .s) ∧
    res (.bayGrant 0) (win { misses := [{ line := 2, want := .rdx, waiting := [toBay .benchWrite] }] } [grantMsg 1 2]) (fun d =>
      (d.net.map (·.kind), ((d.bay 0).get 2).map fun x => (x.st, x.data.toNat))) = some ([.writeAck], some (.m, 0xCCDD)) := by decide +kernel
/-- Sixteen dirty lines fill the set; the grant's victim leaves. -/
theorem test_bay_evict : res (.bayGrant 0) (win { lines := ⟨(List.range 16).map fun i => (16 + i, { line := 2 + 4096 * (i + 1), loc := 0, st := .m, data := 5 })⟩
                                                  misses := [{ line := 2, want := .rds, waiting := [] }] } [grantMsg 0 2]) (fun d =>
      (d.net.map fun m => (m.kind, m.line), (d.bay 0).wbs.map (·.line))) = some ([(.wb, 4098)], [4098]) := by decide +kernel
theorem test_bay_snoops : flow (.inv 0) (win (bayWith .s) [{ kind := .inv, src := .slice 0, dst := .bay 0, line := 2 }]) = some ([(.replyAck, 2, 0)], []) ∧
    res (.dwn 0) (win (bayWith .m) [{ kind := .dwn, src := .slice 0, dst := .bay 0, line := 2 }]) (fun d => (d.net.map (·.kind), ((d.bay 0).get 2).map (·.st))) = some ([.replyData], some .s) := by decide +kernel
theorem test_bay_rcl : flow (.rcl 0) (win { wbs := [⟨2, 8, false⟩] } [{ kind := .rcl, src := .slice 0, dst := .bay 0, line := 2 }]) = some ([(.replyData, 2, 8)], []) ∧
    flow (.rcl 0) (win {} [{ kind := .rcl, src := .slice 0, dst := .bay 0, line := 2 }]) = some ([(.replyNp, 2, 0)], []) := by decide +kernel
def iodDev : Dev := { win {} [{ kind := .inv, src := .slice 0, dst := .iod 1, line := 2, gw := true }] with iodLines := [{ agent := 1, line := 2, data := 0, poison := false, shared := true }] }
theorem test_bay_frees : res (.bayWbAck 0) (win { wbs := [⟨2, 8, false⟩] } [{ kind := .wbAck, src := .slice 0, dst := .bay 0, line := 2 }]) (fun d => (d.bay 0).wbs.length) = some 0 ∧
    res (.inv 65) iodDev (fun d =>
      (d.net.map (·.kind), d.iodLines.length)) = some ([.replyAck], 0) := by decide +kernel
/-! ### Home slices (R254 to R270) -/

/-- Slice 0 holds `sl`, window 16 maps the first GiB to die 0, and messages are on their way. -/
def home (sl : Slice) (net : List Msg) : Dev := (win {} net).setSlice 0 sl
/-- Line 2 of die 0 in its way, 16 × its set. -/
def way2 : Nat := 16 * sliceSet 2
def holds (x : SLine) (pend : List SPend := []) : Slice := { lines := SMap.set ⟨[]⟩ way2 x, pend := pend }
def lineOf2 (dir : DirState) (presence : BitVec 96) (valid : Bool := true) : SLine := { line := 2, loc := 2, dir := dir, presence := presence, valid := valid, data := 0x700000009#1024 }
/-- A request from bay cache 1 for line 2. -/
def ask (kind : MsgKind) (ty : Nat := 10) (be : ByteEn := 15) : Msg := { kind := kind, src := .bay 1, dst := .slice 0, line := 2, loc := 2, data := 5#1024, be := be, op := 0x10, v1 := 5, ty := ty, req := some (.bench 9) }
/-- Kinds and targets in flight, and the number of pending requests. -/
def sent (c : Instr) (d : Dev) : Option (List (MsgKind × Agent) × Nat) := res c d fun d => (d.net.map (fun m => (m.kind, m.dst)), (d.slice 0).pend.length)
/-- Directory state, presence, valid, low data and poison of the line in way 2's place. -/
def entry (c : Instr) (d : Dev) : Option (DirState × Nat × Nat) := res c d fun d => let x := (d.slice 0).at way2; (x.dir, x.presence.toNat, x.data.toNat % 2 ^ 64)

theorem test_slice_find : (holds (lineOf2 .v 0)).find 2 = some way2 ∧ homeSlice 0 256 = 0 := by decide +kernel
theorem test_rds : sent (.rds 0 .ok none 0) (home (holds (lineOf2 .v 0)) [ask .rds]) = some ([(.grant, .bay 1)], 0) ∧
    entry (.rds 0 .ok none 0) (home (holds (lineOf2 .s 1)) [ask .rds]) = some (.s, 3, 0x700000009) := by decide +kernel
theorem test_rds_dwn : sent (.rds 0 .ok none 0) (home (holds (lineOf2 (.x 3) 8)) [ask .rds]) = some ([(.dwn, .bay 3)], 1) ∧
    sent (.rds 0 .ok none 0) (home (holds (lineOf2 .v 0 false)) [ask .rds]) = some ([(.hbmRead, .slice 0)], 1) := by decide +kernel
theorem test_rdx : entry (.rdx 0 .ok) (home (holds (lineOf2 .s 2)) [ask .rdx]) = some (.x 1, 2, 0x700000009) ∧
    sent (.rdx 0 .ok) (home (holds (lineOf2 .s 14)) [ask .rdx]) = some ([(.inv, .bay 2), (.inv, .bay 3)], 1) := by decide +kernel
theorem test_rdxn : entry (.rdxn 0 .ok) (home {} [ask .rdxn]) = some (.x 1, 2, 0) ∧ sent (.rdxn 0 .ok) (home {} [ask .rdxn]) = some ([(.grant, .bay 1)], 0) ∧
    sent (.rdx 0 .ok) (home {} [ask .rdx]) = some ([(.hbmRead, .slice 0)], 1) := by decide +kernel
theorem test_wb : entry (.wb 0 .ok) (home (holds (lineOf2 (.x 1) 2)) [ask .wb]) = some (.v, 0, 5) ∧ entry (.wb 0 .ok) (home (holds (lineOf2 .v 0)) [ask .wb]) = some (.v, 0, 0x700000009) ∧
    sent (.wb 0 .ok) (home {} [ask .wb]) = some ([(.wbAck, .bay 1)], 0) := by decide +kernel
theorem test_wra : entry (.wra 0 .ok) (home (holds (lineOf2 .v 0)) [ask .wra]) = some (.v, 0, 0x700000005) ∧ sent (.wra 0 .ok) (home (holds (lineOf2 .v 0)) [ask .wra]) = some ([(.writeAck, .bench 9)], 0) := by
  decide +kernel
theorem test_ata : entry (.ata 0 .ok) (home (holds (lineOf2 .v 0)) [ask .ata]) = some (.v, 0, 0x70000000E) ∧ sent (.ata 0 .ok) (home (holds (lineOf2 .s 4)) [ask .ata]) = some ([(.inv, .bay 2)], 1) := by
  decide +kernel
theorem test_red : sent (.red 0 .ok) (home (holds (lineOf2 .v 0)) [ask .red]) = some ([], 1) ∧ reduceWhole 2 15 = true ∧ reduceWhole 2 3 = false := by decide +kernel
theorem test_red_partial : res (.red 0 .ok) { home (holds (lineOf2 .v 0)) [{ ask .red 10 3 with req := some (.bench 0) }] with reports := [] } (fun d => (d.net.length, ((d.bench 0).ctxN 0).killCause)) =
    some (0, 0x1703) := by decide +kernel
/-- MAX of 9 and 5, of INT32. -/
theorem test_reduction : entry (.reductionApply 0) (home (holds (lineOf2 .v 0) [{ id := 1, req := ask .red, phase := .apply }]) []) = some (.v, 0, 0x700000009) ∧
    sent (.reductionApply 0) (home (holds (lineOf2 .v 0) [{ id := 1, req := ask .red, phase := .apply }]) []) = some ([(.writeAck, .bench 9)], 0) ∧
    res (.reductionApply 0) (home (holds { lineOf2 .v 0 with poison := true } [{ id := 1, req := ask .red, phase := .apply }]) []) (fun d => d.reports.map (·.code)) = some [0x2506] := by decide +kernel
theorem test_iod_reads : res (.rds 0 .ok (some 2) 2) (home (holds (lineOf2 .v 0)) []) (fun d => (d.iodLines.map fun l => (l.agent, l.line, l.shared), ((d.slice 0).at way2).presence.toNat)) =
      some ([(2, 2, true)], 2 ^ 66) ∧
    res (.rdu 0 .ok 2 2) (home (holds (lineOf2 .v 0)) []) (fun d => d.iodLines.map (·.shared)) = some [false] ∧
    res (.rdu 0 .ok 2 16777216) (home {} []) (fun d => d.reports.map (·.code)) = some [0x3101] := by decide +kernel
/-- Bay cache 3 answers the snoop for bay cache 1's request. -/
def replies (kind req : MsgKind) : Dev := home (holds (lineOf2 (.x 3) 8) [{ id := 1, req := ask req, phase := .snoop [3] }]) [{ kind := kind, src := .bay 3, dst := .slice 0, line := 2, loc := 2, data := 8 }]
theorem test_snoop_reply : entry (.snoopReply 0) (replies .replyData .rds) = some (.s, 10, 8) ∧ entry (.snoopReply 0) (replies .replyNp .rds) = some (.s, 2, 0x700000009) ∧
    entry (.snoopReply 0) (replies .replyAck .rdx) = some (.x 1, 2, 0x700000009) ∧ sent (.snoopReply 0) (replies .replyData .rdx) = some ([(.grant, .bay 1)], 0) := by decide +kernel
theorem test_hbm_fill : entry (.sliceHbmFill 0) (home (holds (lineOf2 .v 0 false) [{ id := 1, req := ask .rds, phase := .fill way2 }])
      [{ kind := .hbmData, src := .slice 0, dst := .slice 0, line := 2, loc := 2, data := 8 }]) = some (.s, 2, 8) ∧
    sent (.sliceFillWaitRetry 0) (home { pend := [{ id := 1, req := ask .rdx, phase := .noWay }] } []) = some ([(.hbmRead, .slice 0)], 1) := by decide +kernel
theorem test_wb_asked : entry (.wb 0 .ok) (home (holds (lineOf2 (.x 3) 8) [{ id := 1, req := ask .rds, phase := .snoop [3] }]) [{ ask .wb with src := .bay 3 }]) = some (.v, 0, 5) ∧
    sent (.wb 0 .ok) (home (holds (lineOf2 (.x 3) 8) [{ id := 1, req := ask .rds, phase := .snoop [3] }]) [{ ask .wb with src := .bay 3 }]) = some ([(.wbAck, .bay 3)], 1) := by decide +kernel
/-! ### The window table and the HBM controllers (R294 to R307) -/

/-- The map status, entry 16 (instance 0's), and the causes. -/
def maps (c : Instr) (d : Dev) : Option (List Nat) := res c d fun d => [(d.reg .hbmMapStatus []).toNat, b2n (d.win 16).valid, b2n (d.win 16).busy, (d.win 16).base, (d.win 16).size] ++ d.reports.map (·.code)
def winBusy16 (net : List Msg) (sl : Slice) (valid : Bool) : Dev :=
  { (dev.setReg .hbmWinBase [16] (winBaseWord 0 0 valid)).setReg .hbmWinState [16] 2 with
    winFlush := SMap.set ⟨[]⟩ 16 (0, 1), net := net, slices := if sl = {} then ⟨[]⟩ else SMap.set ⟨[]⟩ 0 sl }

theorem test_window_locked : dev.regBit .secStatus [] 31 = true ∧ res (.windowValidClear 3 0 0) dev (fun d => d.reports.length) = some 0 ∧
    res (.windowValidSet 3 0 0) dev (fun d => d.reports.map (·.code)) = some [0x8102] := by decide +kernel
theorem test_window_set : dev.winReason { dev.win 16 with base := 4, size := 2, valid := true } false = none ∧ maps (.windowValidSet 16 4 1) dev = some [0, 1, 1, 4, 2] := by decide +kernel
theorem test_window_beyond : maps (.windowValidSet 16 1023 1) dev = some [0x80001002, 0, 0, 0, 1, 0x3102] := by decide +kernel
theorem test_window_valid : maps (.windowValidSet 16 4 1) (dev.setReg .hbmWinBase [16] 0x80000000) = some [0x80001008, 1, 0, 0, 1, 0x3102] := by decide +kernel
theorem test_window_clear : maps (.windowValidClear 16 0 1) dev = some [0, 0, 0, 0, 2] ∧ maps (.windowValidClear 16 0 0) (dev.setReg .hbmWinBase [16] 0x80000000) = some [0, 0, 1, 0, 1] ∧
    maps (.windowValidClear 16 0 0) (winBusy16 [] {} false) = some [0x80001008, 0, 1, 0, 1, 0x3102] := by decide +kernel
theorem test_window_instance_busy : maps (.windowValidClear 16 0 0) ((dev.setReg .hbmWinBase [16] 0x80000000).setBench 0 { ctxs := SMap.set ⟨[]⟩ 0 { valid := true } }) =
    some [0x80001001, 1, 0, 0, 1, 0x3102] := by decide +kernel
theorem test_window_end : maps (.windowBusyEnd 16) { winBusy16 [] {} true with hbm := Mem.empty.write 5 7 } = some [0, 1, 0, 0, 1] ∧
    res (.windowBusyEnd 16) { winBusy16 [] {} true with hbm := Mem.empty.write 5 7 } (fun d => (d.hbm.read 5).toNat) = some 0 := by decide +kernel
theorem test_window_flush : res (.windowBusyEnd 16) (winBusy16 [] { lines := SMap.set ⟨[]⟩ 5 { line := 2, loc := 2, valid := true, dirty := true, data := 7 } } false)
    (fun d => ((d.hbmLine 0 2).toNat, (d.slice 0).lines.cells.length)) = some (7, 0) := by decide +kernel

/-- A read, or a write of data 7, of line 2 reaches controller 0; window 16 is detecting or correcting. -/
def ctrl (kind : MsgKind) (det : Bool) : Dev :=
  { (dev.setReg .hbmWinBase [16] 0x80000000).setReg .hbmWinCfg [16] (if det then 4 else 0) with
    net := [{ kind := kind, src := .slice 0, dst := .slice 0, line := 2, loc := 2, data := 7 }], hbm := Mem.empty.write 256 9 }
def gave (c : Instr) (d : Dev) : Option (List (Nat × Bool) × List Nat) := res c d fun d => (d.net.map (fun m => (m.data.toNat, m.poison)), d.reports.map (·.code))
theorem test_hbm_read : gave (.hbmRead 0 .ok) (ctrl .hbmRead true) = some ([(9, false)], []) ∧ gave (.hbmRead 0 .single) (ctrl .hbmRead true) = some ([(9, false)], [0x3201]) := by decide +kernel
theorem test_hbm_symbol : gave (.hbmRead 0 .symbol) (ctrl .hbmRead false) = some ([(9, false)], [0x3202]) ∧
    res (.hbmRead 0 .symbol) (ctrl .hbmRead true) (fun d => (d.net.length, d.reports.length)) = some (1, 0) := by decide +kernel
theorem test_hbm_bad : gave (.hbmRead 0 .uncorrectable) (ctrl .hbmRead true) = some ([(9, true)], [0x3204]) ∧ gave (.hbmRead 0 .uncorrectable) (ctrl .hbmRead false) = some ([(9, true)], [0x3203]) := by
  decide +kernel
theorem test_hbm_check_line : gave (.hbmRead 0 (.checkLine [])) (ctrl .hbmRead false) = some ([(9, false)], [0x3207]) ∧ (checkData (checkLoc 2)).getD 5 0 ≠ 2 ∧
    gave (.hbmRead 0 (.checkLine [5])) (ctrl .hbmRead false) = some ([(9, false)], [0x3207, 0x3203]) := by decide +kernel
theorem test_hbm_stored_poison : gave (.hbmRead 0 .ok) { ctrl .hbmRead true with hbmPoison := SMap.set ⟨[]⟩ 2 () } = some ([(9, true)], []) := by decide +kernel
theorem test_hbm_failed : gave (.hbmRead 0 .ok) ((ctrl .hbmRead true).setReg .hbmCtStatus [0] 0x100) = some ([(9, true)], []) ∧
    res (.hbmWrite ⟨0, none⟩) ((ctrl .hbmWrite true).setReg .hbmCtStatus [0] 0x100) (fun d => (d.hbmLine 0 2).toNat) = some 9 := by decide +kernel
theorem test_hbm_write : res (.hbmWrite ⟨0, none⟩) (ctrl .hbmWrite true) (fun d => ((d.hbmLine 0 2).toNat, d.net.length)) = some (7, 0) := by decide +kernel
theorem test_hbm_ecs : res (.hbmEcs 17 257) dev (fun d => (d.regFld .hbmCtEcs [17] 15 0, d.reports.map fun r => (r.code, r.master, r.addr))) = some (257, [(0x3208, 0x1881, 2)]) := by
  decide +kernel
/-- The first retraining ever, one that a parity error replaces, and one within 1 ms of the last. -/
def trained (c : Instr) (last : Option Nat) (skip : Bool) : Option (List Nat) :=
  res c { dev with hbmStacks := SMap.set ⟨[]⟩ 0 { last := last, skip := skip } } fun d =>
    [(d.reg .hbmCtRetrain [0]).toNat, d.regFld .hbmCtStatus [0] 11 8, b2n (d.hbmStacks.getD 0 {}).skip] ++ d.reports.map (·.code)
theorem test_hbm_retrain : trained (.hbmRetrain 0 2 true) none false = some [1, 0, 0] ∧ trained (.hbmRetrain 0 2 false) none false = some [1, 4, 0, 0x3206] ∧
    trained (.hbmRetrain 0 2 true) none true = some [0, 0, 0] ∧ trained (.hbmRetrain 0 2 true) (some 0) false = some [0, 0, 0] := by decide +kernel
theorem test_ca_parity : trained (.caParityError 0 2 true) none false = some [0x10001, 0, 1] ∧ trained (.caParityError 0 2 true) (some 0) false = some [0, 4, 0, 0x3206] := by decide +kernel
/-! ### Command queues (R311 to R316, R328 to R331) -/

/-- A packet with bytes at some offsets. -/
def pkt (fields : List (Nat × Nat × Nat)) : List Byte := (fields.foldl (fun (m : Mem) f => m.writeN f.1 f.2.1 f.2.2) Mem.empty).readBytes 0 64
/-- Queue 0 is enabled, of depth 6, with both rings in host memory (or device memory), and has something to do. -/
def ring (q : Queue) (dev0 : Bool := false) (mgr : Bool := false) (d : Dev := dev) : Dev :=
  { ((d.setReg .cpQcfg [0] (BitVec.ofNat 32 (2 ^ 31 + 6 * 2 ^ 16 + b2n mgr * 2 ^ 30 + b2n dev0 * (2 ^ 29 + 2 ^ 28)))).setReg .cpQtail [0] 1) with queues := SMap.set ⟨[]⟩ 0 q }
def runs (c : Cmd) : Queue := { run := some c }
/-- Kinds of what went out, CP_QDONE, CP_QSTATE and whether the queue still runs, and the causes. -/
def after (c : Instr) (d : Dev) : Option (List Nat) := res c d fun d => [d.out.length, d.queueDone 0, (d.reg .cpQstate [0]).toNat / 8, b2n (d.queue 0).run.isSome] ++ d.reports.map (·.code)
/-- Status, fault and INFO0 of the record that a command leaves in host memory. -/
def recorded (c : Instr) (d : Dev) : Option (List Nat) := res c d fun d => d.out.flatMap fun m => match m with
  | .hostWrite _ _ bs _ => if bs.length = 32 then [leNat ((bs.drop 4).take 2), leNat ((bs.drop 12).take 2), leNat ((bs.drop 16).take 8)] else []
  | _ => []
/-- Device memory of instance 0 that the slice holds: line 2, where both rings of a device queue start. -/
def heldLine : Dev := (win {} []).setSlice 0 (holds (lineOf2 .v 0))
def deviceRing (q : Queue) : Dev := ((ring q true false heldLine).setReg .cpQbaseLo [0] 256).setReg .cpQcbaseLo [0] 256

theorem test_nop : after (.nop 0) (ring (runs { seq := 0, pkt := pkt [] })) = some [1, 1, 0, 0] ∧ recorded (.nop 0) (ring (runs { seq := 0, pkt := pkt [] })) = some [0, 0, 0] := by decide +kernel
theorem test_record_held : res (.nop 0) { ring (runs { seq := 0, pkt := pkt [(1, 1, 1)] }) with fns := SMap.set ⟨[]⟩ 1 { d3 := true, msixEn := true }, msix := SMap.set ⟨[]⟩ 2048 { mask := false }, vfEnable := true, numVfs := 1 } (fun d => (d.out.length, d.heldMsgs.length)) =
    some (0, 2) := by decide +kernel
theorem test_record_device : res (.nop 0) (deviceRing (runs { seq := 0, pkt := pkt [(4, 4, 7)] })) (fun d => let l := ((d.slice 0).at way2).data; (laneN l 8 7, laneN l 32 2)) = some (1, 7) := by decide +kernel
theorem test_record_unmapped : after (.nop 0) ((deviceRing (runs { seq := 0, pkt := pkt [] })).setReg .hbmWinBase [16] 0) = some [0, 1, 1, 0, 0x9102] := by decide +kernel
theorem test_record_waits : res (.nop 0) ((deviceRing (runs { seq := 0, pkt := pkt [] })).setSlice 0 (holds (lineOf2 .v 0) [{ id := 1, req := ask .red, phase := .apply }]))
    (fun d => (d.queueDone 0, (d.queue 0).run.map (·.fin))) = some (0, some (some (0, 0))) := by decide +kernel
theorem test_record_line : (deviceRing {}).access ((deviceRing {}).queueWho 0) 256 = some ⟨0, 256, false, (deviceRing {}).win 16⟩ ∧ (deviceRing {}).mapped ((deviceRing {}).queueWho 0) true 256 32 = true := by
  decide +kernel
theorem test_queue_enable : res (.queueEnable 0) (dev.setReg .cpQcfg [0] 0x60000) (fun d => b2n (d.queueEn 0)) = some 1 ∧
    res (.queueEnable 0) (dev.setReg .cpQcfg [0] 0x50000) (fun d => [b2n (d.queueEn 0), (d.reg .cpQstate [0]).toNat / 8]) = some [0, 2] ∧
    res (.queueDisable 0) (ring {}) (fun d => b2n (d.queueEn 0)) = some 0 := by decide +kernel
theorem test_doorbell : res (.doorbell 0 64) (ring {}) (fun d => d.queueTail 0 :: d.reports.map (·.code)) = some [64] ∧
    res (.doorbell 0 65) (ring {}) (fun d => d.queueTail 0 :: d.reports.map (·.code)) = some [1, 0x9101] := by decide +kernel
theorem test_fetch_host : res (.queueFetch 0) (ring {}) (fun d => d.out.length) = some 1 ∧ res (.queueFetch 0) (ring { fetch := some ⟨1, 0, 64, 0⟩ }) (fun d => d.out.length) = some 0 := by decide +kernel
theorem test_fetch_device : res (.queueFetch 0) (deviceRing {}) (fun d => (d.cqHead 0, d.reports.length)) = some (1, 0) := by decide +kernel
theorem test_fetch_unmapped : after (.queueFetch 0) ((deviceRing {}).setReg .hbmWinBase [16] 0) = some [0, 0, 1, 0, 0x9102] := by decide +kernel
/-- The host answers a fetch with a NOP, with an unknown opcode, and with QUIESCE on another than a manager queue. -/
def fetching : Dev := ring { fetch := some ⟨1, 0, 64, 0⟩ }
theorem test_fetched : after (.hostReadCompletion 0 0 false (pkt [])) fetching = some [0, 0, 0, 1] ∧ recorded (.hostReadCompletion 0 0 false (pkt [(0, 1, 0x77)])) fetching = some [1, 0, 0] ∧
    recorded (.hostReadCompletion 0 0 false (pkt [(0, 1, 0x51)])) fetching = some [3, 0, 0] := by decide +kernel
theorem test_fetch_failed : comes (·.hostDue 0) fetching = true ∧ after (.completionTimeout 0) fetching = some [1, 0, 1, 0, 0x9202, 0x9102] ∧ after (.hostReadCompletion 0 2 false []) fetching = some [1, 0, 1, 0, 0x9202, 0x9102] := by
  decide +kernel
/-- A COPY awaits host data. -/
def asking : Dev := ring (runs { seq := 0, pkt := pkt [(0, 1, 0x20), (0x20, 8, 64)], host := some ⟨1, 0, 4, 0⟩, off := 32 })
theorem test_command_data : res (.hostReadCompletion 0 0 false [1, 2, 3, 4]) asking (fun d => (d.queue 0).run.map fun c => c.got.length) = some (some 4) ∧
    recorded (.completionTimeout 0) asking = some [0x22, 0x9202, 32] := by decide +kernel
/-- FENCE of sequence 0 of queue 0, complete and not. -/
def fencing (seq done phase : Nat) : Dev := (ring (runs { seq := seq, pkt := pkt [(0, 1, 1), (8, 1, 1)], phase := phase })).setReg .cpQdone [0] (BitVec.ofNat 32 done)
theorem test_fence : recorded (.fence 0) (fencing 1 1 0) = some [0, 0, 0] ∧ res (.fence 0) (fencing 0 0 0) (fun d => (d.queue 0).run.map (·.phase)) = some (some 1) ∧
    recorded (.fenceComplete 0) (fencing 1 1 1) = some [0, 0, 0] ∧ recorded (.fenceComplete 0) (fencing 0 0 1) = some [] := by decide +kernel
theorem test_timestamp : recorded (.timestamp 0) { ring (runs { seq := 0, pkt := pkt [(0, 1, 2), (8, 1, 1)] }) with time := 9 } = some [0, 0, 9] ∧
    recorded (.timestamp 0) (ring (runs { seq := 0, pkt := pkt [(0, 1, 2)] })) = some [2, 0, 0] ∧
    res (.timestamp 0) { ring (runs { seq := 0, pkt := pkt [(0, 1, 2), (0x10, 8, 256)] }) false false heldLine with time := 9 } (fun d => laneN ((d.slice 0).at way2).data 32 0) = some 9 := by decide +kernel
theorem test_query : res (.query 0) (ring (runs { seq := 0, pkt := pkt [(0, 1, 3), (0xA, 1, 1)] })) (fun d => d.out.length) = some 2 ∧
    recorded (.query 0) (ring (runs { seq := 0, pkt := pkt [(0, 1, 3), (8, 1, 1), (9, 1, 16), (0xA, 1, 1)] })) = some [1, 0, 0] := by decide +kernel
/-! ### COPY, FILL and SHELF_SET (R322, R324) -/

/-- Queue 0 runs a transfer of `n` bytes between two spaces (bits [1:0] source, [3:2] destination). -/
def moves (op sp src dst n : Nat) (d : Dev := dev) (c : Cmd := { seq := 0, pkt := [] }) : Dev :=
  ring (runs { c with pkt := pkt [(0, 1, op), (8, 1, sp), (0x10, 8, src), (0x18, 8, dst), (0x20, 8, n)] }) false false d
/-- Lengths of what goes to host memory. -/
def hostBytes (c : Instr) (d : Dev) : Option (List Nat) := res c d fun d => d.out.map fun m => match m with
  | .hostWrite _ _ bs _ => bs.length
  | .hostRead _ _ n _ => n
  | _ => 0
theorem test_fill_host : hostBytes (.fill 0) (moves 0x21 4 0x0807060504030201 4088 20) = some [8, 12, 32] ∧ recorded (.fill 0) (moves 0x21 4 1 4088 20) = some [0, 0, 20] := by decide +kernel
theorem test_fill_device : res (.fill 0) (moves 0x21 0 0x0807060504030201 256 12 heldLine) (fun d => laneN ((d.slice 0).at way2).data 32 2) = some 0x04030201 ∧
    recorded (.fill 0) (moves 0x21 0 1 0x80000000 12 heldLine) = some [2, 0, 0] := by decide +kernel
theorem test_copy_to_host : hostBytes (.copy 0) (moves 0x20 4 256 0 64 heldLine) = some [64, 32] ∧ hostBytes (.copy 0) (moves 0x20 4 0x80000000 0 64 heldLine) = some [32] := by decide +kernel
theorem test_copy_from_host : hostBytes (.copy 0) (moves 0x20 1 4000 256 100 heldLine) = some [96] ∧
    recorded (.copy 0) (moves 0x20 1 0 256 4 heldLine { seq := 0, pkt := [], got := [1, 2, 3, 4] }) = some [0, 0, 4] ∧
    recorded (.copy 0) (moves 0x20 5 0 256 4 heldLine { seq := 0, pkt := [], got := [1, 2, 3, 4] }) = some [0, 0, 4] := by decide +kernel
theorem test_copy_states : recorded (.copy 0) (moves 0x20 5 0 256 64 dev { seq := 0, pkt := [], off := 32, bad := some (0x22, 0x6201, 0) }) = some [0x22, 0x6201, 32] ∧
    recorded (.copy 0) (moves 0x20 5 0 256 64 dev { seq := 0, pkt := [], off := 32, acks := 1 }) = some [] ∧ recorded (.copy 0) (moves 0x20 5 0 256 64 dev { seq := 0, pkt := [], off := 64, phase := 2 }) = some [0, 0, 64] := by
  decide +kernel
theorem test_no_peer : after (.fill 0) (moves 0x21 8 0 (2 ^ 44) 64) = some [1, 1, 0, 0, 0x6205] ∧ after (.copy 0) (moves 0x20 6 (2 ^ 44) 0 64) = some [1, 1, 0, 0, 0x6205] := by decide +kernel
/-- Peer 0 has device ID 5, and is down or not; no port is UP. -/
def peered (down : Bool) : Dev := { dev.setReg .fabPeerId [0] 0x80000005 with peers := SMap.set ⟨[]⟩ 0 { st := b2n down } }
def fabbed (c : Instr) (d : Dev) : Option (List (Nat × Nat)) := res c d fun d => ((d.queue 0).run.map fun c => (c.phase, c.acks)).toList
theorem test_to_peer : (peered false).fabTarget 0 (5 * 2 ^ 44) true = some 0 ∧ (peered false).peerDown 0 = false ∧ fabbed (.fill 0) (moves 0x21 8 0 (5 * 2 ^ 44) 64 (peered false)) = some [(2, 1)] ∧
    fabbed (.copy 0) (moves 0x20 6 (5 * 2 ^ 44) 0 64 (peered false)) = some [(1, 1)] ∧
    recorded (.fill 0) (moves 0x21 8 0 (5 * 2 ^ 44) 64 (peered true)) = some [0x22, 0x6201, 0] := by decide +kernel
/-- SHELF_SET of one shelf or reduction window at unit 0. -/
def shelves (kind size : Nat) (phase : Nat := 0) : Dev :=
  ring (runs { seq := 0, pkt := pkt [(0, 1, 0x30), (8, 1, kind), (0xC, 4, if kind = 0 then 0x100 else 1), (0x18, 8, size)], phase := phase }) false false
    ((dev.setReg .hbmWinBase [16] 0x80000000).setSlice 0 (holds { lineOf2 .v 0 with shelf := some 0, cls := .keep }))
theorem test_shelf_set : res (.shelfSet 0) (shelves 0 1) (fun d => ((d.reg .ucShCfg [0, 0]).toNat, (d.queue 0).run.map (·.phase), ((d.slice 0).at way2).shelf)) = some (0x80000001, some 1, none) ∧
    recorded (.shelfSet 0) (shelves 0 20000) = some [2, 0, 0] := by decide +kernel
theorem test_reduction_window : recorded (.shelfSet 0) (shelves 1 1) = some [0, 0, 0] ∧ res (.shelfSet 0) (shelves 1 1) (fun d => (d.reg .ucRwCfg [0, 0]).toNat) = some 0x80000001 ∧
    recorded (.shelfSweepDone 0) (shelves 0 1 1) = some [0, 0, 0] := by decide +kernel
/-! ### LOAD_PROGRAM, SEAL, QUIESCE, RESUME (R204, R317, R326) -/

/-- A cut list for one bench with eight bytes of code, before its digest; with one field changed. -/
def listBytes (o k v : Nat) : List Byte :=
  (([(0, 4, 0x4C435A45), (4, 2, 1), (6, 2, 128), (8, 4, 232), (0xC, 4, 200), (0x18, 1, 1), (0x1A, 2, 2), (0x1C, 4, 128), (0x20, 4, 1),
    (128, 2, 1), (136, 4, 160), (140, 4, 32), (144, 2, 2), (152, 4, 192), (156, 4, 8), (164, 1, 1), (165, 1, 1), (180, 4, 8), (192, 4, 0x2A), (o, k, v)] : List (Nat × Nat × Nat)).foldl
    (fun (m : Mem) f => m.writeN f.1 f.2.1 f.2.2) Mem.empty).readBytes 0 200
def cutList (o k v : Nat) : List Byte := let im := listBytes o k v
  im ++ sm3 im
/-- A device whose die 0 has 24 × 24 benches and whose management region is one GiB. -/
def home8 (st : Nat := 2) : Dev :=
  { (((dev.setReg .datCap [0, 6] 0x18180240).setReg .hbmWinBase [0] 0x80000001).setReg .hbmWinCfg [0] 0x10) with dies := if st = 2 then dev.dies else SMap.set dev.dies 0 { st := st } }
def loads (got : List Byte) (d : Dev := home8) (sub size : Nat) : Dev := ring (runs { seq := 0, pkt := pkt [(0, 1, 0x10), (9, 1, sub), (0xA, 1, 1), (0x18, 4, size)], got := got }) false false d
/-- Slot 0 is filled and context 0 of bench 0 is its own. -/
def filled0 (d : Dev := home8) : Dev :=
  { d.setBench 0 { ctxs := SMap.set ⟨[]⟩ 0 { valid := true, prog := 0, save := true, partSize := 2, idle := true }, mortise := { setA := { phase := .chained } } } with slots := SMap.set ⟨[]⟩ 0 { image := [], split := 0, progId := [], marks := [], contexts := 1 } }
theorem test_load_asks : hostBytes (.loadProgram 0) (loads [] home8 0 232) = some [232] ∧ recorded (.loadProgram 0) (loads [] home8 0 156) = some [0x10, 0, 0] ∧
    recorded (.loadProgram 0) (loads [] dev 0 232) = some [5, 0, 0] := by decide +kernel
theorem test_load : recorded (.loadProgram 0) (loads (cutList 0 4 0x4C435A45) home8 0 232) = some [0, 0, 0] ∧
    res (.loadProgram 0) (loads (cutList 0 4 0x4C435A45) home8 0 232) (fun d => [b2n (d.slots.has 0), b2n ((d.bench 0).ctxN 0).valid, (d.bench 0).istore.readN 0 4]) = some [1, 1, 0x2A] := by decide +kernel
theorem test_load_header : recorded (.loadProgram 0) (loads (cutList 0 4 1) home8 0 232) = some [0x10, 0, 0] ∧ recorded (.loadProgram 0) (loads (listBytes 0 4 0x4C435A45 ++ leBytes 0 32) home8 0 232) = some [0x11, 0, 0] := by
  decide +kernel
theorem test_load_tables : recorded (.loadProgram 0) (loads (cutList 0x1A 2 0) home8 0 232) = some [0x12, 0, 0] ∧ recorded (.loadProgram 0) (loads (cutList 0x18 1 3) home8 0 232) = some [0x13, 0, 0] ∧
    recorded (.loadProgram 0) (loads (cutList 161 1 24) home8 0 232) = some [0x14, 0, 0] := by decide +kernel
theorem test_load_powers : res (.loadProgram 0) (loads (cutList 0 4 0x4C435A45) (home8 0) 0 232) (fun d => ((d.die 0).st, d.queueDone 0)) = some (1, 0) := by decide +kernel
theorem test_resident : (match (home8).resideOne 0 0 (cutList 0 4 0x4C435A45) 0 (imPlace (cutList 0 4 0x4C435A45) 0) with
    | .inr d => [((d.bench 0).ctxN 0).partSize, ((d.bench 0).ctxN 0).istrSize]
    | .inl _ => []) = [1, 1] := by decide +kernel
theorem test_unload : recorded (.loadProgram 0) (loads [] home8 1 0) = some [4, 0, 0] ∧
    res (.loadProgram 0) (loads [] filled0 1 0) (fun d => [b2n (d.slots.has 0), b2n ((d.bench 0).ctxN 0).valid, d.queueDone 0]) = some [0, 0, 1] := by decide +kernel
/-- A command of queue 0, a manager queue, on the device with slot 0 filled. -/
def managed (f : List (Nat × Nat × Nat)) (phase : Nat := 0) (got : List Byte := []) (d : Dev := filled0) : Dev := ring (runs { seq := 0, pkt := pkt f, phase := phase, got := got }) false true (d.setReg .drwCfg [] 3)
theorem test_seal : res (.seal ⟨0, []⟩) (managed [(0, 1, 0x50)]) (fun d => (b2n ((d.bench 0).ctxN 0).liveA, d.queueDone 0)) = some (1, 1) ∧ recorded (.seal ⟨0, []⟩) (managed [(0, 1, 0x50), (8, 1, 3)]) = some [4, 0, 0] := by
  decide +kernel
theorem test_quiesce : res (.quiesce ⟨0, []⟩) (managed [(0, 1, 0x51), (0xA, 1, 1), (0x18, 8, 100000)]) (fun d => [b2n (d.queueStopped 0), b2n (d.queueStopped 7), d.queueDone 0]) = some [0, 1, 0] ∧
    recorded (.quiesce ⟨0, []⟩) (managed [(0, 1, 0x51), (0xA, 1, 1)]) = some [5, 0, 1088] := by decide +kernel
theorem test_quiesce_record : res (.quiesce ⟨0, []⟩) (managed [(0, 1, 0x51), (0xA, 1, 1), (0x18, 8, 100000)] 1) (fun d => (d.out.drop 7).map fun m => match m with
    | .hostWrite _ a bs _ => (a, bs.length)
    | _ => (0, 0)) = some [(896, 128), (1024, 64), (0, 32)] := by decide +kernel
/-- Queue 1 runs a COPY, or a LAUNCH whose context is in a step, while queue 0 quiesces. -/
def quiescing (x : Cmd) (d : Dev) : Dev := { managed [(0, 1, 0x51)] 1 [] d with queues := SMap.set (SMap.set ⟨[]⟩ 0 (runs { seq := 0, pkt := pkt [(0, 1, 0x51)], phase := 1 })) 1 (runs x) }
theorem test_seal_parity : res (.seal ⟨0, [(0, { pe := some 0 })]⟩) (managed [(0, 1, 0x50)]) (fun d => (((d.bench 0).ctxN 0).killCause, d.queueDone 0)) = some (0x2203, 1) ∧
    recorded (.seal ⟨0, []⟩) (let d := managed [(0, 1, 0x50)]; { d with queues := d.queues.set 7 (runs { seq := 0, pkt := pkt [(0, 1, 0x11)], launch := some { prog := 0, owns := true } }) }) = some [7, 0, 0] := by
  decide +kernel
theorem test_quiesce_timeout : comes (·.quiesceDue 0) (quiescing { seq := 0, pkt := pkt [(0, 1, 0x20)], off := 8 } filled0) = true ∧
    recorded (.quiesceTimeout 0) (quiescing { seq := 0, pkt := pkt [(0, 1, 0x20)], off := 8 } filled0) = some [0x22, 0, 8] ∧
    res (.quiesceTimeout 0) (quiescing { seq := 0, pkt := pkt [(0, 1, 0x11)], launch := some { prog := 0, running := true } } (filled0.setBench 0 { ctxs := SMap.set ⟨[]⟩ 0 { valid := true, idle := false } }))
      (fun d => ((d.launch 1).map (·.killing), d.kills.length)) = some (some (some (0x22, 0)), 1) ∧
    res (.quiesce ⟨0, []⟩) (quiescing { seq := 0, pkt := pkt [(0, 1, 0x20)] } filled0) (fun d => d.out.length) = some 0 := by decide +kernel
/-- A record of no queues and of bench 0's context 0 with seed 9 and set A live. -/
def recd (nq : Nat := 0) (ctx : Nat := 0) : List Byte := leBytes 0 2 ++ leBytes nq 2 ++ leBytes 1 4 ++ leBytes 0 56 ++
  (if nq = 1 then leBytes 7 4 ++ leBytes 5 4 ++ leBytes 4 4 ++ leBytes 0xFFFFFFFF 4 else []) ++ leBytes 0 2 ++ leBytes ctx 1 ++ leBytes 0 1 ++ leBytes 9 4 ++ leBytes 3 4 ++ leBytes 1 4
def resumes (got : List Byte) : Dev := managed [(0, 1, 0x52), (0xA, 1, 1)] 0 got ((filled0).setReg .cpQstate [7] 5)
theorem test_resume : res (.resume 0) (resumes (recd 1)) (fun d => [((d.bench 0).ctxN 0).srSeed.toNat, b2n (d.queueStopped 7), d.cqHead 7, d.queueDone 7, d.queueDone 0]) = some [9, 0, 5, 4, 1] ∧
    recorded (.resume 0) (resumes (recd 0 1)) = some [8, 0, 0] ∧ hostBytes (.resume 0) (resumes []) = some [64] := by decide +kernel
/-! ### LAUNCH (R319 to R321, R332 to R337) -/

/-- Slot 0 with bench 0's context 0, and slot 1 with context 1 of the same bench, on dies whose bays are ON. -/
def two (c0 : BenchCtx) (d : Dev := dev) : Dev :=
  { (d.setReg .pwrDieDom [0] domAllOn).setBench 0 { ctxs := SMap.set (SMap.set ⟨[]⟩ 0 c0) 1 { valid := true, prog := 1, idle := true } } with
    slots := SMap.set (SMap.set ⟨[]⟩ 0 { image := [], split := 0, progId := [], marks := [], contexts := 1 }) 1 { image := [], split := 0, progId := [], marks := [], contexts := 1 } }
def ctx0 : BenchCtx := { valid := true, idle := true }
/-- Queue 0 runs a LAUNCH in some state. -/
def lrun (l : Launch) (c0 : BenchCtx := ctx0) (budget : Int := 5) (d : Dev := dev) : Dev :=
  ring { run := some { seq := 0, pkt := pkt [(0, 1, 0x11)], launch := some l }, budget := budget } false false (two c0 d)
/-- What the LAUNCH of queue 0 has become. -/
def ofLaunch {α : Type} (c : Instr) (d : Dev) (f : Launch → α) : Option α := (res c d fun d => (d.launch 0).map f).join
def launching (f : List (Nat × Nat × Nat)) (d : Dev := two ctx0) : Dev := ring (runs { seq := 0, pkt := pkt ((0, 1, 0x11) :: (9, 1, 0xFF) :: (0xC, 4, 3) :: (0x10, 4, 77) :: f) }) false false d
theorem test_launch : ofLaunch (.launch 0) (launching [(0x1C, 4, 9)]) (fun l => [l.prog, l.step, l.steps, b2n l.running]) = some [0, 9, 3, 0] ∧
    res (.launch 0) (launching []) (fun d => ((d.bench 0).ctxN 0).srSeed.toNat) = some 77 := by decide +kernel
theorem test_launch_bad : recorded (.launch 0) (launching [(9, 1, 0)]) = some [1, 0, 0] ∧ recorded (.launch 0) (launching [(8, 1, 5)]) = some [4, 0, 0] ∧
    recorded (.launch 0) (launching [(0x20, 8, 8), (0x28, 2, 1)]) = some [2, 0, 0] := by decide +kernel
theorem test_launch_clamp : res (.launch 0) (launching [(0x30, 2, 0x8003)]) (fun d => (b2n (d.launch 0).isSome, (d.queue 0).run.map (·.phase), d.clampDown.map (·.id))) = some (0, some 1, [3]) ∧
    ofLaunch (.launch 0) (let d := launching [(0x30, 2, 0x8003)]; d.modCmd 0 fun c => { c with phase := 1, off := 5 }) (fun l => (l.clamps, l.began)) = some ([3], 5) ∧
    res (.launch 0) (launching [(0x30, 2, 0x8003)]) (fun d => (d.reg .clpIdcfg [3]).toNat) = some 0x80000000 := by decide +kernel
theorem test_launch_marks : ofLaunch (.launch 0) (launching [(0x20, 8, 256), (0x28, 2, 1)] (two ctx0 heldLine)) (fun l => l.marks) = some [(9, 7)] := by decide +kernel
theorem test_step_start : ofLaunch (.launchStepStart 0) (lrun { prog := 0 }) (fun l => [b2n l.running, b2n l.owns]) = some [1, 1] ∧
    res (.launchStepStart 0) (lrun { prog := 0 }) (fun d => d.starts.map fun m => (m.die, m.cycle)) = some [(0, 1024)] ∧
    res (.launchStepStart 0) (lrun { prog := 0, running := true }) (fun d => d.starts.length) = some 0 := by decide +kernel
/-- Queue 1 runs a LAUNCH of slot 1, which shares bench 0. -/
def against (l m : Launch) (b0 b1 : Int) : Dev := let d := lrun l ctx0 b0
  { d with queues := d.queues.set 1 { run := some { seq := 0, pkt := pkt [(0, 1, 0x11)], launch := some m }, budget := b1 } }
theorem test_contends : ofLaunch (.launchStepStart 0) (against { prog := 0 } { prog := 1, owns := true } 5 5) (fun l => [b2n l.contends, b2n l.owns]) = some [1, 0] ∧
    ofLaunch (.launchStepStart 0) ((lrun { prog := 0 }).setReg .pwrDieDom [0] 0) (fun l => [b2n l.running, b2n l.owns]) = some [0, 1] := by decide +kernel
theorem test_step_end : ofLaunch (.launchStepEnd 0) (lrun { prog := 0, running := true, owns := true, steps := 2 }) (fun l => [l.step, l.main, b2n l.running]) = some [1, 1, 0] ∧
    recorded (.launchStepEnd 0) (lrun { prog := 0, running := true, owns := true }) = some [0, 0, 1] ∧
    recorded (.launchStepEnd 0) (lrun { prog := 0, running := true } { ctx0 with idle := false }) = some [] := by decide +kernel
theorem test_yield : res (.launchStepEnd 0) (against { prog := 0, running := true, owns := true, steps := 2 } { prog := 1, contends := true } (-7) (-150000))
    (fun d => [(d.queue 0).budget, (d.queue 1).budget, b2n ((d.launch 0).any (·.owns)), b2n ((d.launch 1).any (·.owns))]) = some [99993, 50000, 0, 1] := by decide +kernel
theorem test_yield_premises : (against { prog := 0, running := true, owns := true, steps := 2 } { prog := 1, contends := true } (-7) (-150000)).contenders 0 0 = [1] := by decide +kernel
theorem test_overrun : res (.overrunRaise 0) (lrun { prog := 0, overrun := 400001 }) (fun d => (d.reg .cpOverruns []).toNat :: d.reports.map (·.code)) = some [1, 0x9103] ∧
    res (.overrunRaise 0) (lrun { prog := 0, overrun := 400000 }) (fun d => d.reports.length) = some 0 := by decide +kernel
/-- A LAUNCH of slot 0 with a second context, on bench 1, still in the step. -/
def pair (l : Launch) (c0 : BenchCtx) : Dev := let d := lrun l c0
  { d with benches := d.benches.set 1 { ctxs := SMap.set ⟨[]⟩ 0 { valid := true, idle := false } } }
theorem test_launch_kill : ofLaunch (.launchKill 0) (pair { prog := 0, running := true } { ctx0 with killed := true, killCause := 0x3205 }) (fun l => l.killing) = some (some (0x20, 0x3205)) ∧
    res (.launchKill 0) (pair { prog := 0, running := true } { ctx0 with killed := true, killCause := 0x3205 }) (fun d => d.kills.map fun m => (m.bench, m.code)) = some [(1, 0x3205)] ∧
    recorded (.launchKill 0) (lrun { prog := 0, killing := some (0x20, 0x3205), main := 4 }) = some [0x20, 0x3205, 4] := by decide +kernel
theorem test_launch_kill_none : ofLaunch (.launchKill 0) (lrun { prog := 0, running := true }) (fun l => l.killing) = some none := by decide +kernel
theorem test_deadline : ofLaunch (.deadlineExpiry 0) (pair { prog := 0, running := true, deadline := 5 } ctx0) (fun l => l.killing) = some (some (0x21, 0x9105)) ∧
    ofLaunch (.deadlineExpiry 0) (pair { prog := 0, running := true } ctx0) (fun l => l.killing) = some none := by decide +kernel
theorem test_core_watchdog : ofLaunch (.cpCoreWatchdog 1 (some 0)) (pair { prog := 0, running := true } ctx0) (fun l => l.killing) = some (some (0x23, 0x9106)) ∧
    recorded (.cpCoreWatchdog 1 (some 0)) (ring (runs { seq := 0, pkt := pkt [(0, 1, 0x20)], off := 8 })) = some [0x23, 0x9106, 8] ∧
    res (.cpCoreWatchdog 1 none) dev (fun d => d.reports.map (·.code)) = some [0x9106] := by decide +kernel
theorem test_mark_late : ofLaunch (.progressMarkLate 0 0) (pair { prog := 0, running := true, marks := [(1, 10)] } ctx0) (fun l => (l.lateDone, l.switched)) = some ([0], false) ∧
    ofLaunch (.progressMarkLate 0 0) (pair { prog := 0, running := true, marks := [(1, 10)], back := some 1 } ctx0) (fun l => (l.switched, l.onBack)) = some (true, false) ∧
    ofLaunch (.progressMarkLate 0 0) (pair { prog := 0, running := true, marks := [(1, 10)], back := some 1, lateMode := 1 } ctx0) (fun l => (l.onBack, l.running)) = some (true, false) := by decide +kernel
theorem test_mark_arrived : res (.progressMarkLate 0 0) (pair { prog := 0, running := true, marks := [(1, 10)], arrived := [1] } ctx0) (fun d => d.reports.length) = some 0 ∧
    res (.progressMarkLate 0 0) (pair { prog := 0, running := true, marks := [(1, 10)], back := some 1, lateMode := 1 } ctx0) (fun d => d.kills.map (·.code)) = some [0x9104] := by decide +kernel
theorem test_ends_come : comes (·.deadlineDue 0) (pair { prog := 0, running := true, deadline := 5 } ctx0) = true ∧ comes (·.markDue 0 0) (pair { prog := 0, running := true, marks := [(1, 10)] } ctx0) = true ∧
    (pair { prog := 0, waitT := some 3, marks := [(1, 10)] } ctx0).markDue 0 0 = some 13 := by decide +kernel
theorem test_resumed_seed : res (.launch 0) (let d := launching [(0x1C, 4, 2)]; d.setQueue 0 { d.queue 0 with resumeAt := some 4 }) (fun d => (((d.bench 0).ctxN 0).srSeed, (d.launch 0).map fun l => (l.step, l.main))) = some (0, some (4, 2)) := by
  decide +kernel
theorem test_backing_record : (match res (.launchStepEnd 0) (lrun { prog := 0, back := some 0, switched := true, onBack := true, ranBack := true, running := true }) (fun d => d.out) with
    | some (.hostWrite _ _ bs _ :: _) => bs.getD 7 0
    | _ => 0) % 4 = 3 ∧ ofLaunch (.launchStepStart 0) (lrun { prog := 0, waitT := some 4 }) (fun l => (l.stepT, l.waitT)) = some (4, none) := by decide +kernel
/-! ### COLLECTIVE (R323, R388, R389) -/

/-- This device is 1; system peers 0 and 1 are devices 5 and 6; the slice holds line 2, and line 3 with what line 2 has. -/
def fabricDev (me : Nat := 1) (down : Nat := 0) : Dev :=
  { (((win {} []).setReg .fabDevid [0] (BitVec.ofNat 32 me)).setReg .fabPeerId [0] 0xC0000005).setReg .fabPeerId [1] 0xC0000006 with
    peers := SMap.set ⟨[]⟩ 0 { st := down }, slices := SMap.set ⟨[]⟩ 0 { lines := SMap.set (SMap.set ⟨[]⟩ way2 (lineOf2 .v 0)) (16 * sliceSet 3) { lineOf2 .v 0 with line := 3, loc := 3, data := 0x100000002#1024 } } }
/-- A COLLECTIVE of devices 1 and 5 (or 5, 1; or 1, 5, 6), in the order listed: kind, source, destination, bytes. -/
def coll (kind src dst bytes : Nat) (list : List Nat) (c : Cmd := { seq := 0, pkt := [] }) (d : Dev := fabricDev) : Dev :=
  ring (runs { c with pkt := pkt [(0, 1, 0x22), (8, 1, kind), (9, 1, 24), (0xC, 4, list.length), (0x10, 8, src), (0x18, 8, dst), (0x20, 8, bytes), (0x28, 8, 256), (0x30, 4, 7)], phase := 1
                      got := list.flatMap fun i => leBytes i 4 }) false false d
/-- Stage, outstanding frames, and the opcodes queued to peer 0. -/
def collState (c : Instr) (d : Dev) : Option (List Nat) := res c d fun d =>
  (match (d.queue 0).run with
    | some c => [c.stage.getD 0 0, c.acks]
    | none => []) ++ ((d.peer 0).bulk.unacked ++ (d.peer 0).bulk.backlog).map (·.frame.op)
theorem test_coll_peers : (fabricDev).findPeer 0 5 = some 0 ∧ (fabricDev).ownId 0 = 1 ∧ (coll 3 256 256 64 [1, 5]).access ((coll 3 256 256 64 [1, 5]).queueWho 0) 384 = some ⟨0, 384, false, (fabricDev).win 16⟩ := by decide +kernel
theorem test_broadcast : collState (.collective 0) (coll 3 256 512 64 [1, 5]) = some [3, 1, 1, 8] ∧ collState (.collective 0) (coll 3 256 512 64 [5, 1]) = some [0, 0] ∧
    recorded (.collective 0) (coll 3 256 512 64 [5, 1] { seq := 0, pkt := [], coll := [(1, 5, 0)] }) = some [0, 0, 0] := by decide +kernel
theorem test_coll_wait : collState (.collective 0) (coll 3 256 512 64 [1, 5] { seq := 0, pkt := [], stage := SMap.set ⟨[]⟩ 0 3, acks := 1 }) = some [3, 1] ∧
    recorded (.collective 0) (coll 3 256 512 64 [1, 5] { seq := 0, pkt := [], stage := SMap.set ⟨[]⟩ 0 3 }) = some [0, 0, 0] ∧
    recorded (.collective 0) (coll 3 256 512 64 [1, 5] { seq := 0, pkt := [], bad := some (0x30, 0x6201, 1) }) = some [0x30, 0x6201, 1] := by decide +kernel
theorem test_gather : collState (.collective 0) (coll 2 256 384 128 [1, 5]) = some [1, 1, 1, 8] ∧
    res (.collective 0) (coll 2 256 384 128 [1, 5]) (fun d => laneN ((d.slice 0).at (16 * sliceSet 3)).data 32 0) = some 9 ∧
    recorded (.collective 0) (coll 2 256 384 128 [1, 5] { seq := 0, pkt := [], stage := SMap.set ⟨[]⟩ 0 1, coll := [(1, 5, 0)] }) = some [0, 0, 0] := by decide +kernel
theorem test_chain_first : collState (.collective 0) (coll 0 256 384 64 [1, 5] { seq := 0, pkt := [], coll := [(0, 5, 0)] }) = some [2, 1, 4] ∧
    collState (.collective 0) (coll 0 256 384 64 [1, 5] { seq := 0, pkt := [], stage := SMap.set ⟨[]⟩ 0 1 }) = some [1, 0] ∧
    recorded (.collective 0) (coll 0 256 384 64 [1, 5] { seq := 0, pkt := [], stage := SMap.set ⟨[]⟩ 0 2, coll := [(1, 5, 0)] }) = some [0, 0, 0] := by decide +kernel
theorem test_chain_last : collState (.collective 0) (coll 0 256 384 64 [5, 1]) = some [1, 0, 8] ∧
    res (.collective 0) (coll 0 256 384 8 [5, 1]) (fun d => ((d.slice 0).at (16 * sliceSet 3)).data.toNat % 2 ^ 64) = some 0x700000009 ∧
    collState (.collective 0) (coll 0 256 384 64 [5, 1] { seq := 0, pkt := [], stage := SMap.set ⟨[]⟩ 0 1, redGot := SMap.set ⟨[]⟩ 0 64 }) = some [3, 1, 1, 8] := by decide +kernel
theorem test_scatter : collState (.collective 0) (coll 1 256 384 64 [5, 1] { seq := 0, pkt := [], stage := SMap.set ⟨[]⟩ 0 1, redGot := SMap.set ⟨[]⟩ 0 64 }) = some [3, 1, 1, 8] ∧
    (match Dev.cpRead .manager 2 fabricDev 384 64 [] with
      | .ok _ bs => bs.length
      | _ => 0) = 64 := by decide +kernel
theorem test_barrier : collState (.collective 0) (coll 4 0 256 0 [5, 1]) = some [1, 1, 5] ∧ collState (.collective 0) (coll 4 0 256 0 [1, 5, 6]) = some [2, 0] ∧
    res (.collective 0) (coll 4 0 256 0 [1, 5, 6]) (fun d => laneN ((d.slice 0).at way2).data 32 0) = some 10 := by decide +kernel
theorem test_barrier_end : recorded (.collective 0) (coll 4 0 256 0 [5, 1] { seq := 0, pkt := [], stage := SMap.set ⟨[]⟩ 0 1, old := some 3 }) = some [0, 0, 0] ∧
    collState (.collective 0) (coll 4 0 256 0 [5, 1] { seq := 0, pkt := [], stage := SMap.set ⟨[]⟩ 0 1, old := some 4 }) = some [2, 0] ∧
    recorded (.collective 0) (coll 4 0 256 0 [5, 1] { seq := 0, pkt := [], stage := SMap.set ⟨[]⟩ 0 2, coll := [(1, 5, 0)] }) = some [0, 0, 0] := by decide +kernel
theorem test_member_timeout : comes (·.collDue 0) (coll 3 256 512 64 [5, 1]) = true ∧ recorded (.collectiveMemberTimeout 0) (coll 3 256 512 64 [5, 1]) = some [0x30, 0, 0] := by decide +kernel
/-- A COLLECTIVE not begun, whose list, at line 2, names devices 9 and 7, or (with other data) 1 and 5. -/
def fresh (kind dst : Nat) (data : Nat) (d : Dev := fabricDev) : Dev :=
  ring (runs { seq := 0, pkt := pkt [(0, 1, 0x22), (8, 1, kind), (9, 1, 16), (0xC, 4, 2), (0x10, 8, 384), (0x18, 8, dst), (0x20, 8, 64), (0x28, 8, 256), (0x30, 4, 7)] }) false false
    (d.setSlice 0 { lines := (d.slice 0).lines.set way2 { lineOf2 .v 0 with data := BitVec.ofNat 1024 data } })
theorem test_coll_begin : recorded (.collective 0) (fresh 3 0x80000000 0x500000001) = some [2, 0, 0] ∧ after (.collective 0) (fresh 3 384 0x700000009) = some [1, 1, 0, 0, 0x6205] ∧
    recorded (.collective 0) (fresh 3 384 0x600000005) = some [1, 0, 0] := by decide +kernel
theorem test_coll_down : recorded (.collective 0) (fresh 3 384 0x500000001 (fabricDev 1 1)) = some [0x30, 0x6201, 1] ∧ collState (.collective 0) (fresh 3 384 0x100000005) = some [0, 0] := by decide +kernel
theorem test_barrier_poisoned : recorded (.collective 0) (coll 4 0 256 0 [1, 5] { seq := 0, pkt := [] } ((fabricDev).modSlice 0 fun s => { s with lines := s.lines.set way2 { lineOf2 .v 0 with poison := true } })) = some [0x22, 0x2506, 0] := by decide +kernel
/-! ### Book-match mirroring (R409 to R424) -/

/-- Window 0 of instance 0 in a state, over line 0 on, of one block; its buddy is peer 0. -/
def mirDev (st : Nat) (x : MirWin := {}) (d : Dev := fabricDev) : Dev :=
  { ((d.setReg64 .mirWSizeLo .mirWSizeHi [0, 0] 4096).setMirState 0 st).setReg64 .mirWBaddrLo .mirWBaddrHi [0, 0] 0x10000 with mirrors := SMap.set ⟨[]⟩ 0 x }
def mirCmd (op : Nat) (f : List (Nat × Nat × Nat)) (d : Dev) : Dev := ring (runs { seq := 0, pkt := pkt ((0, 1, op) :: f) }) false false d
/-- State of window 0, opcodes queued to peer 0, and causes. -/
def mirrored (c : Instr) (d : Dev) : Option (List Nat) := res c d fun d => d.mirState 0 :: (((d.peer 0).bulk.unacked ++ (d.peer 0).bulk.backlog).map (·.frame.op) ++ d.reports.map (·.code))
theorem test_mirror_open : mirrored (.mirrorOpen 0) (mirCmd 0x40 [(0xC, 4, 5), (0x18, 8, 4096), (0x20, 8, 0x10000)] fabricDev) = some [1, 2] ∧
    recorded (.mirrorOpen 0) (mirCmd 0x40 [(0xC, 4, 5), (0x18, 8, 4095)] fabricDev) = some [1, 0, 0] ∧ recorded (.mirrorOpen 0) (mirCmd 0x40 [(0xC, 4, 9), (0x18, 8, 4096)] fabricDev) = some [2, 0, 0] := by decide +kernel
theorem test_mirror_open_refused : recorded (.mirrorOpen 0) (mirCmd 0x40 [(0xC, 4, 5), (0x18, 8, 4096)] (mirDev 2)) = some [0x40, 0, 0] ∧
    recorded (.mirrorOpen 0) (mirCmd 0x40 [(0xC, 4, 5), (0x18, 8, 4096)] (fabricDev 1 1)) = some [0x44, 0, 0] ∧ recorded (.mirrorOpen 0) (mirCmd 0x40 [(8, 1, 1), (0xC, 4, 5), (0x18, 8, 4096)] (mirDev 2)) = some [0x41, 0, 0] := by
  decide +kernel
theorem test_mirror_close : mirrored (.mirrorOpen 0) (mirCmd 0x40 [(9, 1, 1)] (mirDev 2)) = some [0] ∧ recorded (.mirrorOpen 0) (mirCmd 0x40 [(9, 1, 1)] (mirDev 2)) = some [0, 0, 0] ∧
    recorded (.mirrorOpen 0) (mirCmd 0x40 [(9, 1, 1)] (mirDev 0)) = some [0x40, 0, 0] := by decide +kernel
/-- The 32 lines of block 0 are held by their slices. -/
def block0 (d : Dev) : Dev := (List.range 32).foldl (fun d i => d.modSlice (homeSlice 0 (128 * i)) fun s => { s with lines := s.lines.set (16 * sliceSet i) { line := i, loc := i, valid := true } }) { d with slices := ⟨[]⟩ }
theorem test_block_held : ((List.range 32).all fun i => match (block0 (mirDev 2)).access (.inst 0) (128 * i) with
    | some l =>
      let s := (block0 (mirDev 2)).slice (homeSlice l.die l.x)
      s.pend.isEmpty && (s.find (l.x / 128)).any fun k => (s.lines.find? k).any fun x => x.valid && !x.poison && x.dir == .v && x.data == 0
    | none => false) = true := by decide +kernel
theorem test_mirror_commit : mirrored (.mirrorCommit 0) (mirCmd 0x41 [(8, 8, 1), (0x10, 8, 1)] (mirDev 2)) = some [3, 0x11] ∧ recorded (.mirrorCommit 0) (mirCmd 0x41 [(0x10, 8, 1)] (mirDev 2)) = some [0x40, 0, 0] ∧
    recorded (.mirrorCommit 0) (mirCmd 0x41 [(8, 8, 1)] (mirDev 2)) = some [0x42, 0, 0] := by decide +kernel
theorem test_mirror_commit_other : recorded (.mirrorCommit 0) (mirCmd 0x41 [(8, 8, 1), (0x10, 8, 1)] (mirDev 6)) = some [0x44, 0, 0] ∧ mirrored (.mirrorCommit 0) (mirCmd 0x41 [(8, 8, 1), (0x10, 8, 1)] (mirDev 3)) = some [3] ∧
    recorded (.mirrorCommit 0) (mirCmd 0x41 [(8, 8, 1), (0x10, 8, 1)] (mirDev 2 {} (fabricDev 1 1))) = some [0x44, 0xA102, 0] := by decide +kernel
theorem test_mirror_commit_block : mirrored (.mirrorCommit 0) (mirCmd 0x41 [(8, 8, 1), (0x10, 8, 1)] (block0 (mirDev 2 { sent := true, d0 := { all := true } }))) = some [3, 0x10, 0x10, 0x11] := by decide +kernel
theorem test_mirror_restore : mirrored (.mirrorRestore 0) (mirCmd 0x42 [(0xC, 4, 5)] (mirDev 2)) = some [4, 2] ∧ recorded (.mirrorRestore 0) (mirCmd 0x42 [(0xC, 4, 5)] (mirDev 0)) = some [0x40, 0, 0] ∧
    recorded (.mirrorRestore 0) (mirCmd 0x42 [(0xC, 4, 5)] (mirDev 5)) = some [0x43, 0, 0] := by decide +kernel
theorem test_mirror_restore_other : recorded (.mirrorRestore 0) (mirCmd 0x42 [(0xC, 4, 9)] (mirDev 7)) = some [2, 0x6205, 0] ∧ recorded (.mirrorRestore 0) (mirCmd 0x42 [(0xC, 4, 5)] (mirDev 6)) = some [0x44, 0, 0] ∧
    mirrored (.mirrorRestore 0) (mirCmd 0x42 [(0xC, 4, 5)] (mirDev 3)) = some [3] := by decide +kernel
theorem test_block_send : mirrored (.mirrorBlockSend 0) (block0 (mirDev 2 { d0 := { all := true } })) = some [2, 0x11, 0x10] ∧
    mirrored (.mirrorBlockSend 0) (block0 (mirDev 2 { d0 := { all := true }, wrote := SMap.set ⟨[]⟩ 0 0 })) = some [2, 0x11, 0x10] ∧ mirrored (.mirrorBlockSend 0) (mirDev 2 {} (fabricDev 1 1)) = some [6, 0xA102] := by decide +kernel
theorem test_commit_timeout : mirrored (.commitTimeout 0) (mirDev 3 { commit := some 1 }) = some [2, 0xA103] ∧ mirrored (.commitTimeout 0) (mirDev 2) = some [2] ∧
    recorded (.commitTimeout 0) (mirCmd 0x41 [(8, 8, 1), (0x10, 8, 1)] (mirDev 3 { commit := some 1, job := some (0, 0) })) = some [0x45, 0xA103, 0] := by decide +kernel
theorem test_repair_timeout : res (.repairTimeout 0) { mirDev 2 with repairs := [{ id := 4, peer := 0, slice := 0, win := 0, line := 2, loc := 2, block := 0, code := 0x3204, held := true }] }
    (fun d => (b2n (d.hbmBad 0 2), d.net.map (·.poison), d.repairs.length)) = some (1, [true], 0) ∧ res (.repairTimeout 0) (mirDev 2) (fun d => d.net.length) = some 0 := by decide +kernel
theorem test_mirror_ends : comes (·.settleDue 0) (mirDev 2 { d0 := { all := true }, wrote := SMap.set ⟨[]⟩ 0 0 }) = true ∧ comes (·.commitDue 0) (mirDev 3 { commit := some 1 }) = true ∧
    comes (·.repairDue 0) { mirDev 2 with repairs := [{ id := 4, peer := 0, slice := 0, win := 0, line := 2, loc := 2, block := 0, code := 0x3204 }] } = true ∧
    res (.mirrorBlockSend 0) (block0 (mirDev 2 { d0 := { all := true }, wrote := SMap.set ⟨[]⟩ 0 0 })) (fun d => d.ticks) = some 5000 := by decide +kernel
/-! ### Fabric ports (R367 to R371, R374, R385, R386) -/

/-- Port 0 of the device in a state; ports 0 and 1 list peer 0, first port 0; the clock is there. -/
def portDev (st : Nat) (x : FabPort := {}) (d : Dev := fabricDev) : Dev :=
  { (((d.setRegBit .fabDevid [0] 31).setRegBit .fabCfg [] 15).setReg .fabPeerRt [0] 0x8180) with ports := SMap.set (SMap.set ⟨[]⟩ 0 { x with st := st }) 1 { st := 3 } }
/-- State and reason of port 0, and causes. -/
def portNow (c : Instr) (d : Dev) : Option (List Nat) := res c d fun d => (d.port 0).st :: (d.port 0).why :: d.reports.map (·.code)
theorem test_port_enable : portNow (.portEnable 0) ((portDev 0).setRegBit .fabPortCtl [0] 0) = some [2, 0] ∧ portNow (.portEnable 0) ((portDev 0).clrRegBit .fabCfg [] 15) = some [1, 3, 0x6104] ∧
    portNow (.portEnable 0) ((portDev 0).clrRegBit .fabDevid [0] 31) = some [0, 0] := by decide +kernel
theorem test_port_enable_split : portNow (.portEnable 0) ((portDev 0).setRegFld .drwCfg [] 1 0 3) = some [1, 1, 0x6103] ∧ portNow (.portEnable 0) (portDev 3) = some [3, 0] := by decide +kernel
theorem test_port_disable : portNow (.portDisable 0) (portDev 3) = some [0, 0] ∧ res (.portDisable 0) (portDev 3) (fun d => d.regBit .fabPortCtl [0] 0) = some true := by decide +kernel
/-- Two frames to peer 0 are unacknowledged, sent on port 0. -/
def twoSent (d : Dev) : Dev := d.setPeer 0 { bulk := { next := 2, unacked := [{ frame := { op := 1, src := 1, dst := 5 }, owner := .none }, { frame := { op := 1, src := 1, dst := 5, seq := 1 }, owner := .none }] } }
theorem test_port_down : portNow (.portDownRequest 0) (portDev 3) = some [4, 0, 0x6101] ∧ portNow (.portAlignmentLoss 0) (portDev 3) = some [4, 0, 0x6101] ∧
    portNow (.portDownRequest 0) (portDev 2) = some [2, 0] := by decide +kernel
theorem test_streams_move : res (.portAlignmentLoss 0) (twoSent (portDev 3)) (fun d => (d.peer 0).bulk.slot :: d.out.map fun m => match m with
    | .frame p f => 10 * p + f.seq
    | _ => 99) = some [1, 10, 11] := by decide +kernel
theorem test_port_training : portNow (.portTrainingDone 0 .failed) (portDev 2) = some [5, 4, 0x6102] ∧ portNow (.portTrainingDone 0 .laneOrder) (portDev 2) = some [1, 2, 0x6103] ∧
    portNow (.portTrainingDone 0 .failed) (portDev 3) = some [3, 0] := by decide +kernel
theorem test_training_up : res (.portTrainingDone 0 (.up (some (7, 9, true)) true)) ((portDev 2 { wasUp := true }).setRegBit .fabPortCtl [0] 2)
      (fun d => [(d.port 0).st, b2n (d.port 0).direct, (d.port 0).partnerPort, (d.port 0).partnerId, d.regFld .fcRcv [0] 15 0]) = some [3, 1, 7, 9, 1] ∧
    res (.portTrainingDone 0 (.up none false)) ((portDev 2).setRegBit .fabPortCtl [0] 2) (fun d => [(d.port 0).st, b2n (d.port 0).direct, d.regFld .fcRcv [0] 15 0]) = some [3, 0, 0] := by decide +kernel
theorem test_refclk : res .fabricRefclkLoss (portDev 0) (fun d => [(d.port 0).st, (d.port 1).st, (d.port 1).why] ++ d.reports.map (·.master)) = some [0, 1, 3, 0xF881] ∧
    res .fabricRefclkReturn (portDev 1 { why := 3 }) (fun d => [(d.port 0).st, (d.port 0).why]) = some [2, 0] ∧ res .fabricRefclkReturn (portDev 1 { why := 2 }) (fun d => [(d.port 0).st, (d.port 0).why]) = some [1, 2] := by decide +kernel
theorem test_devid_write : res (.fabDevidWrite 0 0x80000007) (portDev 0) (fun d => (d.reg .fabDevid [0]).toNat) = some 0x80000001 ∧
    res (.fabDevidWrite 0 0xFFFFFFFF) { portDev 0 with ports := ⟨[]⟩ } (fun d => [(d.reg .fabDevid [0]).toNat, (d.port 0).st]) = some [0x800FFFFF, 2] := by decide +kernel
theorem test_peerid_write : res (.fabPeerIdWrite 0 0x80000006) (twoSent (portDev 3)) (fun d => [(d.reg .fabPeerId [0]).toNat, (d.peer 0).bulk.unacked.length]) = some [0x80000006, 0] ∧
    res (.fabPeerIdWrite 0 0x80000005) (twoSent (portDev 3)) (fun d => [(d.reg .fabPeerId [0]).toNat, (d.peer 0).bulk.unacked.length]) = some [0x80000005, 2] := by decide +kernel
theorem test_peerid_count : (portDev 3).systemCount 0 = 1 ∧ (portDev 3).systemCount 9 = 2 := by decide +kernel
theorem test_xclp_write : res (.fabXclpWrite 3 0 0xFFFFFFFF) dev (fun d => (d.reg .fabXclpCfg [3]).toNat) = some 0xC0000FFF ∧
    res (.fabXclpWrite 3 1 0xFFFFFFFF) (dev.setRegBit .clpIdcfg [3] 31) (fun d => (d.reg .fabXclpKids0 [3]).toNat) = some 0 := by decide +kernel
/-- The register file lists peer entry 0, which has SYSTEM set, 4,095 times. -/
def fullDev : Dev := { dev with regs := ⟨dev.regs.cells ++ List.replicate 4095 (RegName.fabPeerId.addr [0], 0xC0000000#32)⟩ }
theorem test_peerid_full : fullDev.live = true ∧ (0xC0000FFF#32 &&& 0xC00FFFFF#32).getLsbD 30 = true ∧ 4095 ≤ fullDev.systemCount 4095 := by
  refine ⟨by decide +kernel, by decide, ?_⟩
  show 4095 ≤ (((dev.regs.cells ++ List.replicate 4095 (RegName.fabPeerId.addr [0], 0xC0000000#32)).map (·.1)).filter _).length
  rw [List.map_append, List.filter_append, List.length_append, List.map_replicate, List.filter_replicate, if_pos, List.length_replicate]
  · exact Nat.le_add_left _ _
  · decide +kernel
/-! ### Arrivals and reliability (R377, R382 to R384) -/

def fr (ack : Nat := 0) (seq : Nat := 0) (tag : Nat := 0) (src : Nat := 5) : Frame := { op := 0, src := src, dst := 1, seq := seq, ack := ack, tag := tag }
/-- Causes, and the opcodes that leave. -/
def arrived (c : Instr) (d : Dev) : Option (List Nat) := res c d fun d => d.reports.map (·.code) ++ d.out.map fun m => match m with
  | .frame _ f => f.op
  | _ => 99
def directDev (exp : Nat := 0) (x : FabPort := {}) : Dev := portDev 3 { x with direct := true, lseqExp := exp }
theorem test_arrive_found : (portDev 3).findPeer 0 5 = some 0 ∧ (portDev 3).peerSystem 0 = true ∧ (portDev 3).routePort 0 = some (0, 0) := by decide +kernel
theorem test_not_up : arrived (.coll 0 .ok (fr)) (portDev 2) = some [] ∧ arrived (.coll 0 .fec (fr)) (portDev 3) = some [0x6105] ∧ arrived (.coll 0 .fcs (fr)) (directDev) = some [0x34] := by decide +kernel
theorem test_dropped : arrived (.coll 0 .version (fr)) (portDev 3) = some [0x6203] ∧ arrived (.coll 0 .ok (fr 0 0 0 9)) (portDev 3) = some [0x6203] ∧ arrived (.coll 0 .crc (fr)) (directDev) = some [0x6203, 0x33] := by decide +kernel
theorem test_dropped_outer : arrived (.coll 0 .ok (fr)) ((portDev 3).clrRegBit .fabPeerId [0] 30) = some [0x6203] ∧ arrived (.coll 0 .etype (fr)) (portDev 3) = some [] ∧
    arrived (.coll 0 .ok { fr with dst := 2 }) (portDev 3) = some [0x6203] := by decide +kernel
theorem test_lseq : arrived (.coll 0 .ok (fr)) (directDev 1) = some [0x33] ∧ arrived (.coll 0 .ok (fr)) (directDev 200) = some [0x34] := by decide +kernel
theorem test_seq : arrived (.coll 0 .ok (fr 0 1)) (portDev 3) = some [0x31] ∧ arrived (.coll 0 .ok (fr 0 0xFFFFFFFF)) (portDev 3) = some [0x30] ∧
    arrived (.coll 0 .ok (fr 0 1)) ((portDev 3).setPeer 0 { bulk := { nakAt := some (portDev 3).time } }) = some [] := by decide +kernel
/-- Two writes of queue 0's command are unacknowledged, of 8 and 16 bytes. -/
def writesSent (d : Dev := portDev 3) : Dev := (ring (runs { seq := 3, pkt := pkt [(0, 1, 0x20)], phase := 2, acks := 2 }) false false d).setPeer 0 { expiries := 1, bulk := { next := 2, unacked := [{ frame := { op := 1, src := 1, dst := 5, len := 8 }, owner := .queue 0 3 }, { frame := { op := 1, src := 1, dst := 5, seq := 1, len := 16 }, owner := .queue 0 3 }] } }
def runNow (c : Instr) (d : Dev) : Option (List Nat) := res c d fun d => (match (d.queue 0).run with
  | some c => [c.acks, c.off, match c.bad with
    | some (_, f, _) => f
    | none => 0]
  | none => []) ++ [(d.peer 0).bulk.unacked.length, (d.peer 0).expiries, (d.peer 0).st]
theorem test_ack : runNow (.ack 0 .ok (fr 0)) (writesSent) = some [1, 8, 0, 1, 0, 0] ∧ runNow (.ack 0 .ok (fr 0xFFFFFFFF)) (writesSent) = some [2, 0, 0, 2, 1, 0] ∧ runNow (.ack 0 .ok (fr 1)) (writesSent) = some [0, 24, 0, 0, 0, 0] := by decide +kernel
theorem test_ack_moves : res (.ack 0 .ok (fr 0)) ((twoSent (portDev 3)).modPeer 0 fun p => { p with bulk := { p.bulk with backlog := [{ frame := { op := 2, src := 1, dst := 5 }, owner := .none }] } })
    (fun d => (d.peer 0).bulk.unacked.map (·.frame.seq)) = some [1, 2] := by decide +kernel
theorem test_nak : arrived (.nak 0 .ok (fr 0xFFFFFFFF)) (twoSent (portDev 3)) = some [1, 1] ∧ arrived (.nak 0 .ok (fr 0)) (twoSent (portDev 3)) = some [1] := by decide +kernel
def replayDev (x : FabPort := {}) : Dev := directDev 0 { x with replay := [{ op := 1, src := 1, dst := 5, lseq := 7 }, { op := 2, src := 1, dst := 5, lseq := 8 }] }
theorem test_lack : res (.lack 0 .ok { fr with lseq := 7 }) (replayDev) (fun d => (d.port 0).replay.map (·.lseq)) = some [8] ∧ res (.lack 0 .ok { fr with lseq := 9 }) (replayDev) (fun d => (d.port 0).replay.map (·.lseq)) = some [7, 8] := by
  decide +kernel
theorem test_lnak : arrived (.lnak 0 .ok { fr with lseq := 8 }) (replayDev) = some [0x6106, 2] ∧ arrived (.llrAckTimeout 0) (replayDev) = some [0x6106, 1, 2] ∧ arrived (.llrAckTimeout 0) (directDev) = some [] := by decide +kernel
theorem test_lnak_fourth : portNow (.lnak 0 .ok { fr with lseq := 7 }) (replayDev { fails := 3, failSeq := 7 }) = some [4, 0, 0x6101] ∧ portNow (.llrAckTimeout 0) (replayDev { fails := 3, failSeq := 7 }) = some [4, 0, 0x6101] ∧
    portNow (.lnak 0 .ok { fr with lseq := 9 }) (replayDev) = some [3, 0] := by decide +kernel
theorem test_ack_delay : arrived (.ackDelayExpiry 0 false) ((portDev 3).setPeer 0 { bulk := { ackDue := true } }) = some [0x30] ∧ arrived (.ackDelayExpiry 0 false) (portDev 3) = some [] ∧
    arrived (.ackDelayExpiry 0 false) ((portDev 1).setPeer 0 { bulk := { ackDue := true }, expiries := 1 }) = some [0x30] := by decide +kernel
theorem test_retransmit : runNow (.retransmitTimeout 0 false) (writesSent) = some [2, 0, 0, 2, 2, 0] ∧ arrived (.retransmitTimeout 0 false) (writesSent) = some [1, 1] ∧ arrived (.retransmitTimeout 0 true) (writesSent) = some [] := by decide +kernel
theorem test_retransmit_last : runNow (.retransmitTimeout 0 false) ((writesSent).modPeer 0 fun p => { p with expiries := 7 }) = some [0, 0, 0x6201, 0, 0, 2] ∧
    arrived (.retransmitTimeout 0 false) ((writesSent).setRegFld .fabRto [] 31 24 2) = some [0x6201] := by decide +kernel
theorem test_no_port : runNow (.peerNoPortTimeout 0) ({ writesSent with ports := ⟨[]⟩ }) = some [0, 0, 0x6201, 0, 0, 2] ∧ runNow (.peerNoPortTimeout 0) (writesSent) = some [2, 0, 0, 2, 1, 0] := by decide +kernel
theorem test_no_port_coll : recorded (.peerNoPortTimeout 0) { coll 3 256 512 64 [1, 5] with ports := ⟨[]⟩ } = some [0x30, 0x6201, 1] := by decide +kernel
theorem test_no_port_mirror : mirrored (.peerNoPortTimeout 0) (mirDev 3 { commit := some 1 }) = some [6, 0x6201, 0xA102] ∧
    res (.peerNoPortTimeout 0) (((fabricDev).setReg .fabXclpCfg [3] 0x80000000).setRegBit .clpIdcfg [3] 31) (fun d => d.regBit .clpIdcfg [3] 30) = some true := by decide +kernel
theorem test_lost_mover : res (.retransmitTimeout 0 false) ((((portDev 3).modBench 2 fun b => { b with tm := [{ desc (localAddr 8) 0 with id := 4, ctx := 1 }] }).setRegFld .fabRto [] 31 24 1).setPeer 0
      { bulk := { unacked := [{ frame := { op := 1, src := 1, dst := 5 }, owner := .tm 2 4 }] } }) (fun d => [b2n ((d.bench 2).ctxN 1).killed, ((d.bench 2).ctxN 1).killCause]) = some [1, 0x6201] := by decide +kernel
theorem test_resync_timer : arrived (.resyncTimer 0) ((portDev 3).setPeer 0 { st := 2 }) = some [0x32] ∧ res (.resyncTimer 0) ((portDev 3).setPeer 0 { st := 1, resyncGot := true }) (fun d => (d.peer 0).st) = some 0 ∧
    arrived (.resyncTimer 0) (portDev 3) = some [] := by decide +kernel
theorem test_resync : arrived (.resync 0 .ok (fr)) (writesSent) = some [0x32] ∧ runNow (.resync 0 .ok (fr)) (writesSent) = some [0, 0, 0x6201, 0, 0, 0] ∧ res (.resync 0 .ok (fr)) ((portDev 3).setPeer 0 { st := 2 }) (fun d => (d.peer 0).st) = some 1 := by decide +kernel
theorem test_resync_both : res (.resync 0 .ok (fr)) ((portDev 3).setPeer 0 { st := 1, resyncSent := true }) (fun d => (d.peer 0).st) = some 0 := by decide +kernel
theorem test_fab_ends : comes (·.ackDelayDue 0 false) ((portDev 3).setPeer 0 { bulk := { ackDue := true } }) = true ∧ comes (·.retransmitDue 0 false) (writesSent) = true ∧
    comes (·.noPortDue 0) { writesSent with ports := ⟨[]⟩ } = true ∧ comes (·.resyncDue 0) ((portDev 3).setPeer 0 { st := 2 }) = true ∧ comes (·.lackDue 0) (replayDev) = true := by decide +kernel
/-- A port whose replay buffer is full, and a frame that waits. -/
def fullPort : Dev := directDev 0 { replay := [{ op := 1, src := 1, dst := 5, lseq := 7, data := List.replicate 66000 0 }, { op := 1, src := 1, dst := 5, lseq := 8, data := List.replicate 66000 0 }], wait := [{ op := 2, src := 1, dst := 5, seq := 9 }], lseqNext := 9 }
theorem test_replay_full : res (.lack 0 .ok { fr with lseq := 7 }) fullPort (fun d => ((d.port 0).replay.map (·.lseq), (d.port 0).wait.length)) = some ([8, 9], 0) := by decide +kernel
/-! ### Frames that ask something of this device (R378, R379, R386, R388, R416) -/

/-- Causes, and what is queued to peer 0: opcode, tag, length of its data. -/
def asked (c : Instr) (d : Dev := portDev 3) : Option (List Nat) := res c d fun d => d.reports.map (·.code) ++ ((d.peer 0).bulk.unacked ++ (d.peer 0).bulk.backlog).flatMap fun x => [x.frame.op, x.frame.tag, x.frame.data.length]
/-- The first word of line 2, whether it is poisoned, and the SEQ expected. -/
def line2 (c : Instr) (d : Dev := portDev 3) : Option (List Nat) := res c d fun d => [laneN ((d.slice 0).at way2).data 32 0, b2n ((d.slice 0).at way2).poison, (d.peer 0).bulk.expected]
def fr2 (data : List Byte) (al : Nat := 0) (len : Nat := 0) : Frame := { (fr 0xFFFFFFFF 0 7) with laddr := al * 2 ^ 40 + 256, data := data, len := len }
theorem test_home2 : (portDev 3).access (.inst 0) 256 = some ⟨0, 256, false, (portDev 3).win 16⟩ ∧ ((portDev 3).slice 0).find 2 = some way2 ∧ ((portDev 3).mapped (.inst 0) true 256 128 && (portDev 3).mirOf 256 == []) = true := by decide +kernel
theorem test_write_frame : line2 (.writeFrame 0 .ok (fr2 [5, 0, 0, 0])) = some [5, 0, 1] ∧ line2 (.mirrorWrite 0 .ok (fr2 [5, 0, 0, 0])) = some [5, 0, 1] ∧ line2 (.writeFrame 0 .ok { fr2 (List.replicate 128 1) with poison := true }) = some [0x1010101, 1, 1] := by decide +kernel
theorem test_mirror_commit_frame : line2 (.mirrorCommitFrame 0 .ok (fr2 (headerBytes 0 false 1 0 { st0 := 2, ep0 := 6 }))) = some [0x4D425A45, 0, 1] ∧ asked (.mirrorCommitFrame 0 .ok (fr2 (headerBytes 0 false 1 0 { st0 := 2, ep0 := 6 }))) = some [0x12, 7, 0] ∧
    headerEpoch (headerBytes 0 false 1 0 { st0 := 2, ep0 := 6 }) = 6 := by decide +kernel
theorem test_read_req : asked (.readReq 0 .ok (fr2 [] 0 128)) = some [3, 7, 128] ∧ asked (.readReq 0 .ok { fr2 [] 0 4096 with laddr := 0 }) (block0 (portDev 3)) = some [3, 7, 4096] := by decide +kernel
theorem test_unmapped : asked (.writeFrame 0 .ok { fr2 [5] with laddr := 2 ^ 39 }) = some [0x3101, 7, 1, 0] ∧ asked (.readReq 0 .ok { fr2 [] 0 8 with laddr := 2 ^ 39 }) = some [0x3101, 7, 1, 0] ∧ asked (.mirrorCommitFrame 0 .ok { fr2 [5] with laddr := 2 ^ 39 }) = some [0x3101, 7, 1, 0] := by
  decide +kernel
theorem test_read_only : asked (.writeFrame 0 .ok { fr2 [5] with laddr := 2 ^ 30 }) = some [0x6202, 7, 2, 0] ∧ asked (.atomicFrame 0 .ok { fr2 (leBytes 0x10 16) 0 16 with laddr := 2 ^ 30 }) = some [0x6202, 7, 2, 0] := by decide +kernel
/-- A request waits in line 2's slice; the home die is fenced; line 2 is poisoned. -/
def homeBusy : Dev := (portDev 3).modSlice 0 fun s => { s with pend := [{ req := { kind := .rds, src := .bay 0, dst := .slice 0, line := 2, loc := 2 }, id := 0, phase := .apply }] }
def homeGone : Dev := (portDev 3).setDie 0 { (portDev 3).die 0 with st := 3 }
def homeBad : Dev := (portDev 3).modSlice 0 fun s => { s with lines := s.lines.set way2 { s.at way2 with poison := true } }
def atomicData (fn : Nat) : List Byte := leBytes fn 4 ++ leBytes 5 4 ++ leBytes 9 8
theorem test_busy : line2 (.writeFrame 0 .ok (fr2 [5])) homeBusy = line2 (.portEnable 23) homeBusy ∧ asked (.readReq 0 .ok (fr2 [] 0 8)) homeBusy = some [] ∧ line2 (.redFrame 0 .ok (fr2 [5, 0, 0, 0] 3)) homeBusy = line2 (.portEnable 23) homeBusy := by decide +kernel
theorem test_gone : asked (.writeFrame 0 .ok (fr2 [5])) homeGone = some [0x5108] ∧ asked (.readReq 0 .ok (fr2 [] 0 8)) homeGone = some [0x5108, 3, 7, 8] ∧ asked (.atomicFrame 0 .ok (fr2 (atomicData 0x10) 0 16)) homeGone = some [0x5108] := by decide +kernel
theorem test_red_frame : line2 (.redFrame 0 .ok (fr2 [5, 0, 0, 0] 3)) = (line2 (.portEnable 23)).map fun l => (l.getD 0 0 + 5) :: l.drop 1 |>.set 2 1 := by decide +kernel
theorem test_red_refused : asked (.redFrame 0 .ok (fr2 [5, 0] 3)) = some [0x6202, 7, 3, 0] ∧ asked (.redFrame 0 .ok (fr2 [5, 0, 0, 0] 3)) homeBad = some [0x6202, 7, 4, 0] ∧ asked (.redFrame 0 .ok (fr2 [5, 0, 0, 0] 0)) = some [0x6202, 7, 3, 0] := by decide +kernel
theorem test_atomic_frame : asked (.atomicFrame 0 .ok (fr2 (atomicData 0x10) 0 16)) = some [6, 7, 4] ∧ line2 (.atomicFrame 0 .ok (fr2 (atomicData 0x10) 0 16)) = (line2 (.portEnable 23)).map fun l => (l.getD 0 0 + 5) :: l.drop 1 |>.set 2 1 := by decide +kernel
theorem test_atomic_refused : asked (.atomicFrame 0 .ok (fr2 (atomicData 9) 0 16)) = some [0x6202, 7, 6, 0] ∧ asked (.atomicFrame 0 .ok (fr2 (atomicData 0x10) 0 16)) homeBad = some [0x6202, 7, 4, 0] ∧ asked (.readReq 0 .ok (fr2 [] 0 128)) homeBad = some [3, 7, 128] := by decide +kernel
theorem test_coll_frame : res (.coll 0 .ok { fr 0xFFFFFFFF 0 1 with laddr := 7 }) { coll 3 256 512 64 [1, 5] with ports := (portDev 3).ports, regs := (coll 3 256 512 64 [1, 5] { seq := 0, pkt := [] } (portDev 3)).regs } (fun d => match (d.queue 0).run with
    | some c => c.coll
    | none => []) = some [(1, 5, 0)] ∧ res (.coll 0 .ok { fr 0xFFFFFFFF 0 1 with laddr := 7 }) (portDev 3) (fun d => d.collHeld) = some [(0, 7, 1, 5, 0)] := by decide +kernel
theorem test_coll_refused : asked (.coll 0 .ok { fr 0xFFFFFFFF 0 1 with laddr := 8 }) (coll 3 256 512 64 [1, 5] { seq := 0, pkt := [] } (portDev 3)) = some [0x6202, 7, 5, 0] := by decide +kernel
/-- System clamp 3: root or not, with peer 1 as its child or parent; VALID with device scope or not. -/
def sysClamp (root : Bool) (valid : Bool := true) : Dev :=
  ((((portDev 3).setReg .fabXclpCfg [3] (if root then 0xC0000000 else 0x80000001)).setReg .fabXclpKids0 [3] (if root then 0x8001 else 0x8000)).setReg .clpIdcfg [3] (if valid then 0xA0000000 else 0)).setReg .clpIdval [3] 10
def clampNow (c : Instr) (d : Dev) (j : Nat := 1) : Option (List Nat) := res c d fun d => (d.reg .clpIdval [3]).toNat :: d.reports.map (·.code) ++ (d.clampDown.map (·.die)) ++ ((d.peer j).clamp.unacked ++ (d.peer j).clamp.backlog).flatMap fun x => [x.frame.op, (clampDataVal x.frame.data).toNat]
def frC : Frame := { fr 0xFFFFFFFF with data := clampData 3 4 }
theorem test_clamp_up : clampNow (.clampUp 0 .ok frC) (sysClamp true) = some [14, 0, 1, 2, 3, 4, 5, 6, 7, 0x21, 14] ∧ clampNow (.clampUp 0 .ok frC) (sysClamp true false) = some [10, 0x6302] ∧ clampNow (.clampUp 0 .ok frC) (sysClamp false) = some [10, 0x20, 4] := by decide +kernel
theorem test_clamp_up_none : clampNow (.clampUp 0 .ok frC) (portDev 3) = some [0] ∧ clampNow (.clampUp 0 .ok frC) ((sysClamp false).setRegBit .clpIdcfg [3] 30) = some [10] ∧ clampNow (.clampDown 0 .ok frC) (sysClamp true) = some [10] := by decide +kernel
theorem test_clamp_down : clampNow (.clampDown 0 .ok frC) (sysClamp false) 0 = some [4, 0, 1, 2, 3, 4, 5, 6, 7, 0x21, 4] ∧ clampNow (.clampDown 0 .ok frC) (sysClamp false false) 0 = some [10, 0x21, 4] ∧ clampNow (.clampDown 0 .ok frC) (portDev 3) 0 = some [0] := by decide +kernel
theorem test_write_marks : res (.writeFrame 0 .ok (fr2 [5])) (mirDev 2 {} (portDev 3)) (fun d => [b2n ((d.mir 0).d0.has 0), b2n ((d.mir 0).d1.has 0), b2n ((d.mir 0).wrote.has 0)]) = some [1, 1, 1] ∧
    res (.writeFrame 0 .ok (fr2 [5])) (mirDev 3 {} (portDev 3)) (fun d => [b2n ((d.mir 0).d0.has 0), b2n ((d.mir 0).late.has 0)]) = some [0, 1] := by decide +kernel
theorem test_clamp_no_peer : clampNow (.clampUp 0 .ok frC) ((sysClamp false).setPeer 1 { st := 2 }) = some [10] ∧ res (.clampUp 0 .ok frC) ((sysClamp false).setPeer 1 { st := 2 }) (fun d => d.clampFailed 3) = some true ∧
    clampNow (.clampUp 0 .ok frC) ((sysClamp false).clrRegBit .fabPeerId [1] 30) = some [10, 0x6205] := by decide +kernel
/-! ### Answers and time sync (R379, R380, R387, R417) -/

/-- A read of tag 7 at peer 0 for an owner: 8 bytes from address 256 on. -/
def readOut (o : FabOwner) (d : Dev := writesSent) (row : Nat := 0) : Dev := { d with fabReads := SMap.set ⟨[]⟩ 7 { owner := o, peer := 0, laddr := 256, len := 8, off := 0, row := row } }
/-- The command of queue 0: operations outstanding, failure; bytes received; reads left. -/
def gotNow (c : Instr) (d : Dev) : Option (List Nat) := res c d fun d => (match (d.queue 0).run with
  | some c => [c.acks, (c.bad.map (·.2.1)).getD 0, c.rx.length, c.old.getD 0]
  | none => []) ++ [d.fabReads.cells.length]
theorem test_read_rsp : gotNow (.readRsp 0 .ok (fr2 (List.replicate 8 1))) (readOut (.queue 0 3)) = some [1, 0, 1, 0, 0] ∧ gotNow (.readRsp 0 .ok (fr2 [1, 2])) (readOut (.queue 0 3)) = some [2, 0, 1, 0, 1] ∧
    gotNow (.readRsp 0 .ok (fr2 [1, 2])) (writesSent) = some [2, 0, 0, 0, 0] := by decide +kernel
theorem test_read_rsp_poison : gotNow (.readRsp 0 .ok { fr2 (List.replicate 8 1) with poison := true }) (readOut (.queue 0 3)) = some [1, 0x3205, 1, 0, 0] := by decide +kernel
def tmRead (d : Dev := portDev 3) : Dev := d.modBench 2 fun b => { b with tm := [{ desc 0x200 (localAddr 8) with id := 4, ctx := 1, active := true, reads := 1 }] }
theorem test_read_rsp_mover : res (.readRsp 0 .ok (fr2 (List.replicate 8 1))) (readOut (.tm 2 4) (tmRead)) (fun d => [(d.bench 2).tm.length, (d.bench 2).tile.readN 8 2, (((d.bench 2).ctxN 1).counters.toList.getD (desc 0 0).cnt 0).toNat]) = some [0, 0x101, 1] ∧
    res (.readRsp 0 .ok { fr2 (List.replicate 8 1) with poison := true }) (readOut (.tm 2 4) (tmRead)) (fun d => [b2n ((d.bench 2).ctxN 1).killed, ((d.bench 2).ctxN 1).killCause]) = some [1, 0x3205] := by decide +kernel
theorem test_read_rsp_repair : res (.readRsp 0 .ok { fr2 (List.replicate 8 1) with poison := true }) (readOut (.repair 4) { mirDev 2 {} (portDev 3) with repairs := [{ id := 4, peer := 0, slice := 0, win := 0, line := 2, loc := 2, block := 0, code := 0x3204 }] })
    (fun d => d.repairs.length) = some 0 := by decide +kernel
theorem test_read_rsp_header : res (.readRsp 0 .ok (fr2 (headerBytes 0 false 1 4096 { st0 := 2, ep0 := 6 }))) (readOut (.mirror 0) (mirDev 1 {} (portDev 3))) (fun d => [d.mirState 0, (d.mir 0).sides.ep0]) = some [2, 6] ∧
    res (.readRsp 0 .ok (fr2 (List.replicate 128 0))) (readOut (.mirror 0) (mirDev 1 {} (portDev 3))) (fun d => d.mirState 0 :: (d.peer 0).bulk.unacked.map (·.frame.op)) = some [1, 0x11] := by decide +kernel
theorem test_atomic_rsp : gotNow (.atomicRsp 0 .ok (fr2 [9, 0, 0, 0])) (readOut (.queue 0 3)) = some [1, 0, 0, 9, 0] ∧ gotNow (.atomicRsp 0 .ok (fr2 [9, 0, 0, 0])) (writesSent) = some [2, 0, 0, 0, 0] := by decide +kernel
/-- REFUSED of the frame with a SEQ, with a status. -/
def refusal (seq st : Nat) : Frame := { fr 0xFFFFFFFF 0 st with laddr := seq }
theorem test_refused : runNow (.refused 0 .ok (refusal 1 2)) (writesSent) = some [1, 0, 0x6204, 1, 0, 0] ∧ runNow (.refused 0 .ok (refusal 9 2)) (writesSent) = some [2, 0, 0, 2, 1, 0] ∧
    runNow (.refused 0 .ok (refusal 0 1)) (twoSent (portDev 3)) = some [1, 0, 0] := by decide +kernel
/-- One frame of an opcode is unacknowledged, for an owner. -/
def oneSent (op : Nat) (o : FabOwner) (d : Dev := portDev 3) : Dev := d.setPeer 0 { bulk := { next := 1, unacked := [{ frame := { op := op, src := 1, dst := 5, tag := 7 }, owner := o }] } }
theorem test_refused_coll : res (.refused 0 .ok (refusal 0 5)) (oneSent 8 (.queue 0 0) (coll 3 256 512 64 [1, 5] { seq := 0, pkt := [] } (portDev 3))) (fun d => match (d.queue 0).run with
    | some { bad := some (st, _, z), .. } => [st, z]
    | _ => []) = some [0x31, 5] := by decide +kernel
theorem test_refused_owners : res (.refused 0 .ok (refusal 0 1)) (oneSent 2 .none (readOut (.tm 2 4) (tmRead))) (fun d => [b2n ((d.bench 2).ctxN 1).killed, ((d.bench 2).ctxN 1).killCause, d.fabReads.cells.length]) = some [1, 0x6204, 0] ∧
    mirrored (.refused 0 .ok (refusal 0 1)) (oneSent 0x10 (.mirror 0) (mirDev 2 {} (portDev 3))) = some [6, 0x6204, 0xA106] := by decide +kernel
theorem test_confirm : mirrored (.mirrorConfirm 0 .ok { fr 0xFFFFFFFF with laddr := 0 }) (mirDev 1 { hdrs := [(0, {})] } (portDev 3)) = some [2] ∧
    res (.mirrorConfirm 0 .ok { fr 0xFFFFFFFF with laddr := 0 }) (mirDev 2 { hdrs := [(1, { st0 := 1 })] } (portDev 3)) (fun d => (d.mir 0).sides.st0) = some 1 ∧
    mirrored (.mirrorConfirm 0 .ok { fr 0xFFFFFFFF with laddr := 0 }) (mirDev 2 {} (portDev 3)) = some [2] := by decide +kernel
theorem test_confirm_commit : recorded (.mirrorConfirm 0 .ok { fr 0xFFFFFFFF with laddr := 6 }) (mirCmd 0x41 [(8, 8, 1), (0x10, 8, 6)] (mirDev 3 { hdrs := [(2, { st0 := 2, ep0 := 6 })], commit := some 6, job := some (0, 0) } (portDev 3))) = some [0, 0, 1] ∧
    res (.mirrorConfirm 0 .ok { fr 0xFFFFFFFF with laddr := 6 }) (mirDev 3 { hdrs := [(2, { st0 := 2, ep0 := 6 })], commit := some 6 } (portDev 3)) (fun d => [d.mirState 0, d.mirEpoch 0]) = some [2, 6] := by decide +kernel

/-- A follower of port 0 (or of port 0 as PARENT1), over a DIRECT port, that has had TS_SYNC at 100 and asked at 40. -/
def tsDev (cfg : W32 := 0x40000020) (x : FabPort := {}) (stepped : Bool := false) (bad : Nat := 0) (good : Nat := 0) (lock : Nat := 0) : Dev :=
  { (((portDev 3 { x with direct := true }).setReg .fabTsCfg [] cfg).setReg .fabTsStatus [] (BitVec.ofNat 32 lock)) with time := 1000, tsStepped := stepped, tsBad := bad, tsGood := good }
/-- A time message: nanoseconds and depth. -/
def tsFr (ns : Nat) (depth : Nat := 2) : Frame := { fr with data := leBytes 0 6 ++ leBytes ns 4 ++ leBytes depth 1 ++ leBytes 0 5 }
def tsNow (c : Instr) (d : Dev) : Option (List Nat) := res c d fun d => [d.time, b2n (d.regBit .fabTsStatus [] 0), b2n (d.regBit .fabTsStatus [] 1), d.regFld .fabTsStatus [] 15 8, d.tsBad, d.tsGood] ++ d.reports.map (·.code)
theorem test_ts_sync : res (.tsSync 0 .ok (tsFr 0) 3) (tsDev) (fun d => (d.port 0).syncAt) = some (some 1003) ∧ res (.tsSync 0 .ok (tsFr 0) 3) (tsDev 0xC0000020) (fun d => (d.port 0).syncAt) = some none ∧
    res (.tsSync 0 .ok (tsFr 0) 3) (tsDev 0x40002002) (fun d => (d.port 0).syncAt) = some (some 1003) := by decide +kernel
theorem test_ts_follow : tsNow (.tsFollow 0 .ok (tsFr 500)) (tsDev 0x40000020 { syncAt := some 100, delay := 10 }) = some [1410, 1, 0, 3, 0, 0] ∧ tsNow (.tsFollow 0 .ok (tsFr 500)) (tsDev 0x40002002 { syncAt := some 100 }) = some [1400, 1, 1, 3, 0, 0] ∧
    tsNow (.tsFollow 0 .ok (tsFr 500)) (tsDev) = some [1000, 0, 0, 0, 0, 0] := by decide +kernel
theorem test_ts_lock : tsNow (.tsFollow 0 .ok (tsFr 500)) (tsDev 0x40000020 { syncAt := some 100 } true 3 0 1) = some [1000, 0, 0, 3, 0, 0, 0x6301] ∧ tsNow (.tsFollow 0 .ok (tsFr 105)) (tsDev 0x40000020 { syncAt := some 100 } true 3 2 1) = some [1000, 1, 0, 3, 0, 3] ∧
    tsNow (.tsFollow 0 .ok (tsFr 105)) (tsDev 0x40000020 { syncAt := some 100 } true 0 7 0) = some [1000, 1, 0, 3, 0, 8] := by decide +kernel
theorem test_ts_delay : res (.tsPdresp 0 .ok (tsFr 0) 6) (tsDev 0 { pdSent := some 40 }) (fun d => ((d.port 0).delay, (d.port 0).pdSent)) = some (483, none) ∧ res (.tsPdresp 0 .ok (tsFr 0) 6) (tsDev) (fun d => (d.port 0).delay) = some 0 ∧
    arrived (.tsPdreq 0 .ok (tsFr 0)) (tsDev) = some [0x33, 0x43] := by decide +kernel
theorem test_ts_interval : comes Dev.tsDue (tsDev) = true ∧ res .tsSyncInterval (tsDev) (fun d => (d.ticks, d.tsAt)) = some (6250, 6250) ∧ arrived .tsSyncInterval (tsDev) = some [0x40, 0x41, 0x42] ∧ arrived .tsSyncInterval (tsDev 0) = some [] ∧ arrived (.tsPdreq 0 .ok (tsFr 0)) (portDev 3) = some [] := by decide +kernel

end Sys2Proof.Tests
end

namespace Sys2Proof.Machine

/-! ### The counts of the dies -/

/-- A count that is moved forward: the die keeps everything but its count, which is the greater of the two, and its budget. -/
theorem Dev.die_countTo (d : Dev) (i c : Nat) :
    ∃ b, (d.countTo i c).die i = { d.die i with cyc10 := max (d.die i).cyc10 c, budget := b } := by
  unfold Dev.countTo
  dsimp only
  split
  · next h => exact ⟨(d.die i).budget, by rw [Nat.max_eq_left h]⟩
  · next h =>
    rw [Nat.max_eq_right (by omega)]
    split
    · exact ⟨(d.die i).budget, by simp [Dev.modDie]⟩
    · refine ⟨(d.modDie i fun x => { x with cyc10 := c }).reg .netBudget [i], ?_⟩
      simp only [Dev.refill, Dev.modDie]
      exact (Dev.die_setDie _ _ _).trans (by simp)

theorem Dev.die_countTo_other (d : Dev) {i j : Nat} (h : j ≠ i) (c : Nat) : (d.countTo i c).die j = d.die j := by
  unfold Dev.countTo
  dsimp only
  split
  · rfl
  · split
    · exact Dev.die_setDie_other _ h _
    · exact (Dev.die_setDie_other _ h _).trans (Dev.die_setDie_other _ h _)

/-- Moving a count forward changes dies and what their sources have spent of an epoch's budget. -/
theorem Dev.countTo_shape (d : Dev) (i c : Nat) : ∃ ds sp, d.countTo i c = { d with dies := ds, spent := sp } := by
  unfold Dev.countTo
  dsimp only
  split
  · exact ⟨d.dies, d.spent, rfl⟩
  · split
    · exact ⟨_, d.spent, rfl⟩
    · exact ⟨_, _, rfl⟩

/-- With no bench due to start a die's count just moves forward. -/
theorem Dev.runTo_of_no_starts {d : Dev} (h : d.starts = []) (i c : Nat) : d.runTo i c = d.countTo i c := by
  simp [Dev.runTo, h]

/-- The dies `is` for which `run` holds run to their counts `goal`, one after another. -/
def Dev.runDies (run : Nat → Bool) (goal : Nat → Nat) (is : List Nat) (d : Dev) : Dev :=
  is.foldl (fun x i => if run i then x.runTo i (goal i) else x) d

theorem Dev.runDies_cons (run : Nat → Bool) (goal : Nat → Nat) (i : Nat) (is : List Nat) (d : Dev) :
    Dev.runDies run goal (i :: is) d = Dev.runDies run goal is (if run i then d.runTo i (goal i) else d) := rfl

section
variable {run : Nat → Bool} {goal : Nat → Nat}

theorem Dev.runDies_shape {is : List Nat} {d : Dev} (h : d.starts = []) :
    ∃ ds sp, Dev.runDies run goal is d = { d with dies := ds, spent := sp } := by
  induction is generalizing d with
  | nil => exact ⟨d.dies, d.spent, rfl⟩
  | cons i is ih =>
    rw [Dev.runDies_cons]
    split
    · rw [Dev.runTo_of_no_starts h]
      obtain ⟨ds, sp, e⟩ := d.countTo_shape i (goal i)
      rw [e]
      exact ih (d := { d with dies := ds, spent := sp }) h
    · exact ih h

theorem Dev.die_runDies_other {is : List Nat} {d : Dev} (h : d.starts = []) {j : Nat} (hj : j ∉ is ∨ run j = false) :
    (Dev.runDies run goal is d).die j = d.die j := by
  induction is generalizing d with
  | nil => rfl
  | cons i is ih =>
    have hj' : j ∉ is ∨ run j = false := hj.imp_left (mt (List.mem_cons_of_mem i))
    rw [Dev.runDies_cons]
    split
    · next hr =>
      have hne : j ≠ i := by
        rintro rfl
        rcases hj with k | k
        · exact k List.mem_cons_self
        · rw [hr] at k; cases k
      rw [Dev.runTo_of_no_starts h]
      have hs : (d.countTo i (goal i)).starts = [] := by obtain ⟨ds, sp, e⟩ := d.countTo_shape i (goal i); rw [e]; exact h
      exact (ih hs hj').trans (d.die_countTo_other hne (goal i))
    · exact ih h hj'

theorem Dev.die_runDies {is : List Nat} (hn : is.Nodup) {d : Dev} (h : d.starts = []) {j : Nat} (hj : j ∈ is) (hr : run j = true) :
    ∃ b, (Dev.runDies run goal is d).die j = { d.die j with cyc10 := max (d.die j).cyc10 (goal j), budget := b } := by
  induction is generalizing d with
  | nil => cases hj
  | cons i is ih =>
    obtain ⟨hi, hn'⟩ := List.nodup_cons.1 hn
    have hs : (d.countTo i (goal i)).starts = [] := by obtain ⟨ds, sp, e⟩ := d.countTo_shape i (goal i); rw [e]; exact h
    rw [Dev.runDies_cons]
    by_cases hji : j = i
    · subst hji
      rw [if_pos hr, Dev.runTo_of_no_starts h]
      obtain ⟨b, e⟩ := d.die_countTo j (goal j)
      exact ⟨b, (Dev.die_runDies_other hs (.inl hi)).trans e⟩
    · have hj' : j ∈ is := (List.mem_cons.1 hj).resolve_left hji
      split
      · rw [Dev.runTo_of_no_starts h]
        obtain ⟨b, e⟩ := ih hn' hs hj'
        exact ⟨b, by rw [e, d.die_countTo_other hji]⟩
      · exact ih hn' h hj'

end

/-! ### What LAUNCHes spend -/

/-- Queue `q` after its LAUNCH has spent time: at most its budget and its ticks of overrun have moved (R332, R333). -/
def Queue.Overran (q q' : Queue) : Prop :=
  q'.fetch = q.fetch ∧ q'.resumeAt = q.resumeAt ∧ ∃ n,
    q'.run = q.run.map fun c => { c with launch := c.launch.map fun l => { l with overrun := l.overrun + n } }

theorem Queue.Overran.refl (q : Queue) : q.Overran q := ⟨rfl, rfl, 0, by simp⟩

theorem Queue.Overran.trans {p q r : Queue} (h : p.Overran q) (k : q.Overran r) : p.Overran r := by
  obtain ⟨hf, hr, n, hn⟩ := h
  obtain ⟨kf, kr, m, km⟩ := k
  refine ⟨kf.trans hf, kr.trans hr, n + m, ?_⟩
  rw [km, hn, Option.map_map]
  congr 1
  funext c
  cases hl : c.launch <;> simp [hl, Nat.add_assoc]

/-- What a LAUNCH spends changes its own queue. -/
theorem Dev.spend_shape (n : Nat) (d : Dev) (q : Nat) :
    ∃ qs, Dev.spend n d q = { d with queues := qs } ∧ ∀ r, (d.queue r).Overran (qs.getD r {}) := by
  have budget (b : Int) : (d.queue q).Overran { d.queue q with budget := b } := ⟨rfl, rfl, 0, by simp⟩
  have set (x : Queue) (hx : (d.queue q).Overran x) (r : Nat) : (d.queue r).Overran ((d.queues.set q x).getD r {}) := by
    by_cases h : r = q
    · subst h; rw [SMap.getD_set_same]; exact hx
    · rw [SMap.getD_set_other _ h]; exact .refl _
  unfold Dev.spend
  split
  · exact ⟨d.queues, rfl, fun r => .refl _⟩
  · next l _ =>
    split
    · dsimp only
      generalize min (d.queue q).budget (d.slice1 : Int) = b
      split
      · exact ⟨_, rfl, set _ (budget _)⟩
      · refine ⟨_, rfl, ?_⟩
        simp only [Dev.modQueue, Dev.setQueue, Dev.queue, SMap.set_set, SMap.getD_set_same]
        exact set _ ⟨rfl, rfl, n - b.toNat, rfl⟩
    · exact ⟨d.queues, rfl, fun r => .refl _⟩

theorem Dev.spendAll_shape (n : Nat) (qs : List Nat) (d : Dev) :
    ∃ rs, qs.foldl (Dev.spend n) d = { d with queues := rs } ∧ ∀ r, (d.queue r).Overran (rs.getD r {}) := by
  induction qs generalizing d with
  | nil => exact ⟨d.queues, rfl, fun r => .refl _⟩
  | cons q qs ih =>
    obtain ⟨ps, e, h⟩ := Dev.spend_shape n d q
    obtain ⟨rs, e', h'⟩ := ih { d with queues := ps }
    exact ⟨rs, by rw [List.foldl_cons, e, e'], fun r => (h r).trans (h' r)⟩

/-! ### Time -/

/-- A slewing device draws a free value; any other gains 20 ns for each tick. -/
theorem Dev.passTime_shape (d : Dev) (n : Nat) :
    ∃ t f k, d.passTime n = { d with time := t, timeFrac := f, free := k } ∧
      ((d.tsEn && !d.tsGm && d.tsStepped) = false → t = d.time + 20 * n) := by
  unfold Dev.passTime
  split
  · next h => exact ⟨_, _, _, rfl, fun k => by rw [k] at h; cases h⟩
  · exact ⟨_, d.timeFrac, d.free, rfl, fun _ => rfl⟩

/-- No ticks leave the device as it is. -/
@[simp] theorem Dev.pass_zero (d : Dev) : d.pass 0 = d := by simp [Dev.pass]

/-- No time passes while the always-on domain does not run. -/
theorem Dev.pass_off {d : Dev} (h : d.on = false) (n : Nat) : d.pass n = d := by simp [Dev.pass, h]

/-- What the next `n` ticks do while no bench is due to start: the dies with a clock count on, LAUNCHes spend, and what lasts for a tick only
is over (R6, R8, R154, R332). -/
theorem Dev.pass_shape {d : Dev} (hon : d.on = true) (hs : d.starts = []) {n : Nat} (hn : n ≠ 0) :
    ∃ t f k ds sp qs, d.pass n = { d with
        time := t, timeFrac := f, free := k, ticks := d.ticks + n, dies := ds, spent := sp, queues := qs
        fresh := ⟨[]⟩, caught := [], noticed := [], pwr := { d.pwr with again := [] } } ∧
      ((d.tsEn && !d.tsGm && d.tsStepped) = false → t = d.time + 20 * n) ∧
      (∀ i, i < 8 → d.dieClock i = true → ∃ b, ds.getD i {} = { d.die i with cyc10 := (d.die i).cyc10 + d.cyclesIn i n, budget := b }) ∧
      (∀ i, 8 ≤ i ∨ d.dieClock i = false → ds.getD i {} = d.die i) ∧
      ∀ q, (d.queue q).Overran (qs.getD q {}) := by
  obtain ⟨t, f, k, et, ht⟩ := d.passTime_shape n
  have hs1 : (d.passTime n).starts = [] := by rw [et]; exact hs
  have hdie (i : Nat) : (d.passTime n).die i = d.die i := by rw [et]; rfl
  obtain ⟨ds, sp, ed⟩ := Dev.runDies_shape (run := d.dieClock) (goal := fun i => (d.die i).cyc10 + d.cyclesIn i n) (is := List.range 8) hs1
  have hds (i : Nat) : ds.getD i {} = (Dev.runDies d.dieClock (fun i => (d.die i).cyc10 + d.cyclesIn i n) (List.range 8) (d.passTime n)).die i := by
    rw [ed]; rfl
  have clocked (i : Nat) (hi : i < 8) (hc : d.dieClock i = true) :
      ∃ b, ds.getD i {} = { d.die i with cyc10 := (d.die i).cyc10 + d.cyclesIn i n, budget := b } := by
    obtain ⟨b, e⟩ := Dev.die_runDies (goal := fun i => (d.die i).cyc10 + d.cyclesIn i n) List.nodup_range hs1 (List.mem_range.2 hi) hc
    exact ⟨b, by rw [hds, e, hdie, Nat.max_eq_right (Nat.le_add_right ..)]⟩
  have still (i : Nat) (hi : 8 ≤ i ∨ d.dieClock i = false) : ds.getD i {} = d.die i := by
    rw [hds, Dev.die_runDies_other hs1 (hi.imp_left fun h k => absurd (List.mem_range.1 k) (by omega)), hdie]
  let d2 : Dev := { d with
    time := t, timeFrac := f, free := k, ticks := d.ticks + n, dies := ds, spent := sp
    fresh := ⟨[]⟩, caught := [], noticed := [], pwr := { d.pwr with again := [] } }
  have ep : d.pass n = if d2.live then d2.queues.keys.foldl (Dev.spend n) d2 else d2 := by
    unfold Dev.pass
    rw [if_neg (by simp [hn, hon])]
    change (let d1 := Dev.runDies d.dieClock (fun i => (d.die i).cyc10 + d.cyclesIn i n) (List.range 8) (d.passTime n)
      let d2 : Dev := { d1 with ticks := d.ticks + n, fresh := ⟨[]⟩, caught := [], noticed := [], pwr := { d1.pwr with again := [] } }
      if d2.live then d2.queues.keys.foldl (Dev.spend n) d2 else d2) = _
    rw [ed, et]
  rw [ep]
  split
  · obtain ⟨qs, eq, hq⟩ := Dev.spendAll_shape n d2.queues.keys d2
    exact ⟨t, f, k, ds, sp, qs, eq, ht, clocked, still, hq⟩
  · exact ⟨t, f, k, ds, sp, d.queues, rfl, ht, clocked, still, fun q => .refl _⟩

/-- The ticks that pass leave the device as `Passed` says. -/
theorem Dev.passed_passTo {d : Dev} (hon : d.on = true) (hs : d.starts = []) (t : Nat) : Passed d t (d.passTo t) := by
  unfold Dev.passTo
  by_cases hn : t - d.ticks = 0
  · rw [hn, Dev.pass_zero]
    exact { now := fun _ => rfl, ticks := by omega, time := fun _ => by omega, rest := rfl
            dies := fun i => ⟨Nat.le_refl _, rfl, rfl, rfl, fun _ => rfl⟩, queues := fun q => Queue.Overran.refl _ }
  · obtain ⟨u, f, k, ds, sp, qs, e, ht, clocked, still, hq⟩ := Dev.pass_shape hon hs hn
    rw [e]
    refine { now := fun h => absurd h (by omega), ticks := by dsimp only; omega, time := ht, dies := fun i => ?_, queues := hq, rest := rfl }
    by_cases hi : i < 8 ∧ d.dieClock i = true
    · obtain ⟨b, eb⟩ := clocked i hi.1 hi.2
      simp only [Dev.die] at eb ⊢
      rw [eb]
      exact ⟨Nat.le_add_right .., rfl, rfl, rfl, fun h => by rw [hi.2] at h; cases h⟩
    · have eb := still i (by
        by_cases h8 : i < 8
        · exact .inr (by simpa [h8] using hi)
        · exact .inl (by omega))
      simp only [Dev.die] at eb ⊢
      rw [eb]
      exact ⟨Nat.le_refl _, rfl, rfl, rfl, fun _ => rfl⟩

/-- Where no change of a die's point holds its clock, the ticks until a count are enough to reach it. -/
theorem Dev.le_cycle_pass {d : Dev} (hon : d.on = true) (hs : d.starts = []) {i : Nat} (hi : i < 8) (hc : d.dieClock i = true)
    (ho : d.pwr.opStop.find? i = none) (c : Nat) : c ≤ (d.pass (d.ticksTo i c)).cycle i := by
  have hr : 0 < tickCycles (d.opNow i) := by unfold tickCycles; split <;> decide
  have et : d.ticksTo i c = (10 * c - (d.die i).cyc10 + tickCycles (d.opNow i) - 1) / tickCycles (d.opNow i) := by
    simp [Dev.ticksTo, hc, ho]
  have enough : 10 * c - (d.die i).cyc10 ≤ d.ticksTo i c * tickCycles (d.opNow i) := by
    rw [et]
    have := Nat.lt_div_mul_add (a := 10 * c - (d.die i).cyc10 + tickCycles (d.opNow i) - 1) hr
    omega
  suffices h : 10 * c ≤ ((d.pass (d.ticksTo i c)).die i).cyc10 by
    unfold Dev.cycle; omega
  by_cases hn : d.ticksTo i c = 0
  · rw [hn] at enough ⊢
    rw [Dev.pass_zero]
    omega
  · obtain ⟨u, f, k, ds, sp, qs, e, -, clocked, -, -⟩ := Dev.pass_shape hon hs hn
    obtain ⟨b, eb⟩ := clocked i hi hc
    have : (d.pass (d.ticksTo i c)).die i = ds.getD i {} := by rw [e]; rfl
    rw [this, eb]
    simp only [Dev.cyclesIn, ho]
    omega

/-! ### The tick of an empty queue -/

/-- Nothing happens while the always-on domain does not run (R433). -/
theorem Dev.tick_off {d : Dev} (h : d.on = false) : d.tick = d := by
  simp [Dev.tick, Dev.pass_off h, h]

/-- With no request of the host waiting a tick is the passing of 20 ns. -/
theorem Dev.tick_of_no_hostWait {d : Dev} (h : (d.pass 1).hostWait = []) : d.tick = d.pass 1 := by
  have hserve : (d.pass 1).hostServe = d.pass 1 := by
    unfold Dev.hostServe
    rw [h, List.foldl_nil, ← h]
  simp [Dev.tick, hserve]

/-- Tenths of a cycle per tick, as R171 gives them. -/
theorem tickCycles_eq (op : Nat) :
    tickCycles op = if op = 0 then 80 else if op = 1 then 120 else if op = 2 then 160 else if op = 3 then 192 else 220 := by
  unfold tickCycles
  split <;> simp_all

/-- Settles O2: `Dev.pass_shape` says once what passing time does to the device. -/
theorem idleTicks : Obligations.IdleTicks := by
  refine ⟨fun d => ⟨fun hoff => ?_, fun hon hslew hs hw => ?_⟩, fun d hon hs => ⟨Dev.passed_passTo hon hs, fun i c hi hc ho => ⟨?_, ?_⟩⟩⟩
  · change Host.Outcome.next _ = _
    rw [Dev.tick_off hoff]
  · obtain ⟨t, f, k, ds, sp, qs, e, ht, clocked, still, -⟩ := Dev.pass_shape hon hs Nat.one_ne_zero
    have etick : d.tick = d.pass 1 := Dev.tick_of_no_hostWait (by rw [e]; exact hw)
    refine ⟨d.pass 1, by rw [← etick]; rfl, ?_⟩
    rw [e]
    refine ⟨ht hslew, rfl, rfl, rfl, rfl, rfl, rfl, rfl, fun i hi => ⟨fun hc => ?_, fun hc ho op hop => ?_⟩⟩
    · exact congrArg Die.cyc10 (still i (.inr hc))
    · obtain ⟨b, eb⟩ := clocked i hi hc
      have hcyc : d.cyclesIn i 1 = tickCycles op := by simp [Dev.cyclesIn, ho, hop]
      rw [← tickCycles_eq, ← hcyc]
      exact congrArg Die.cyc10 eb
  · exact Dev.le_cycle_pass hon hs hi hc ho c
  · refine ⟨d.ticks + d.ticksTo i c, ?_⟩
    have hp := Dev.passed_passTo hon hs (d.ticks + d.ticksTo i c)
    rwa [Dev.passTo, Nat.add_sub_cancel_left] at hp

end Sys2Proof.Machine

/-! Register accesses by access codes (R8, R61, R342): the fields of a register lie apart, so each takes a write, and a read, by its own
code. -/

namespace Sys2Proof
open Machine

@[simp] theorem leBytes_length (w n : Nat) : (leBytes w n).length = n := by
  induction n generalizing w with
  | zero => rfl
  | succ n ih => simp [leBytes, ih]

/-- The little-endian bytes of a number read back as its low part (R7). -/
theorem leNat_leBytes (w n : Nat) : leNat (leBytes w n) = w % 2 ^ (8 * n) := by
  induction n generalizing w with
  | zero => simp [leBytes, leNat, Nat.mod_one]
  | succ n ih =>
    have e : (2 : Nat) ^ (8 * (n + 1)) = 256 * 2 ^ (8 * n) := by rw [Nat.mul_succ, Nat.pow_add, Nat.mul_comm]
    rw [leBytes, leNat, ih, e, Nat.mod_mul, Nat.shiftRight_eq_div_pow, BitVec.toNat_ofNat]

section
variable {d : Dev} {a : Nat} {r : RegName} {ix : List Nat} (h : Hits d a r ix)
include h

theorem Hits.loc_eq : d.bar0Loc 0 a = .reg a false := h.1
theorem Hits.regAt_eq : regAt a = some (r, ix) := h.2.1
theorem Hits.addr_eq : r.addr ix = a := h.2.2.1

end

end Sys2Proof

namespace Sys2Proof.Machine

/-! ### Bits of fields -/

/-- Words that agree on the bits of a field agree on the field. -/
theorem fld_congr {n : Nat} {v w : BitVec n} {hi lo : Nat} (h : ∀ i, lo ≤ i → i ≤ hi → v.getLsbD i = w.getLsbD i) :
    fld v hi lo = fld w hi lo := by
  refine Nat.eq_of_testBit_eq fun i => ?_
  rw [testBit_fld, testBit_fld]
  by_cases hi' : i < hi + 1 - lo
  · rw [h (lo + i) (by omega) (by omega)]
  · simp [hi']

/-- Words that agree on a field agree on its bits. -/
theorem getLsbD_of_fld_eq {n : Nat} {v w : BitVec n} {hi lo i : Nat} (h : fld v hi lo = fld w hi lo) (h1 : lo ≤ i) (h2 : i ≤ hi) :
    v.getLsbD i = w.getLsbD i := by
  have e := congrArg (Nat.testBit · (i - lo)) h
  simpa [testBit_fld, show i - lo < hi + 1 - lo by omega, show lo + (i - lo) = i by omega] using e

/-- A field whose bits are all zero is 0. -/
theorem fld_eq_zero {n : Nat} {w : BitVec n} {hi lo : Nat} (h : ∀ i, lo ≤ i → i ≤ hi → w.getLsbD i = false) : fld w hi lo = 0 := by
  rw [fld_congr (w := 0#n) fun i h1 h2 => by simpa using h i h1 h2]
  simp [fld, nfld]

/-- Bit `i` belongs to the field. -/
def RegField.covers (f : RegField) (i : Nat) : Prop := f.lo ≤ i ∧ i ≤ f.hi

/-- Two fields share no bit. -/
def RegField.Apart (f g : RegField) : Prop := f.hi < g.lo ∨ g.hi < f.lo

theorem RegField.Apart.symm {f g : RegField} (h : f.Apart g) : g.Apart f := Or.symm h

theorem RegField.Apart.not_covers {f g : RegField} (h : f.Apart g) {i : Nat} (hf : f.covers i) : ¬ g.covers i := by
  unfold RegField.Apart RegField.covers at *
  omega

/-- In the register tables the fields of a register lie apart, within its 32 bits. -/
theorem RegName.fields_apart (r : RegName) : r.fields.Pairwise RegField.Apart ∧ ∀ f ∈ r.fields, f.hi < 32 := by
  unfold RegField.Apart
  cases r <;> decide

/-- A bit belongs to at most one field. -/
theorem RegName.field_unique {r : RegName} {f g : RegField} (hf : f ∈ r.fields) (hg : g ∈ r.fields) {i : Nat} (hfi : f.covers i) (hgi : g.covers i) :
    f = g := by
  by_contra hne
  have : Std.Symm RegField.Apart := ⟨fun _ _ => RegField.Apart.symm⟩
  exact (r.fields_apart.1.forall hf hg hne).not_covers hfi hgi

/-- The bits of a field, as a mask. -/
def RegField.mask (f : RegField) : W32 := BitVec.ofNat 32 ((2 ^ (f.hi + 1 - f.lo) - 1) <<< f.lo)

theorem RegField.getLsbD_mask (f : RegField) {i : Nat} (hi : i < 32) : f.mask.getLsbD i = true ↔ f.covers i := by
  simp only [RegField.mask, BitVec.getLsbD_ofNat, Nat.testBit_shiftLeft, Nat.testBit_two_pow_sub_one, RegField.covers]
  simp only [hi, decide_true, Bool.true_and, Bool.and_eq_true, decide_eq_true_eq]
  omega

/-- The masks of fields that lie apart add up to a word with exactly the bits that one of them covers. -/
theorem getLsbD_sum_masks {fs : List RegField} (ha : fs.Pairwise RegField.Apart) {n : Nat}
    (hn : ∀ f ∈ fs, ∀ i, i < 32 → f.covers i → (BitVec.ofNat 32 n).getLsbD i = false) {i : Nat} (hi : i < 32) :
    (BitVec.ofNat 32 (fs.foldl (fun w f => w + (2 ^ (f.hi + 1 - f.lo) - 1) <<< f.lo) n)).getLsbD i = true ↔
      (BitVec.ofNat 32 n).getLsbD i = true ∨ ∃ f ∈ fs, f.covers i := by
  induction fs generalizing n with
  | nil => simp
  | cons f fs ih =>
    obtain ⟨hf, ha'⟩ := List.pairwise_cons.1 ha
    have disjoint : BitVec.ofNat 32 n &&& f.mask = 0#32 := by
      refine BitVec.eq_of_getLsbD_eq fun j hj => ?_
      by_cases hc : f.covers j
      · simp [hn f List.mem_cons_self j hj hc]
      · simp [show f.mask.getLsbD j = false by simpa using mt (f.getLsbD_mask hj).1 hc]
    have sum : BitVec.ofNat 32 (n + (2 ^ (f.hi + 1 - f.lo) - 1) <<< f.lo) = BitVec.ofNat 32 n ||| f.mask := by
      rw [BitVec.ofNat_add]
      exact BitVec.add_eq_or_of_and_eq_zero _ _ disjoint
    have free : ∀ g ∈ fs, ∀ j, j < 32 → g.covers j → (BitVec.ofNat 32 (n + (2 ^ (f.hi + 1 - f.lo) - 1) <<< f.lo)).getLsbD j = false := by
      intro g hg j hj hc
      have hfj : f.mask.getLsbD j = false := by simpa using mt (f.getLsbD_mask hj).1 ((hf g hg).symm.not_covers hc)
      rw [sum, BitVec.getLsbD_or, hn g (List.mem_cons_of_mem _ hg) j hj hc, hfj, Bool.or_false]
    rw [List.foldl_cons, ih ha' free, sum, BitVec.getLsbD_or, Bool.or_eq_true, f.getLsbD_mask hi]
    simp [or_assoc]

/-- A bit of a field is in the mask of an access code where that is the field's own. -/
theorem RegName.getLsbD_accMask {r : RegName} {f : RegField} (hf : f ∈ r.fields) {i : Nat} (hc : f.covers i) (x : Access) :
    (r.accMask x).getLsbD i = (f.acc == x) := by
  have hi : i < 32 := Nat.lt_of_le_of_lt hc.2 (r.fields_apart.2 f hf)
  have key := getLsbD_sum_masks (r.fields_apart.1.filter (fun f => f.acc == x)) (n := 0) (by simp) hi
  rw [Bool.eq_iff_iff]
  refine key.trans ⟨?_, fun h => .inr ⟨f, List.mem_filter.2 ⟨hf, h⟩, hc⟩⟩
  rintro (h | ⟨g, hg, hgi⟩)
  · simp at h
  · obtain ⟨hg, hx⟩ := List.mem_filter.1 hg
    rwa [RegName.field_unique hf hg hc hgi]

/-! ### Writes -/

/-- What one bit becomes by its access code, before what the device has set in the same tick counts (R8). -/
def Access.written (x : Access) (locked old new : Bool) : Bool :=
  match x with
  | .rw => new
  | .rwl => if locked then old else new
  | .w1c => old && !new
  | .w1s => old || new
  | _ => old

/-- A field's write leaves the bits of other fields alone. -/
theorem RegField.getLsbD_write_other (f : RegField) (locked : Bool) (old new w : W32) {i : Nat} (hi : i < 32) (hc : ¬ f.covers i) :
    (f.write locked old new w).getLsbD i = w.getLsbD i := by
  have hm : f.mask.getLsbD i = false := by simpa using mt (f.getLsbD_mask hi).1 hc
  have taken : ((w &&& ~~~f.mask) ||| (new &&& f.mask)).getLsbD i = w.getLsbD i := by
    rw [BitVec.getLsbD_or, BitVec.getLsbD_and, BitVec.getLsbD_and, BitVec.getLsbD_not, hm]; simp [hi]
  have cleared : (w &&& ~~~(old &&& new &&& f.mask)).getLsbD i = w.getLsbD i := by
    rw [BitVec.getLsbD_and, BitVec.getLsbD_not, BitVec.getLsbD_and, hm]; simp [hi]
  have set : (w ||| (new &&& f.mask)).getLsbD i = w.getLsbD i := by
    rw [BitVec.getLsbD_or, BitVec.getLsbD_and, hm]; simp
  unfold RegField.write
  cases f.acc
  case rw => exact taken
  case rwl => cases locked <;> [exact taken; rfl]
  case w1c => exact cleared
  case w1s => exact set
  all_goals rfl

/-- A field's write gives its own bits what their access code says. -/
theorem RegField.getLsbD_write (f : RegField) (locked : Bool) (old new w : W32) {i : Nat} (hi : i < 32) (hc : f.covers i)
    (hw : w.getLsbD i = old.getLsbD i) :
    (f.write locked old new w).getLsbD i = f.acc.written locked (old.getLsbD i) (new.getLsbD i) := by
  have hm : f.mask.getLsbD i = true := (f.getLsbD_mask hi).2 hc
  have taken : ((w &&& ~~~f.mask) ||| (new &&& f.mask)).getLsbD i = new.getLsbD i := by
    rw [BitVec.getLsbD_or, BitVec.getLsbD_and, BitVec.getLsbD_and, BitVec.getLsbD_not, hm]; simp
  have cleared : (w &&& ~~~(old &&& new &&& f.mask)).getLsbD i = (old.getLsbD i && !new.getLsbD i) := by
    rw [BitVec.getLsbD_and, BitVec.getLsbD_not, BitVec.getLsbD_and, BitVec.getLsbD_and, hm, hw]
    cases old.getLsbD i <;> simp [hi]
  have set : (w ||| (new &&& f.mask)).getLsbD i = (old.getLsbD i || new.getLsbD i) := by
    rw [BitVec.getLsbD_or, BitVec.getLsbD_and, hm, hw, Bool.and_true]
  unfold RegField.write
  cases f.acc
  case rw => exact taken
  case rwl => cases locked <;> [exact taken; exact hw]
  case w1c => exact cleared
  case w1s => exact set
  all_goals exact hw

theorem getLsbD_writes_other {fs : List RegField} (locked : Bool) (old new w : W32) {i : Nat} (hi : i < 32) (hc : ∀ f ∈ fs, ¬ f.covers i) :
    (fs.foldl (fun w f => f.write locked old new w) w).getLsbD i = w.getLsbD i := by
  induction fs generalizing w with
  | nil => rfl
  | cons f fs ih =>
    rw [List.foldl_cons, ih _ fun g hg => hc g (List.mem_cons_of_mem _ hg)]
    exact f.getLsbD_write_other locked old new w hi (hc f List.mem_cons_self)

/-- Fields that lie apart and take a write one after another each give their bits what their code says. -/
theorem getLsbD_writes {fs : List RegField} (ha : fs.Pairwise RegField.Apart) (locked : Bool) (old new w : W32) {f : RegField} (hf : f ∈ fs)
    {i : Nat} (hi : i < 32) (hc : f.covers i) (hw : w.getLsbD i = old.getLsbD i) :
    (fs.foldl (fun w f => f.write locked old new w) w).getLsbD i = f.acc.written locked (old.getLsbD i) (new.getLsbD i) := by
  induction fs generalizing w with
  | nil => cases hf
  | cons g fs ih =>
    obtain ⟨hg, ha'⟩ := List.pairwise_cons.1 ha
    rw [List.foldl_cons]
    rcases List.mem_cons.1 hf with rfl | hf'
    · rw [getLsbD_writes_other locked old new _ hi fun k hk => (hg k hk).not_covers hc]
      exact f.getLsbD_write locked old new w hi hc hw
    · refine ih ha' _ hf' ?_
      rw [g.getLsbD_write_other locked old new w hi ((hg f hf').symm.not_covers hc), hw]

/-- A bit of a register after a write: by its access code, and a W1C bit that the device has set in the same tick stays (R8). -/
theorem Dev.getLsbD_regTaken (d : Dev) {r : RegName} (ix : List Nat) (v : W32) {f : RegField} (hf : f ∈ r.fields) {i : Nat} (hc : f.covers i) :
    (d.regTaken r ix v).getLsbD i =
      (f.acc.written d.locked (d.regBit r ix i) (v.getLsbD i) || (d.regBit r ix i && (d.freshBits r ix).getLsbD i && (f.acc == .w1c))) := by
  have hi : i < 32 := Nat.lt_of_le_of_lt hc.2 (r.fields_apart.2 f hf)
  simp only [Dev.regTaken, BitVec.getLsbD_or, BitVec.getLsbD_and, RegName.getLsbD_accMask hf hc, RegName.write]
  rw [getLsbD_writes r.fields_apart.1 d.locked (d.reg r ix) v (d.reg r ix) hf hi hc rfl]
  rfl

/-- A write that carries no other value for a locked field is stored (R8, R467). -/
theorem Dev.regStore_eq (d : Dev) {r : RegName} (ix : List Nat) {v : W32}
    (hl : ∀ f ∈ r.fields, f.acc = .rwl → d.locked = true → fld v f.hi f.lo = fld (d.reg r ix) f.hi f.lo) :
    d.regStore r ix v = d.setReg r ix (d.regTaken r ix v) := by
  unfold Dev.regStore
  dsimp only
  rw [if_neg]
  intro h
  obtain ⟨hlock, hne⟩ := Bool.and_eq_true_iff.1 h
  refine (bne_iff_ne.1 hne) (BitVec.eq_of_getLsbD_eq fun i hi => ?_)
  by_cases hm : (r.accMask .rwl).getLsbD i = true
  · have key := getLsbD_sum_masks (r.fields_apart.1.filter (fun f => f.acc == .rwl)) (n := 0) (by simp) hi
    obtain h0 | ⟨f, hf, hc⟩ := key.1 hm
    · simp at h0
    · obtain ⟨hf, hx⟩ := List.mem_filter.1 hf
      have e := getLsbD_of_fld_eq (hl f hf (by simpa using hx) hlock) hc.1 hc.2
      simp [e]
  · simp [hm]

/-- A plain register takes a write by its access codes alone. -/
theorem Dev.regWrite_plain (d : Dev) (f : Nat) {r : RegName} (ix : List Nat) (v : W32) (hp : r.plain = true) :
    d.regWrite f r ix v = d.regStore r ix v := by
  unfold Dev.regWrite
  dsimp only
  split
  -- the arm of the registers that have no behaviour of their own
  case h_32 =>
    have hr : d.regStore r ix v = (d.regStore r ix v).released r (ix.headD 0) (v &&& ~~~(d.freshBits r ix)) := by
      unfold Dev.released
      split
      case h_4 => rfl
      all_goals exact absurd hp (by decide)
    exact hr.symm
  all_goals exact absurd hp (by decide)

/-! ### Reads -/

/-- A read clears the RC fields of a register and leaves its other fields (R8). -/
theorem RegName.getLsbD_cleared {r : RegName} (w : W32) {f : RegField} (hf : f ∈ r.fields) {i : Nat} (hc : f.covers i) :
    (w &&& ~~~(r.accMask .rc)).getLsbD i = (w.getLsbD i && !(f.acc == .rc)) := by
  have hi : i < 32 := Nat.lt_of_le_of_lt hc.2 (r.fields_apart.2 f hf)
  simp only [BitVec.getLsbD_and, BitVec.getLsbD_not, RegName.getLsbD_accMask hf hc, hi, decide_true, Bool.true_and]

theorem RegName.fld_cleared_rc {r : RegName} (w : W32) {f : RegField} (hf : f ∈ r.fields) (hx : f.acc = .rc) :
    fld (w &&& ~~~(r.accMask .rc)) f.hi f.lo = 0 :=
  fld_eq_zero fun i h1 h2 => by rw [RegName.getLsbD_cleared w hf ⟨h1, h2⟩, hx]; simp

theorem RegName.fld_cleared_other {r : RegName} (w : W32) {f : RegField} (hf : f ∈ r.fields) (hx : f.acc ≠ .rc) :
    fld (w &&& ~~~(r.accMask .rc)) f.hi f.lo = fld w f.hi f.lo :=
  fld_congr fun i h1 h2 => by rw [RegName.getLsbD_cleared w hf ⟨h1, h2⟩, beq_false_of_ne hx]; simp

theorem dimIndex_length {ds : List (Nat × Nat)} {off : Nat} {ix : List Nat} (h : dimIndex ds off = some ix) : ix.length = ds.length := by
  induction ds generalizing off ix with
  | nil =>
    simp only [dimIndex] at h
    split at h <;> simp_all
  | cons c ds ih =>
    simp only [dimIndex] at h
    split at h
    · obtain ⟨js, hj, rfl⟩ := Option.map_eq_some_iff.1 h
      simp [ih hj]
    · cases h

/-- The indices of a register are as many as the dimensions of its block. -/
theorem regAt_length {a : Nat} {r : RegName} {ix : List Nat} (h : regAt a = some (r, ix)) : ix.length = r.dims.length := by
  obtain ⟨q, -, hq⟩ := List.exists_of_findSome?_eq_some h
  split at hq
  · obtain ⟨js, hj, e⟩ := Option.map_eq_some_iff.1 hq
    obtain ⟨rfl, rfl⟩ := Prod.mk.inj e
    exact dimIndex_length hj
  · cases hq

/-- What a read of a register with an RC field leaves in it (R8, R61). -/
structure ReadCleared (d : Dev) (r : RegName) (ix : List Nat) (w : W32) : Prop where
  rc : ∀ f ∈ r.fields, f.acc = .rc → r ≠ .bchSbStat → fld w f.hi f.lo = 0
  high : r = .bchSbStat → fld w 22 16 = (d.bench (ix.headD 0)).sb.length % 128
  other : ∀ f ∈ r.fields, f.acc ≠ .rc → fld w f.hi f.lo = fld (d.reg r ix) f.hi f.lo

/-- BCH_SB_STAT.HIGH starts again from the entries held (R61). -/
theorem Dev.readClear_sbStat (d : Dev) (b : Nat) :
    ∃ w, d.readClear .bchSbStat [b] = d.setReg .bchSbStat [b] w ∧ ReadCleared d .bchSbStat [b] w := by
  have hmem : (⟨22, 16, .rc, 0⟩ : RegField) ∈ RegName.bchSbStat.fields := by decide
  have high := RegName.fld_cleared_rc (d.reg .bchSbStat [b]) hmem rfl
  have other := fun f hf hx => RegName.fld_cleared_other (r := .bchSbStat) (d.reg .bchSbStat [b]) (f := f) hf hx
  have e : d.readClear .bchSbStat [b] = (d.setReg .bchSbStat [b] (d.reg .bchSbStat [b] &&& ~~~(RegName.bchSbStat.accMask .rc))).sbNote b := rfl
  generalize d.reg .bchSbStat [b] &&& ~~~(RegName.bchSbStat.accMask .rc) = w at high other e
  rw [e]
  unfold Dev.sbNote
  have hb : (d.setReg .bchSbStat [b] w).bench b = d.bench b := rfl
  simp only [Dev.regFld, Dev.reg_setReg, hb, high]
  split
  · refine ⟨setFld w 22 16 (d.bench b).sb.length, ?_, fun f _ _ h => absurd rfl h, fun _ => fld_setFld w (by decide) (by decide) _, fun f hf hx => ?_⟩
    · simp only [Dev.setRegFld, Dev.reg_setReg]
      simp only [Dev.setReg, SMap.set_set]
    · have apart : f.hi < 16 ∨ 22 < f.lo := by
        by_contra h
        have hlo : f.lo ≤ 22 ∧ 16 ≤ f.hi := by omega
        have hle : f.lo ≤ f.hi := by revert hf f; decide
        have hfm : f = ⟨22, 16, .rc, 0⟩ := RegName.field_unique hf hmem (i := max f.lo 16) ⟨by omega, by omega⟩ ⟨by dsimp only; omega, by dsimp only; omega⟩
        exact hx (by rw [hfm])
      rw [fld_setFld_other w (by decide) (RegName.bchSbStat.fields_apart.2 f hf) apart, other f hf hx]
  · next h =>
    exact ⟨w, rfl, fun f _ _ h => absurd rfl h, fun _ => by rw [high]; simp [show (d.bench b).sb.length = 0 by omega], other⟩

/-- A read of a register with RC fields changes that register as `ReadCleared` says. -/
theorem Dev.readClear_spec (d : Dev) {r : RegName} {ix : List Nat} (hl : ix.length = r.dims.length) (hc : r.readClears = true) :
    ∃ w, d.readClear r ix = d.setReg r ix w ∧ ReadCleared d r ix w := by
  by_cases hr : r = .bchSbStat
  · subst hr
    obtain ⟨b, rfl⟩ := List.length_eq_one_iff.1 hl
    exact d.readClear_sbStat b
  · refine ⟨d.reg r ix &&& ~~~(r.accMask .rc), by simp [Dev.readClear, hc, hr], fun f hf hx _ => RegName.fld_cleared_rc _ hf hx,
      fun h => absurd h hr, fun f hf hx => RegName.fld_cleared_other _ hf hx⟩

/-- A register without RC fields is not changed by a read. -/
theorem Dev.readClear_of_not (d : Dev) {r : RegName} (ix : List Nat) (hc : r.readClears = false) : d.readClear r ix = d := by
  have hr : r ≠ .bchSbStat := by rintro rfl; exact absurd hc (by decide)
  simp [Dev.readClear, hc, hr]

/-! ### Accesses of BAR0 -/

/-- The four bytes of a word read back as the word (R7). -/
theorem ofNat_leNat_leBytes (v : W32) : BitVec.ofNat 32 (leNat (leBytes v.toNat 4)) = v := by
  rw [leNat_leBytes, Nat.mod_eq_of_lt v.isLt, BitVec.ofNat_toNat, BitVec.setWidth_eq]

/-- The physical function answers unless its reset runs. -/
theorem Dev.barOn_zero {d : Dev} (h : (d.fn 0).flr = false) : d.barOn 0 = true := by simp [Dev.barOn, Dev.fnOn, h]

/-- A 4-byte write that reaches a register through the filter is a write of that register (R342, R468). -/
theorem Dev.bar0Write_hits {d : Dev} {a : Nat} {r : RegName} {ix : List Nat} (h : Hits d a r ix) (hf : d.filterRight 0 a = 2) (v : W32) :
    d.bar0Write 0 a (leBytes v.toNat 4) = d.regWrite 0 r ix v := by
  obtain ⟨hloc, hat, -, hhid, hal, hle, hflr⟩ := h
  have htake : (leBytes v.toNat 4).take 4 = leBytes v.toNat 4 := List.take_of_length_le (leBytes_length _ 4).le
  have hsize : ¬ bar0Size 0 < a + 4 := by simp only [bar0Size, if_true]; omega
  simp [Dev.bar0Write, hsize, Dev.barOn_zero hflr, bar0Ok, hal, hf, Dev.bar0Put, hloc, hat, hhid, htake, ofNat_leNat_leBytes]

/-- A 4-byte read that reaches a register through the filter (R342, R468). -/
theorem Dev.bar0Read_hits {d : Dev} {a : Nat} {r : RegName} {ix : List Nat} (h : Hits d a r ix) (hf : d.filterRight 0 a ≠ 0) :
    d.bar0Read 0 a 4 = (d.readClear r ix).emit (.completion 0 0 false (leBytes (d.regLive r ix &&& r.mask).toNat 4)) := by
  obtain ⟨hloc, hat, -, hhid, hal, hle, hflr⟩ := h
  have hsize : ¬ bar0Size 0 < a + 4 := by simp only [bar0Size, if_true]; omega
  simp [Dev.bar0Read, hsize, Dev.barOn_zero hflr, bar0Ok, hal, hf, Dev.bar0Bytes, Dev.bar0Word, hloc, hat, hhid]

/-- A read of a size that BAR0 does not accept completes with UR and is a cause (R342). -/
theorem Dev.bar0Read_badSize {d : Dev} {a n : Nat} (hflr : (d.fn 0).flr = false) (hle : a + n ≤ 2 ^ 26) (h4 : n ≠ 4) (h8 : ¬(n = 8 ∧ a % 8 = 0)) :
    d.bar0Read 0 a n = (d.hstCause 0 0x9206 5 0x80 a (some .unsupported)).emit (.completion 0 1 false []) := by
  have hsize : ¬ bar0Size 0 < a + n := by simp only [bar0Size, if_true]; omega
  have hok : bar0Ok a n = false := by simp [bar0Ok, h4]; omega
  simp [Dev.bar0Read, hsize, Dev.barOn_zero hflr, hok]

/-- AER's record of an error changes the function and lets its report leave unless it is masked (R350). -/
theorem Dev.aer_shape (d : Dev) (f : Nat) (e : AerErr) (adv : Bool) : ∃ fs, d.aer f e adv = { d with fns := fs, out := d.out ++ d.aerOut f e adv } := by
  unfold Dev.aer Dev.aerOut
  dsimp only
  split
  · exact ⟨_, by rw [List.append_nil]; rfl⟩
  · exact ⟨_, rfl⟩

/-- A cause of the host link that AER records (R350). -/
theorem Dev.hstCause_aer_shape (d : Dev) (fn code bit access addr : Nat) (e : AerErr) :
    ∃ rs fr fs x, d.hstCause fn code bit access addr (some e) = { d with
        regs := rs, fresh := fr, fns := fs, reports := d.reports ++ [x], out := d.out ++ d.aerOut fn e (code == 0x9203 || code == 0x9205) } ∧
      x.code = code ∧ x.master = 0xF840 ∧ x.access = access ∧ x.addr = addr := by
  unfold Dev.hstCause
  dsimp only
  rw [Dev.raise_eq]
  obtain ⟨fs, h⟩ := Dev.aer_shape _ fn e (code == 0x9203 || code == 0x9205)
  exact ⟨_, _, fs, _, h, rfl, rfl, rfl, rfl⟩

/-- A write of BAR0 that no posted write is ahead of is carried out at once (R478). -/
theorem hostBar0WriteEffect_of_free {d : Dev} {f : Nat} (hw : d.writesWait f = false) (off : Nat) (bs : List Byte) :
    hostBar0WriteEffect f off bs d = d.bar0Write f off bs := by simp [hostBar0WriteEffect, hw]

/-- A read that no posted write is ahead of is carried out at once (R291). -/
theorem hostBar0ReadEffect_of_free {d : Dev} {f : Nat} (hw : d.writesWait f = false) (off n : Nat) :
    hostBar0ReadEffect f off n d = d.bar0Read f off n := by simp [hostBar0ReadEffect, hw]

/-- A clearing read of a register that has an RC field is a read of 4 bytes. -/
theorem registerReadClearEffect_hits {d : Dev} {a : Nat} {r : RegName} {ix : List Nat} (h : Hits d a r ix) (hc : r.readClears = true) :
    registerReadClearEffect 0 a d = hostBar0ReadEffect 0 a 4 d := by
  simp [registerReadClearEffect, h.loc_eq, h.regAt_eq, hc]

/-! ### The access codes -/

/-- Settles O20: `Dev.getLsbD_regTaken` gives the bits of a write, `Dev.readClear_spec` what a read clears. -/
theorem registerAccesses : Obligations.RegisterAccesses := by
  refine ⟨fun s a r ix v hlive hw hit hfil hp hl => ?_, fun s a hlive hw => ⟨fun r ix hit hfil => ⟨fun hc => ?_, fun hc => ?_⟩, fun n hflr hle h4 h8 => ?_⟩,
    fun s f hlive hw => ⟨fun a bs => ?_, fun a n => ?_⟩⟩
  · refine ⟨s.dev.setReg r ix (s.dev.regTaken r ix v), ?_, fun f hf i h1 h2 => ?_, fun b hb => ?_,
      ⟨rfl, rfl, rfl, rfl, rfl, rfl, rfl⟩, ⟨rfl, rfl, rfl, rfl⟩, ⟨rfl, rfl, rfl, rfl⟩, ⟨rfl, rfl, rfl, rfl, rfl, rfl, rfl, rfl, rfl⟩, ⟨rfl, rfl, rfl⟩, rfl, rfl⟩
    · refine completes_of_runLive (c := .registerWrite (.bar0 0 a (leBytes v.toNat 4))) (f := registerWriteEffect (.bar0 0 a (leBytes v.toNat 4)))
        rfl hlive |>.trans ?_
      rw [registerWriteEffect, Fin.val_zero, hostBar0WriteEffect_of_free hw, Dev.bar0Write_hits hit hfil, Dev.regWrite_plain s.dev 0 ix v hp,
        Dev.regStore_eq s.dev ix hl]
    · rw [Dev.regBit, Dev.reg_setReg, Dev.getLsbD_regTaken s.dev ix v hf ⟨h1, h2⟩]
      cases f.acc <;> simp [Access.written]
      rw [Bool.and_or_distrib_left]
    · exact SMap.find?_set_other _ (by rw [hit.addr_eq]; simpa using hb) _
  · refine completes_of_runAsk (c := .hostBar0Read 0 a 4) (f := hostBar0ReadEffect 0 a.toNat 4) rfl hlive |>.trans ?_
    rw [hostBar0ReadEffect_of_free hw, Dev.bar0Read_hits hit hfil, Dev.readClear_of_not _ ix hc]
    rfl
  · obtain ⟨w, e, hcl⟩ := s.dev.readClear_spec (regAt_length hit.regAt_eq) hc
    refine ⟨(s.dev.setReg r ix w).emit (.completion 0 0 false (leBytes (s.dev.regLive r ix &&& r.mask).toNat 4)), ?_, rfl, fun b hb => ?_,
      ⟨rfl, rfl, rfl, rfl, rfl, rfl, rfl⟩, ⟨rfl, rfl, rfl, rfl⟩, ?_⟩
    · refine completes_of_runLive (c := .registerReadClear 0 a) (f := registerReadClearEffect 0 a.toNat) rfl hlive |>.trans ?_
      rw [registerReadClearEffect_hits hit hc, hostBar0ReadEffect_of_free hw, Dev.bar0Read_hits hit hfil, e]
    · exact SMap.find?_set_other _ (by rw [hit.addr_eq]; simpa using hb) _
    · have hreg : ((s.dev.setReg r ix w).emit (.completion 0 0 false (leBytes (s.dev.regLive r ix &&& r.mask).toNat 4))).reg r ix = w :=
        Dev.reg_setReg ..
      rw [Dev.regFld, hreg]
      exact ⟨hcl.rc, hcl.high, hcl.other⟩
  · obtain ⟨rs, fr, fs, x, e, hx, hm, -, ha⟩ := s.dev.hstCause_aer_shape 0 0x9206 5 0x80 a.toNat .unsupported
    refine ⟨_, completes_of_runAsk (c := .hostBar0Read 0 a n) (f := hostBar0ReadEffect 0 a.toNat n) rfl hlive, ?_⟩
    rw [hostBar0ReadEffect_of_free hw, Dev.bar0Read_badSize hflr hle h4 h8, e]
    exact ⟨rfl, x, rfl, hx, hm, ha⟩
  · refine completes_of_runLive (c := .registerWrite (.bar0 f a bs)) (f := registerWriteEffect (.bar0 f a bs)) rfl hlive |>.trans ?_
    simp only [registerWriteEffect, hostBar0WriteEffect, hw, if_true]
  · refine completes_of_runAsk (c := .hostBar0Read f a n) (f := hostBar0ReadEffect f a.toNat n) rfl hlive |>.trans ?_
    simp only [hostBar0ReadEffect, hw, if_true]

end Sys2Proof.Machine

/-! The window table (R294, R298, R299, R302): setting and clearing VALID, and the flush and zero fill that end an entry's busy time. -/

namespace Sys2Proof

/-! ### The two stores -/

namespace SMap
variable {α : Type}

theorem lookupL_filter (p : Nat → Bool) (k : Nat) (l : List (Nat × α)) :
    lookupL k (l.filter fun c => p c.1) = if p k then lookupL k l else none := by
  induction l with
  | nil => simp [lookupL]
  | cons c l ih =>
    obtain ⟨j, v⟩ := c
    by_cases hj : j = k
    · subst hj
      by_cases hp : p j
      · simp [hp, lookupL]
      · simpa [hp] using ih
    · by_cases hp : p j
      · simp [hp, lookupL, hj, ih]
      · simp [hp, lookupL, hj, ih]

/-- What a filter on keys leaves at a key. -/
theorem find?_filter_keys (m : SMap α) (p : Nat → Bool) (k : Nat) : (m.filter fun j _ => p j).find? k = if p k then m.find? k else none :=
  lookupL_filter p k m.cells

/-- A key at which a map holds a value is one of its keys. -/
theorem mem_keys_of_find? {m : SMap α} {k : Nat} {v : α} (h : m.find? k = some v) : k ∈ m.keys := by
  obtain ⟨l⟩ := m
  simp only [find?, keys] at *
  induction l with
  | nil => cases h
  | cons c l ih =>
    obtain ⟨j, w⟩ := c
    by_cases hj : j = k
    · simp [hj]
    · simp only [lookupL, hj, if_false] at h
      exact List.mem_cons_of_mem _ (ih h)

end SMap

namespace Mem

/-- What clearing the addresses that satisfy `p` leaves at an address. -/
theorem read_clearIf (m : Mem) (p : Nat → Bool) (a : Nat) : (m.clearIf p).read a = if p a then 0 else m.read a := by
  obtain ⟨l⟩ := m
  simp only [clearIf, read]
  induction l with
  | nil => simp [lookupL, unlisted]
  | cons c l ih =>
    obtain ⟨b, v⟩ := c
    by_cases hb : b = a
    · subst hb
      by_cases hp : p b
      · simpa [hp] using ih
      · simp [hp, lookupL]
    · by_cases hp : p b
      · simpa [hp, lookupL, hb] using ih
      · simpa [hp, lookupL, hb] using ih

/-- The bytes of a line that a store with enables puts down one after another. -/
theorem read_writeMasked_range (m : Mem) (a : Nat) (l : Line) (n : Nat) {i : Nat} (hi : i < n) :
    ((List.range n).foldl (fun m i => m.write (a + i) (l.byte i)) m).read (a + i) = l.byte i := by
  induction n with
  | zero => cases hi
  | succ n ih =>
    rw [List.range_succ, List.foldl_append, List.foldl_cons, List.foldl_nil]
    by_cases h : i = n
    · subst h; exact read_write_same ..
    · rw [read_write_other (by omega)]
      exact ih (by omega)

theorem writeMasked_allOnes (m : Mem) (a : Nat) (l : Line) :
    m.writeMasked a l (BitVec.allOnes 128) = (List.range 128).foldl (fun m i => m.write (a + i) (l.byte i)) m := by
  unfold writeMasked
  refine List.foldl_ext _ _ _ fun m i hi => ?_
  rw [if_pos (by rw [BitVec.getLsbD_allOnes]; exact decide_eq_true (List.mem_range.1 hi))]

theorem readBytes_eq_leBytes {m : Mem} {a v n : Nat} (h : ∀ i, i < n → m.read (a + i) = BitVec.ofNat 8 (v >>> (8 * i))) :
    m.readBytes a n = leBytes v n := by
  induction n generalizing a v with
  | zero => rfl
  | succ n ih =>
    have head : m.read a = BitVec.ofNat 8 v := h 0 (by omega)
    have tail : m.readBytes (a + 1) n = leBytes (v >>> 8) n := ih fun i hi => by
      rw [← Nat.shiftRight_add, show a + 1 + i = a + (i + 1) by omega, h (i + 1) (by omega), show 8 + 8 * i = 8 * (i + 1) by omega]
    simp only [readBytes, leBytes, head, tail]

/-- A line that has been stored whole reads back. -/
theorem readLine_writeMasked_allOnes (m : Mem) (a : Nat) (l : Line) : (m.writeMasked a l (BitVec.allOnes 128)).readLine a = l := by
  have h : (m.writeMasked a l (BitVec.allOnes 128)).readBytes a 128 = leBytes l.toNat 128 :=
    readBytes_eq_leBytes fun i hi => by rw [writeMasked_allOnes, read_writeMasked_range m a l 128 hi]; rfl
  rw [readLine, h, lineOf, List.take_of_length_le (by rw [leBytes_length]), leNat_leBytes, Nat.mod_eq_of_lt l.isLt, BitVec.ofNat_toNat, BitVec.setWidth_eq]

end Mem

end Sys2Proof

namespace Sys2Proof.Machine

/-! ### Registers at rest -/

/-- A register whose offset holds the same word reads the same. -/
theorem Dev.reg_congr {d d' : Dev} {r : RegName} {ix : List Nat} (h : d'.regs.find? (r.addr ix) = d.regs.find? (r.addr ix)) : d'.reg r ix = d.reg r ix := by
  simp only [Dev.reg, SMap.getD, h]

theorem RegsBut.setReg (d : Dev) (r : RegName) (ix : List Nat) (v : W32) : RegsBut [r.addr ix] d (d.setReg r ix v) :=
  fun _ h => SMap.find?_set_other _ (by simpa using h) _

@[simp] theorem Dev.regBit_setRegBit (d : Dev) (r : RegName) (ix : List Nat) {i : Nat} (hi : i < 32) : (d.setRegBit r ix i).regBit r ix i = true := by
  have h : (d.setRegBit r ix i).reg r ix = d.reg r ix ||| BitVec.ofNat 32 (2 ^ i) := Dev.reg_setReg ..
  rw [Dev.regBit, h, BitVec.getLsbD_or, BitVec.getLsbD_ofNat, Nat.testBit_two_pow_self]
  simp [hi]

@[simp] theorem Dev.regBit_clrRegBit (d : Dev) (r : RegName) (ix : List Nat) {i : Nat} (hi : i < 32) : (d.clrRegBit r ix i).regBit r ix i = false := by
  have h : (d.clrRegBit r ix i).reg r ix = setFld (d.reg r ix) i i 0 := Dev.reg_setReg ..
  rw [Dev.regBit, h, getLsbD_setFld_bit _ i 0 hi, Nat.zero_testBit]

/-- The registers of the window table and of the dies' power lie apart. -/
theorem addr_hbmWinBase (e : Nat) : RegName.hbmWinBase.addr [e] = 0x800000 + 16 * e := rfl
theorem addr_hbmWinState (e : Nat) : RegName.hbmWinState.addr [e] = 0x800008 + 16 * e := rfl
theorem addr_pwrDieCtl (i : Nat) : RegName.pwrDieCtl.addr [i] = 0x40010C + 16 * i := rfl

theorem addr_hbmWinBase_ne_hbmWinState (e f : Nat) : RegName.hbmWinBase.addr [e] ≠ RegName.hbmWinState.addr [f] := by
  rw [addr_hbmWinBase, addr_hbmWinState]; omega
theorem addr_hbmWinBase_ne_pwrDieCtl (e i : Nat) : RegName.hbmWinBase.addr [e] ≠ RegName.pwrDieCtl.addr [i] := by
  rw [addr_hbmWinBase, addr_pwrDieCtl]; omega
theorem addr_hbmWinState_ne_pwrDieCtl (e i : Nat) : RegName.hbmWinState.addr [e] ≠ RegName.pwrDieCtl.addr [i] := by
  rw [addr_hbmWinState, addr_pwrDieCtl]; omega

/-! ### The word of an entry -/

section
variable {base sizem1 : Nat} (hb : base < 1024) (hs : sizem1 < 1024) (v : Bool)
include hb hs

theorem toNat_winBaseWord : (winBaseWord base sizem1 v).toNat = base + sizem1 * 2 ^ 16 + b2n v * 2 ^ 31 := by
  have : b2n v ≤ 1 := by cases v <;> decide
  rw [winBaseWord, BitVec.toNat_ofNat]
  omega

theorem fld_winBaseWord_base : fld (winBaseWord base sizem1 v) 9 0 = base := by
  rw [fld, nfld, toNat_winBaseWord hb hs, Nat.shiftRight_eq_div_pow]
  omega

theorem fld_winBaseWord_size : fld (winBaseWord base sizem1 v) 25 16 = sizem1 := by
  rw [fld, nfld, toNat_winBaseWord hb hs, Nat.shiftRight_eq_div_pow]
  omega

theorem getLsbD_winBaseWord_valid : (winBaseWord base sizem1 v).getLsbD 31 = v := by
  rw [BitVec.getLsbD, toNat_winBaseWord hb hs, Nat.testBit_eq_decide_div_mod_eq]
  cases v <;> simp [b2n] <;> omega

/-- A write of an entry: a locked manager entry is RWL; of another one, VALID is set or cleared (R309, R467). -/
theorem Dev.winBaseWrite_word (d : Dev) (e : Nat) : d.winBaseWrite e (winBaseWord base sizem1 v) =
    if e < 16 ∧ d.locked = true then
      if winBaseWord base sizem1 v = d.reg .hbmWinBase [e] then d else d.lockedWrite (RegName.hbmWinBase.addr [e])
    else if v then d.winSet e base sizem1 false else d.winClear e base sizem1 := by
  unfold Dev.winBaseWrite
  simp only [fld_winBaseWord_base hb hs, fld_winBaseWord_size hb hs, getLsbD_winBaseWord_valid hb hs, Bool.and_eq_true, decide_eq_true_eq]

end

/-! ### Refusals -/

/-- Queues, benches, messages, caches and HBM are as before. -/
def WindowFrame (d d' : Dev) : Prop :=
  KeepsQueues d d' ∧ d'.benches = d.benches ∧ d'.net = d.net ∧ d'.bays = d.bays ∧ d'.slices = d.slices ∧ d'.hbm = d.hbm

/-- The write of an entry is refused for reason `why`: HBM_MAP_STATUS keeps the first one, and each is cause 0x3102 (R298, R308). -/
def WindowRefused (e : Fin 144) (why : Nat) (d d' : Dev) : Prop :=
  KeepsCompute d d' ∧ WindowFrame d d' ∧ RegsBut [RegName.hbmMapStatus.addr []] d d' ∧ d'.winFlush = d.winFlush ∧
    (∃ r, d'.reports = d.reports ++ [r] ∧ r.code = 0x3102 ∧ r.master = 0xF820 ∧ r.access = 0) ∧
    d'.reg .hbmMapStatus [] = if d.regBit .hbmMapStatus [] 31 then d.reg .hbmMapStatus [] else BitVec.ofNat 32 (2 ^ 31 + e * 2 ^ 8 + why)

/-- Only registers, what the tick has set in them, reports and ranges to flush differ. -/
def TableOnly (d d' : Dev) : Prop := ∃ rs fs rp wf, d' = { d with regs := rs, fresh := fs, reports := rp, winFlush := wf }

theorem TableOnly.trans {d d1 d2 : Dev} (h : TableOnly d d1) (k : TableOnly d1 d2) : TableOnly d d2 := by
  obtain ⟨_, _, _, _, rfl⟩ := h
  obtain ⟨rs, fs, rp, wf, rfl⟩ := k
  exact ⟨rs, fs, rp, wf, rfl⟩

theorem TableOnly.setReg (d : Dev) (r : RegName) (ix : List Nat) (v : W32) : TableOnly d (d.setReg r ix v) := ⟨_, _, _, _, rfl⟩
theorem TableOnly.raise (d : Dev) (r : RegName) (ix : List Nat) (bit : Nat) (x : Report) : TableOnly d (d.raise r ix bit x) := ⟨_, _, _, _, d.raise_eq ..⟩
theorem TableOnly.report (d : Dev) (x : Report) : TableOnly d (d.report x) := ⟨_, _, _, _, rfl⟩
theorem TableOnly.winBusy (d : Dev) (e base size : Nat) : TableOnly d (d.winBusy e base size) := ⟨_, _, d.reports, _, rfl⟩

/-- Such a change keeps what the window table's writes keep. -/
theorem TableOnly.keeps {d d' : Dev} (h : TableOnly d d') : KeepsCompute d d' ∧ WindowFrame d d' := by
  obtain ⟨rs, fs, rp, wf, rfl⟩ := h
  exact ⟨⟨rfl, rfl, rfl, rfl, rfl, rfl, rfl⟩, ⟨rfl, rfl, rfl, rfl⟩, rfl, rfl, rfl, rfl, rfl⟩

theorem Dev.winRefuse_refused (d : Dev) (e : Fin 144) (why addr : Nat) : WindowRefused e why d (d.winRefuse e why addr) := by
  unfold Dev.winRefuse
  dsimp only
  split
  · next h =>
    obtain ⟨hc, hf⟩ := (TableOnly.report d _).keeps
    exact ⟨hc, hf, fun _ _ => rfl, rfl, ⟨_, rfl, rfl, rfl, rfl⟩, (if_pos h).symm⟩
  · next h =>
    obtain ⟨hc, hf⟩ := ((TableOnly.setReg d _ _ _).trans (TableOnly.report _ _)).keeps
    exact ⟨hc, hf, RegsBut.setReg d _ _ _, rfl, ⟨_, rfl, rfl, rfl, rfl⟩, (Dev.reg_setReg d _ _ _).trans (if_neg h).symm⟩

/-! ### Powering dies on -/

/-- What powering on the dies `is` does to dies and registers: one that is OFF begins its link-up, another one stays (R438). -/
structure PoweredOn (is : List Nat) (d d' : Dev) : Prop where
  shape : d' = { d with dies := d'.dies, regs := d'.regs, fresh := d'.fresh }
  began : ∀ i ∈ is, (d.die i).st = 0 → (d'.die i).st = 1
  running : ∀ i, (d.die i).st ≠ 0 → d'.die i = d.die i
  others : ∀ i, i ∉ is → d'.die i = d.die i
  regs : RegsBut (is.map fun i => RegName.pwrDieCtl.addr [i]) d d'

theorem Dev.powerOn_one (d : Dev) (i : Nat) : PoweredOn [i] d (d.powerOn i) := by
  unfold Dev.powerOn
  split
  · next h =>
    have hdie (j : Nat) : (((d.modDie i fun x => { x with st := 1 }).setRegBit .pwrDieCtl [i] 1).die j) = (d.modDie i fun x => { x with st := 1 }).die j := rfl
    have other (j : Nat) (hj : j ≠ i) : (d.modDie i fun x => { x with st := 1 }).die j = d.die j := Dev.die_setDie_other _ hj _
    refine ⟨rfl, fun j hj _ => ?_, fun j hj => ?_, fun j hj => ?_, fun a ha => ?_⟩
    · obtain rfl := List.mem_singleton.1 hj
      rw [hdie, Dev.modDie, Dev.die_setDie]
    · rw [hdie, other j (by rintro rfl; exact hj h)]
    · rw [hdie, other j (by simpa using hj)]
    · exact SMap.find?_set_other _ (by simpa using ha) _
  · next h =>
    exact ⟨rfl, fun j hj h0 => absurd (List.mem_singleton.1 hj ▸ h0) h, fun _ _ => rfl, fun _ _ => rfl, fun _ _ => rfl⟩

theorem Dev.powerOns_powered (is : List Nat) (d : Dev) : PoweredOn is d (is.foldl Dev.powerOn d) := by
  induction is generalizing d with
  | nil => exact ⟨rfl, fun _ h => absurd h List.not_mem_nil, fun _ _ => rfl, fun _ _ => rfl, fun _ _ => rfl⟩
  | cons i is ih =>
    have one := d.powerOn_one i
    have rest := ih (d.powerOn i)
    rw [List.foldl_cons]
    refine ⟨?_, fun j hj h0 => ?_, fun j h0 => ?_, fun j hj => ?_, fun a ha => ?_⟩
    · rw [rest.shape, one.shape]
    · by_cases hji : j = i
      · subst hji
        have h1 := one.began j (List.mem_singleton.2 rfl) h0
        rw [rest.running j (by omega), h1]
      · have h1 := one.others j (by simpa using hji)
        exact rest.began j ((List.mem_cons.1 hj).resolve_left hji) (by rw [h1, h0])
    · have h1 := one.running j h0
      rw [rest.running j (by rwa [h1]), h1]
    · obtain ⟨hji, hj'⟩ := not_or.1 (mt List.mem_cons.2 hj)
      rw [rest.others j hj', one.others j (by simpa using hji)]
    · rw [List.map_cons] at ha
      obtain ⟨hai, ha'⟩ := not_or.1 (mt List.mem_cons.2 ha)
      rw [rest.regs a ha', one.regs a (by simpa using hai)]

/-! ### Setting and clearing VALID -/

theorem Dev.regBit_winBusy (d : Dev) (e base size : Nat) : (d.winBusy e base size).regBit .hbmWinState [e] 1 = true :=
  Dev.regBit_setRegBit d .hbmWinState [e] (by decide)

theorem Dev.winFlush_winBusy (d : Dev) (e base size : Nat) : (d.winBusy e base size).winFlush.find? e = some (base, size) := SMap.find?_set_same ..

theorem RegsBut.winBusy (d : Dev) (e base size : Nat) : RegsBut [RegName.hbmWinState.addr [e]] d (d.winBusy e base size) :=
  fun _ h => SMap.find?_set_other _ (by simpa using h) _

/-- An entry is busy with a range, and its word is the one written. -/
theorem Dev.winBusy_set (d : Dev) (e : Nat) (v : W32) (base size : Nat) :
    ((d.setReg .hbmWinBase [e] v).winBusy e base size).reg .hbmWinBase [e] = v ∧
      RegsBut [RegName.hbmWinBase.addr [e], RegName.hbmWinState.addr [e]] d ((d.setReg .hbmWinBase [e] v).winBusy e base size) := by
  have hset := RegsBut.setReg d .hbmWinBase [e] v
  have hbusy := RegsBut.winBusy (d.setReg .hbmWinBase [e] v) e base size
  refine ⟨?_, fun a ha => ?_⟩
  · rw [Dev.reg_congr (hbusy _ (by simpa using addr_hbmWinBase_ne_hbmWinState e e)), Dev.reg_setReg]
  · obtain ⟨h1, h2⟩ := not_or.1 (mt List.mem_cons.2 ha)
    rw [hbusy a h2, hset a (by simpa using h1)]

@[simp] theorem Dev.win_entry (d : Dev) (e : Nat) : (d.win e).entry = e := rfl

theorem Win.holds_busy {w : Win} (h : w.busy = true) (pa : Nat) : w.holds pa = false := by simp [Win.holds, h]

theorem Dev.win_busy (d : Dev) (e : Nat) : (d.win e).busy = d.regBit .hbmWinState [e] 1 := rfl

/-- A chain of checks gives no reason: its first check has not failed, nor has the rest. -/
theorem of_ite_some_eq_none {α : Type} {p : Prop} [Decidable p] {x : α} {o : Option α} (h : (if p then some x else o) = none) : ¬p ∧ o = none := by
  by_cases hp : p
  · rw [if_pos hp] at h; cases h
  · rw [if_neg hp] at h; exact ⟨hp, h⟩

/-- What the checks of R298 have found of a window that they let through. -/
theorem Dev.winReason_none {d : Dev} {w : Win} (h : d.winReason w false = none) :
    w.base + w.size ≤ 1024 ∧ w.mode ≠ 3 ∧
      (∀ v, v < 144 → v ≠ w.entry → (d.win v).valid = true → (d.win v).base + (d.win v).size ≤ w.base ∨ w.base + w.size ≤ (d.win v).base) ∧
      ∀ k, w.owner = some k → w.mgmt = false ∧ ∀ i ∈ w.dies, d.instOfDie i = k := by
  unfold Dev.winReason at h
  dsimp only at h
  obtain ⟨-, h⟩ := of_ite_some_eq_none h
  obtain ⟨place, h⟩ := of_ite_some_eq_none h
  obtain ⟨-, h⟩ := of_ite_some_eq_none h
  obtain ⟨held, h⟩ := of_ite_some_eq_none h
  obtain ⟨-, h⟩ := of_ite_some_eq_none h
  obtain ⟨-, h⟩ := of_ite_some_eq_none h
  obtain ⟨kind, -⟩ := of_ite_some_eq_none h
  simp only [Bool.or_eq_true, decide_eq_true_eq, Bool.and_eq_true] at place kind
  obtain ⟨hsize, hmeet⟩ := not_or.1 place
  obtain ⟨hmode, hmgmt⟩ := not_or.1 kind
  refine ⟨by omega, hmode, fun v hv hne hval => ?_, fun k hk => ?_⟩
  · have apart : rangesMeet w.base w.size (d.win v).base (d.win v).size = false := by
      by_contra hm
      refine hmeet (List.any_eq_true.2 ⟨d.win v, List.mem_filter.2 ⟨List.mem_map.2 ⟨v, List.mem_range.2 hv, rfl⟩, ?_⟩, by simpa using hm⟩)
      simpa [hval] using hne
    simp only [rangesMeet, Bool.and_eq_false_iff, decide_eq_false_iff_not] at apart
    omega
  · have howner : 16 ≤ w.entry ∧ (w.entry - 16) / 16 = k := by
      unfold Win.owner at hk
      split at hk
      · cases hk
      · exact ⟨by omega, Option.some.inj hk⟩
    refine ⟨by simpa using fun hm => hmgmt ⟨howner.1, hm⟩, fun i hi => ?_⟩
    by_contra hne
    refine held ?_
    simp only [Bool.not_false, Bool.true_and, Bool.and_eq_true, decide_eq_true_eq, List.any_eq_true, bne_iff_ne]
    exact ⟨⟨howner.1, hmode⟩, i, hi, by rwa [howner.2]⟩

section
variable {d : Dev} {e base sizem1 : Nat} (hbusy : (d.win e).busy = false) (hval : (d.win e).valid = false)
include hbusy hval

/-- A set of an entry that is neither busy nor valid is refused for the first reason that R298 gives. -/
theorem Dev.winSet_refused {why : Nat} (h : d.winReason { d.win e with base := base, size := sizem1 + 1, valid := true } false = some why) :
    d.winSet e base sizem1 false = d.winRefuse e why (base * 2 ^ 30) := by
  unfold Dev.winSet
  dsimp only at h ⊢
  rw [if_neg (by simp [hbusy, hval]), h]

/-- Where R298 gives none, the entry is set and its dies power on (R299, R438). -/
theorem Dev.winSet_accepted (h : d.winReason { d.win e with base := base, size := sizem1 + 1, valid := true } false = none) :
    d.winSet e base sizem1 false =
      (d.win e).dies.foldl Dev.powerOn ((d.setReg .hbmWinBase [e] (winBaseWord base sizem1 true)).winBusy e base (sizem1 + 1)) := by
  unfold Dev.winSet
  dsimp only at h ⊢
  rw [if_neg (by simp [hbusy, hval]), h]

end

/-- What the setting of an entry leaves (R298, R299, R438). -/
structure WindowSet (e base sizem1 : Nat) (d d' : Dev) : Prop where
  frame : WindowFrame d d'
  word : d'.reg .hbmWinBase [e] = winBaseWord base sizem1 true
  busy : (d'.win e).busy = true
  flush : d'.winFlush.find? e = some (base, sizem1 + 1)
  began : ∀ i ∈ (d.win e).dies, (d.die i).st = 0 → (d'.die i).st = 1
  others : ∀ i, i ∉ (d.win e).dies → d'.die i = d.die i
  regs : RegsBut (RegName.hbmWinBase.addr [e] :: RegName.hbmWinState.addr [e] :: (d.win e).dies.map fun i => RegName.pwrDieCtl.addr [i]) d d'

theorem WindowSet.of_powered {e base sizem1 : Nat} {d d1 d' : Dev} (hframe : WindowFrame d d1) (hdies : d1.dies = d.dies)
    (hword : d1.reg .hbmWinBase [e] = winBaseWord base sizem1 true) (hbusy : d1.regBit .hbmWinState [e] 1 = true)
    (hflush : d1.winFlush.find? e = some (base, sizem1 + 1)) (hregs : RegsBut [RegName.hbmWinBase.addr [e], RegName.hbmWinState.addr [e]] d d1)
    (on : PoweredOn (d.win e).dies d1 d') : WindowSet e base sizem1 d d' := by
  have hdie (i : Nat) : d1.die i = d.die i := by rw [Dev.die, hdies, Dev.die]
  have keepBase : d'.reg .hbmWinBase [e] = d1.reg .hbmWinBase [e] :=
    Dev.reg_congr (on.regs _ (by simpa using fun i _ => (addr_hbmWinBase_ne_pwrDieCtl e i).symm))
  have keepState : d'.reg .hbmWinState [e] = d1.reg .hbmWinState [e] :=
    Dev.reg_congr (on.regs _ (by simpa using fun i _ => (addr_hbmWinState_ne_pwrDieCtl e i).symm))
  constructor
  case frame =>
    obtain ⟨⟨hq, hs, hst, hk⟩, hb, hn, hba, hsl, hh⟩ := hframe
    rw [on.shape]
    exact ⟨⟨hq, hs, hst, hk⟩, hb, hn, hba, hsl, hh⟩
  case word => exact keepBase.trans hword
  case busy =>
    rw [Dev.win_busy, Dev.regBit, keepState]
    exact hbusy
  case flush =>
    rw [on.shape]
    exact hflush
  case began => exact fun i hi h0 => on.began i hi (by rwa [hdie])
  case others => exact fun i hi => (on.others i hi).trans (hdie i)
  case regs =>
    intro a ha
    simp only [List.mem_cons, not_or] at ha
    obtain ⟨h1, h2, h3⟩ := ha
    rw [on.regs a h3, hregs a (by simp [h1, h2])]

theorem Dev.winSet_set (d : Dev) (e base sizem1 : Nat) : WindowSet e base sizem1 d
    ((d.win e).dies.foldl Dev.powerOn ((d.setReg .hbmWinBase [e] (winBaseWord base sizem1 true)).winBusy e base (sizem1 + 1))) := by
  obtain ⟨hword, hregs⟩ := d.winBusy_set e (winBaseWord base sizem1 true) base (sizem1 + 1)
  obtain ⟨hkeep, hframe⟩ := ((TableOnly.setReg d .hbmWinBase [e] (winBaseWord base sizem1 true)).trans (.winBusy _ e base (sizem1 + 1))).keeps
  exact .of_powered hframe hkeep.dies hword (Dev.regBit_winBusy ..) (Dev.winFlush_winBusy ..) hregs (Dev.powerOns_powered _ _)

/-! ### The flush of a range (R299) -/

/-- The line lies in a range given in GiB. -/
def SLine.InRange (a n : Nat) (x : SLine) : Prop := a * 2 ^ 23 ≤ x.line ∧ x.line < (a + n) * 2 ^ 23

/-- A device with other bytes of HBM and other slices, whose slices hold the same lines. -/
structure LinesKept (d d' : Dev) : Prop where
  shape : d' = { d with hbm := d'.hbm, hbmPoison := d'.hbmPoison, slices := d'.slices }
  lines : ∀ q, (d'.slice q).lines = (d.slice q).lines

theorem LinesKept.refl (d : Dev) : LinesKept d d := ⟨rfl, fun _ => rfl⟩

theorem LinesKept.trans {d d1 d2 : Dev} (h : LinesKept d d1) (k : LinesKept d1 d2) : LinesKept d d2 :=
  ⟨by rw [k.shape, h.shape], fun q => (k.lines q).trans (h.lines q)⟩

theorem LinesKept.of_hbm {d d' : Dev} (h : ∃ m p, d' = { d with hbm := m, hbmPoison := p }) : LinesKept d d' := by
  obtain ⟨m, p, rfl⟩ := h
  exact ⟨rfl, fun _ => rfl⟩

theorem Dev.hbmStore_kept (d : Dev) (die loc : Nat) (l : Line) (p : Bool) : LinesKept d (d.hbmStore die loc l p) := .of_hbm ⟨_, _, rfl⟩

theorem Dev.checksBack_kept (d : Dev) (q : Nat) (cs : List CheckLine) : LinesKept d (d.checksBack q cs) := by
  unfold Dev.checksBack
  generalize cs.filter (·.dirty) = ds
  induction ds generalizing d with
  | nil => exact .refl d
  | cons c ds ih =>
    rw [List.foldl_cons]
    split
    · exact ih d
    · exact (d.hbmStore_kept ..).trans (ih _)

theorem Dev.checkUse_kept (d : Dev) (q line loc : Nat) (wr : Bool) : LinesKept d (d.checkUse q line loc wr) := by
  unfold Dev.checkUse
  dsimp only
  split
  · refine LinesKept.trans (d1 := d.modSlice q fun s => { s with checks := ((d.slice q).useCheck (checkLoc loc) wr).take 256 }) ⟨rfl, fun z => ?_⟩
      (Dev.checksBack_kept _ q _)
    by_cases hz : z = q
    · subst hz; rw [Dev.modSlice, Dev.slice_setSlice]
    · rw [Dev.modSlice, Dev.slice_setSlice_other d hz]
  · exact .refl d

theorem Dev.hbmPut_kept (d : Dev) (q line loc : Nat) (l : Line) (p : Bool) : LinesKept d (d.hbmPut q line loc l p) := by
  unfold Dev.hbmPut
  split
  · exact .refl d
  · exact (d.checkUse_kept q line loc true).trans (Dev.hbmStore_kept ..)

theorem Dev.hbmStore_hbm (d : Dev) (die loc : Nat) (l : Line) (p : Bool) :
    (d.hbmStore die loc l p).hbm = d.hbm.writeMasked (hbmAt die loc) l (BitVec.allOnes 128) := by rw [Dev.hbmStore]

/-- A line that has been stored is read back with its poison (R305). -/
theorem Dev.hbmLine_hbmStore (d : Dev) (die loc : Nat) (l : Line) (p : Bool) :
    (d.hbmStore die loc l p).hbmLine die loc = l ∧ (d.hbmStore die loc l p).hbmBad die loc = p := by
  refine ⟨by rw [Dev.hbmLine, Dev.hbmStore_hbm, Mem.readLine_writeMasked_allOnes], ?_⟩
  cases p
  · simp [Dev.hbmStore, Dev.hbmBad, SMap.has]
  · simp [Dev.hbmStore, Dev.hbmBad, SMap.has]

/-- A failed channel discards a write (R307). -/
theorem Dev.hbmPut_failed {d : Dev} {q loc : Nat} (h : d.channelFailed (q / 16) loc = true) (line : Nat) (l : Line) (p : Bool) :
    d.hbmPut q line loc l p = d := by simp [Dev.hbmPut, h]

theorem Dev.hbmLine_hbmPut {d : Dev} {q loc : Nat} (h : d.channelFailed (q / 16) loc = false) (line : Nat) (l : Line) (p : Bool) :
    (d.hbmPut q line loc l p).hbmLine (q / 16) loc = l ∧ (d.hbmPut q line loc l p).hbmBad (q / 16) loc = p := by
  simp only [Dev.hbmPut, h, Bool.false_eq_true, if_false]
  exact Dev.hbmLine_hbmStore ..

/-- No client has a copy of a line in state V (R257). -/
theorem Dev.pullCopies_v {d : Dev} {q k : Nat} (h : ((d.slice q).at k).dir = .v) (keep : Bool) : d.pullCopies q k keep = some d := by
  unfold Dev.pullCopies
  simp only [h, List.any_nil, Bool.false_eq_true, if_false, List.foldl_nil]

/-- The device after way `k` of slice `q`, which holds line `x`, has been written back and invalidated. -/
def Dev.flushed (d : Dev) (q k : Nat) (x : SLine) : Dev :=
  (if x.dirty && x.valid then d.hbmPut q x.line x.loc x.data x.poison else d).modSlice q fun s => { s with lines := s.lines.erase k }

theorem Dev.flushed_shape (d : Dev) (q k : Nat) (x : SLine) : ∃ m p ss, d.flushed q k x = { d with hbm := m, hbmPoison := p, slices := ss } := by
  have written (d1 : Dev) (h : LinesKept d d1) :
      ∃ m p ss, (d1.modSlice q fun s => { s with lines := s.lines.erase k }) = { d with hbm := m, hbmPoison := p, slices := ss } := by
    rw [h.shape]
    exact ⟨_, _, _, rfl⟩
  unfold Dev.flushed
  split
  · exact written _ (d.hbmPut_kept ..)
  · exact written _ (.refl d)

theorem Dev.flushed_lines (d : Dev) (q k : Nat) (x : SLine) : ((d.flushed q k x).slice q).lines = (d.slice q).lines.erase k := by
  unfold Dev.flushed
  rw [Dev.modSlice, Dev.slice_setSlice]
  split
  · rw [(d.hbmPut_kept q x.line x.loc x.data x.poison).lines]
  · rfl

theorem Dev.flushed_lines_other (d : Dev) {q z : Nat} (hz : z ≠ q) (k : Nat) (x : SLine) : ((d.flushed q k x).slice z).lines = (d.slice z).lines := by
  unfold Dev.flushed
  rw [Dev.modSlice, Dev.slice_setSlice_other _ hz]
  split
  · rw [(d.hbmPut_kept q x.line x.loc x.data x.poison).lines]
  · rfl

section
variable {d : Dev} {a n : Nat}

/-- No line of the range is left after the flush of the one that there was. -/
theorem Dev.flushed_no_line {q k : Nat} {x : SLine} (hc : (d.slice q).lines.cells = [(k, x)])
    (ho : ∀ p, p ≠ q → ∀ c ∈ (d.slice p).lines.cells, ¬ c.2.InRange a n) :
    ∀ p, ∀ c ∈ ((d.flushed q k x).slice p).lines.cells, ¬ c.2.InRange a n := by
  intro p c h
  by_cases hp : p = q
  · subst hp
    rw [Dev.flushed_lines, SMap.erase, hc] at h
    simp [SMap.eraseL] at h
  · rw [Dev.flushed_lines_other d hp] at h
    exact ho p hp c h

/-- A slice without a line of the range has nothing to flush. -/
theorem Dev.flushSlice_none {q : Nat} (h : ∀ c ∈ (d.slice q).lines.cells, ¬ c.2.InRange a n) : d.flushSlice q a n = some d := by
  have e : (d.slice q).lines.cells.filter (fun c => decide (a * 2 ^ 23 ≤ c.2.line) && decide (c.2.line < (a + n) * 2 ^ 23)) = [] :=
    List.filter_eq_nil_iff.2 fun c hc => by simpa [SLine.InRange] using h c hc
  unfold Dev.flushSlice
  rw [e]
  rfl

/-- A slice whose one line lies in the range, with no copies, writes it back and gives it up. -/
theorem Dev.flushSlice_one {q k : Nat} {x : SLine} (hc : (d.slice q).lines.cells = [(k, x)]) (hx : x.InRange a n) (hdir : x.dir = .v) :
    d.flushSlice q a n = some (d.flushed q k x) := by
  have hat : (d.slice q).at k = x := by simp [Slice.at, SMap.getD, SMap.find?, hc, SMap.lookupL]
  have hpull := Dev.pullCopies_v (d := d) (q := q) (k := k) (by rw [hat, hdir]) false
  unfold Dev.flushSlice
  rw [hc, List.filter_cons_of_pos (by simpa [SLine.InRange] using hx), List.filter_nil]
  simp only [List.foldl_cons, List.foldl_nil, Option.bind_some, hpull, Option.map_some, hat]
  rfl

/-- The slices `qs` flush the range one after another. -/
def Dev.flushAll (a n : Nat) (qs : List Nat) (d : Dev) : Option Dev := qs.foldl (fun (o : Option Dev) q => o.bind fun d => d.flushSlice q a n) (some d)

theorem Dev.flushAll_cons {q : Nat} {d1 : Dev} (h : d.flushSlice q a n = some d1) (qs : List Nat) :
    Dev.flushAll a n (q :: qs) d = Dev.flushAll a n qs d1 := by
  simp [Dev.flushAll, h]

theorem Dev.flushAll_none (h : ∀ q, ∀ c ∈ (d.slice q).lines.cells, ¬ c.2.InRange a n) (qs : List Nat) : Dev.flushAll a n qs d = some d := by
  induction qs with
  | nil => rfl
  | cons q qs ih => rw [Dev.flushAll_cons (Dev.flushSlice_none (h q)), ih]

/-- Where one slice's one line is all that lies in the range, the flush is that line's. -/
theorem Dev.flushAll_one {q k : Nat} {x : SLine} (hc : (d.slice q).lines.cells = [(k, x)]) (hx : x.InRange a n) (hdir : x.dir = .v)
    (ho : ∀ p, p ≠ q → ∀ c ∈ (d.slice p).lines.cells, ¬ c.2.InRange a n) {qs : List Nat} (hq : q ∈ qs) :
    Dev.flushAll a n qs d = some (d.flushed q k x) := by
  induction qs with
  | nil => cases hq
  | cons p qs ih =>
    by_cases hp : p = q
    · subst hp
      rw [Dev.flushAll_cons (Dev.flushSlice_one hc hx hdir), Dev.flushAll_none (Dev.flushed_no_line hc ho)]
    · rw [Dev.flushAll_cons (Dev.flushSlice_none (ho p hp)), ih ((List.mem_cons.1 hq).resolve_left (Ne.symm hp))]

end

/-! ### The zero fill (R299, R302) -/

/-- The zero fill of a window's backing, and of its check shadow where it corrects, on die `i`. -/
def Dev.zeroDie (w : Win) (d : Dev) (i : Nat) : Dev :=
  { d with
    hbm := d.hbm.clearIf fun a => a / 2 ^ 37 == i && d.zeroes w i (a % 2 ^ 37 / 128)
    hbmPoison := d.hbmPoison.filter fun k _ => !(k / 2 ^ 30 == i && d.zeroes w i (k % 2 ^ 30)) }

theorem Dev.zeroWindow_eq (d : Dev) (w : Win) : d.zeroWindow w = w.dies.foldl (Dev.zeroDie w) d := rfl

/-- The zero fill of dies changes HBM and its poison; what it writes on them reads zero, and so does what read zero before. -/
theorem Dev.zeroDies_spec (w : Win) (is : List Nat) (d : Dev) :
    ∃ m p, is.foldl (Dev.zeroDie w) d = { d with hbm := m, hbmPoison := p } ∧
      (∀ a, d.hbm.read a = 0 ∨ a / 2 ^ 37 ∈ is ∧ d.zeroes w (a / 2 ^ 37) (a % 2 ^ 37 / 128) = true → m.read a = 0) ∧
      ∀ k, d.hbmPoison.find? k = none ∨ k / 2 ^ 30 ∈ is ∧ d.zeroes w (k / 2 ^ 30) (k % 2 ^ 30) = true → p.find? k = none := by
  induction is generalizing d with
  | nil => exact ⟨d.hbm, d.hbmPoison, rfl, fun a h => h.resolve_right fun k => List.not_mem_nil k.1, fun k h => h.resolve_right fun j => List.not_mem_nil j.1⟩
  | cons i is ih =>
    obtain ⟨m, p, e, hm, hp⟩ := ih (Dev.zeroDie w d i)
    refine ⟨m, p, by rw [List.foldl_cons, e]; rfl, fun a h => hm a ?_, fun k h => hp k ?_⟩
    · have read : (Dev.zeroDie w d i).hbm.read a = if a / 2 ^ 37 == i && d.zeroes w i (a % 2 ^ 37 / 128) then 0 else d.hbm.read a :=
        Mem.read_clearIf ..
      rcases h with h | ⟨hi, hz⟩
      · exact .inl (by rw [read, h]; exact ite_self _)
      · rcases List.mem_cons.1 hi with rfl | hi
        · exact .inl (by rw [read, if_pos (by simpa using hz)])
        · exact .inr ⟨hi, hz⟩
    · have read : (Dev.zeroDie w d i).hbmPoison.find? k = if !(k / 2 ^ 30 == i && d.zeroes w i (k % 2 ^ 30)) then d.hbmPoison.find? k else none :=
        SMap.find?_filter_keys ..
      rcases h with h | ⟨hi, hz⟩
      · exact .inl (by rw [read, h]; exact ite_self _)
      · rcases List.mem_cons.1 hi with rfl | hi
        · exact .inl (by rw [read, if_neg (by simpa using hz)])
        · exact .inr ⟨hi, hz⟩

/-- A byte of die `i` that the zero fill of a window covers, on a channel that has not failed. -/
theorem Dev.zeroes_of_backing {d : Dev} {w : Win} {i x : Nat}
    (h : w.doff * 2 ^ 30 ≤ x ∧ x < (w.doff + w.backed) * 2 ^ 30 ∨
      w.detecting = false ∧ 124 * 2 ^ 30 + w.doff * 2 ^ 25 ≤ x ∧ x < 124 * 2 ^ 30 + (w.doff + w.backed) * 2 ^ 25)
    (hch : d.channelFailed i (x / 128) = false) : d.zeroes w i (x / 128) = true := by
  simp only [Dev.zeroes, hch, Bool.not_false, Bool.and_true, Bool.or_eq_true, Bool.and_eq_true, decide_eq_true_eq,
    Nat.le_div_iff_mul_le (show 0 < 128 by decide), Nat.div_lt_iff_lt_mul (show 0 < 128 by decide)]
  rcases h with ⟨h1, h2⟩ | ⟨hd, h1, h2⟩
  · exact .inl ⟨by omega, by omega⟩
  · exact .inr ⟨by rw [hd]; rfl, by omega, by omega⟩

/-- The die and the line that a poison key stands for. -/
theorem poisonKey_split (i : Nat) {loc : Nat} (h : loc < 2 ^ 30) : poisonKey i loc / 2 ^ 30 = i ∧ poisonKey i loc % 2 ^ 30 = loc := by
  unfold poisonKey
  omega

/-- After the zero fill a byte it covers reads zero, and its line is not poisoned (R299, R305). -/
theorem Dev.read_zeroWindow (d : Dev) (w : Win) {i x : Nat} (hx : x < 2 ^ 37) (hi : i ∈ w.dies) (hz : d.zeroes w i (x / 128) = true) :
    (d.zeroWindow w).hbm.read (i * 2 ^ 37 + x) = 0 ∧ (d.zeroWindow w).hbmBad i (x / 128) = false := by
  obtain ⟨m, p, e, hm, hp⟩ := d.zeroDies_spec w w.dies
  have ha : (i * 2 ^ 37 + x) / 2 ^ 37 = i ∧ (i * 2 ^ 37 + x) % 2 ^ 37 / 128 = x / 128 := by omega
  have hk := poisonKey_split i (loc := x / 128) (by rw [Nat.div_lt_iff_lt_mul (by decide)]; exact hx)
  rw [Dev.zeroWindow_eq, e]
  refine ⟨hm _ (.inr ?_), ?_⟩
  · rw [ha.1, ha.2]
    exact ⟨hi, hz⟩
  · have : p.find? (poisonKey i (x / 128)) = none := hp _ (.inr (by rw [hk.1, hk.2]; exact ⟨hi, hz⟩))
    simp [Dev.hbmBad, SMap.has, this]

/-! ### The end of busy (R299) -/

/-- The entry is no longer busy. -/
def Dev.winEnded (d : Dev) (e : Nat) : Dev := { d.clrRegBit .hbmWinState [e] 1 with winFlush := d.winFlush.erase e }

@[simp] theorem Dev.hbm_winEnded (d : Dev) (e : Nat) : (d.winEnded e).hbm = d.hbm := rfl
@[simp] theorem Dev.hbmLine_winEnded (d : Dev) (e die loc : Nat) : (d.winEnded e).hbmLine die loc = d.hbmLine die loc := rfl
@[simp] theorem Dev.hbmBad_winEnded (d : Dev) (e die loc : Nat) : (d.winEnded e).hbmBad die loc = d.hbmBad die loc := rfl

/-- Busy ends with the flush of the range, and the zero fill of a window that has been set. -/
theorem Dev.winEnd_eq {d d1 : Dev} {e a n : Nat} (hf : d.winFlush.find? e = some (a, n)) (hact : d.rangeActive a n = false)
    (hpow : ((d.win e).valid && (d.win e).dies.any d.powering) = false) (hfl : Dev.flushAll a n d.slices.keys d = some d1) :
    d.winEnd e = (if (d1.win e).valid then d1.zeroWindow (d1.win e) else d1).winEnded e := by
  unfold Dev.flushAll at hfl
  simp only [Dev.winEnd, hf, hact, hpow, Bool.or_false, Bool.false_eq_true, if_false, hfl]
  rfl

/-- What the end of an entry's busy time leaves (R299). -/
def WindowEnded (e a n : Nat) (d d' : Dev) : Prop :=
  (d'.win e).busy = false ∧ d'.winFlush.find? e = none ∧ (d'.win e).valid = (d.win e).valid ∧ (∀ q, ∀ c ∈ (d'.slice q).lines.cells, ¬ c.2.InRange a n) ∧
    RegsBut [RegName.hbmWinState.addr [e]] d d' ∧ KeepsQueues d d' ∧ d'.benches = d.benches

theorem Dev.winEnded_ended {d d2 : Dev} (e : Nat) {a n : Nat} (h : ∃ m p ss, d2 = { d with hbm := m, hbmPoison := p, slices := ss })
    (hl : ∀ q, ∀ c ∈ (d2.slice q).lines.cells, ¬ c.2.InRange a n) : WindowEnded e a n d (d2.winEnded e) := by
  obtain ⟨m, p, ss, rfl⟩ := h
  have regs : RegsBut [RegName.hbmWinState.addr [e]] d (d.clrRegBit .hbmWinState [e] 1) := RegsBut.setReg d _ _ _
  refine ⟨Dev.regBit_clrRegBit d _ _ (by decide), SMap.find?_erase_same .., ?_, hl, regs, ⟨rfl, rfl, rfl, rfl⟩, rfl⟩
  have hword : (d.clrRegBit .hbmWinState [e] 1).reg .hbmWinBase [e] = d.reg .hbmWinBase [e] :=
    Dev.reg_congr (regs _ (by simpa using addr_hbmWinBase_ne_hbmWinState e e))
  exact congrArg (BitVec.getLsbD · 31) hword

section
variable {d : Dev} {e a n : Nat} (hf : d.winFlush.find? e = some (a, n)) (hact : d.rangeActive a n = false)
include hf hact

/-- The busy time of a window that has been set, with no line of its range in a slice, ends with the zero fill. -/
theorem Dev.winEnd_set (hval : (d.win e).valid = true) (hpow : ∀ i ∈ (d.win e).dies, d.powering i = false)
    (hl : ∀ q, ∀ c ∈ (d.slice q).lines.cells, ¬ c.2.InRange a n) :
    d.winEnd e = (d.zeroWindow (d.win e)).winEnded e ∧ WindowEnded e a n d (d.winEnd e) := by
  have hpow' : ((d.win e).valid && (d.win e).dies.any d.powering) = false := by
    rw [hval, Bool.true_and, List.any_eq_false]
    exact fun i hi => by simp [hpow i hi]
  have eq := Dev.winEnd_eq hf hact hpow' (Dev.flushAll_none hl _)
  rw [if_pos hval] at eq
  obtain ⟨m, p, ez, -, -⟩ := d.zeroDies_spec (d.win e) (d.win e).dies
  refine ⟨eq, eq ▸ Dev.winEnded_ended e ⟨m, p, d.slices, by rw [Dev.zeroWindow_eq, ez]⟩ ?_⟩
  rw [Dev.zeroWindow_eq, ez]
  exact hl

/-- The busy time of a window that has been cleared, with one line of its range in the slices, ends with that line's flush. -/
theorem Dev.winEnd_cleared (hval : (d.win e).valid = false) {q k : Nat} {x : SLine} (hc : (d.slice q).lines.cells = [(k, x)]) (hx : x.InRange a n)
    (hdir : x.dir = .v) (ho : ∀ p, p ≠ q → ∀ c ∈ (d.slice p).lines.cells, ¬ c.2.InRange a n) :
    d.winEnd e = (d.flushed q k x).winEnded e ∧ WindowEnded e a n d (d.winEnd e) := by
  have hq : q ∈ d.slices.keys := by
    cases h : d.slices.find? q with
    | none => simp [Dev.slice, SMap.getD, h] at hc
    | some y => exact SMap.mem_keys_of_find? h
  have eq := Dev.winEnd_eq hf hact (by rw [hval, Bool.false_and]) (Dev.flushAll_one hc hx hdir ho hq)
  obtain ⟨m, p, ss, es⟩ := d.flushed_shape q k x
  have hval' : ((d.flushed q k x).win e).valid = false := by rw [es]; exact hval
  rw [if_neg (by simp [hval'])] at eq
  exact ⟨eq, eq ▸ Dev.winEnded_ended e ⟨m, p, ss, es⟩ (Dev.flushed_no_line hc ho)⟩

end

@[simp] theorem Dev.hbm_modSlice (d : Dev) (q : Nat) (f : Slice → Slice) : (d.modSlice q f).hbm = d.hbm := rfl
@[simp] theorem Dev.hbmPoison_modSlice (d : Dev) (q : Nat) (f : Slice → Slice) : (d.modSlice q f).hbmPoison = d.hbmPoison := rfl

/-- What the flush of a line puts in HBM: a dirty one on a channel that has not failed is stored, any other one is not (R299, R307). -/
theorem Dev.hbmLine_flushed {d : Dev} {q k : Nat} {x : SLine} (hd : x.dirty = true) (hv : x.valid = true)
    (hch : d.channelFailed (q / 16) x.loc = false) :
    (d.flushed q k x).hbmLine (q / 16) x.loc = x.data ∧ (d.flushed q k x).hbmBad (q / 16) x.loc = x.poison := by
  have h := Dev.hbmLine_hbmPut hch x.line x.data x.poison
  unfold Dev.flushed
  rw [if_pos (by rw [hd, hv]; rfl)]
  simpa only [Dev.hbmLine, Dev.hbmBad, Dev.hbm_modSlice, Dev.hbmPoison_modSlice] using h

theorem Dev.hbm_flushed {d : Dev} {q k : Nat} {x : SLine} (h : x.dirty = false ∨ d.channelFailed (q / 16) x.loc = true) :
    (d.flushed q k x).hbm = d.hbm := by
  unfold Dev.flushed
  rw [Dev.hbm_modSlice]
  rcases h with h | h
  · rw [h, Bool.false_and, if_neg Bool.false_ne_true]
  · rw [Dev.hbmPut_failed h, ite_self]

/-! ### The commands -/

theorem Win.owner_eq_some {w : Win} {k : Nat} : w.owner = some k ↔ 16 ≤ w.entry ∧ (w.entry - 16) / 16 = k := by
  unfold Win.owner
  split
  · simp; omega
  · simp; omega

section
variable {d : Dev} {e : Nat} (base sizem1 : Nat)

/-- A set of an entry that is busy or valid is refused with reason 8. -/
theorem Dev.winSet_taken (h : (d.win e).busy = true ∨ (d.win e).valid = true) :
    d.winSet e base sizem1 false = d.winRefuse e 8 ((d.win e).base * 2 ^ 30) := by
  unfold Dev.winSet
  exact if_pos (by simpa using h)

/-- A clear of a busy entry is refused with reason 8. -/
theorem Dev.winClear_busy (h : (d.win e).busy = true) : d.winClear e base sizem1 = d.winRefuse e 8 ((d.win e).base * 2 ^ 30) := by
  unfold Dev.winClear
  exact if_pos h

/-- A clear of an entry that is not valid stores its word. -/
theorem Dev.winClear_invalid (hb : (d.win e).busy = false) (hv : (d.win e).valid = false) :
    d.winClear e base sizem1 = d.setReg .hbmWinBase [e] (winBaseWord base sizem1 false) := by
  unfold Dev.winClear
  simp [hb, hv]

/-- A clear of a valid entry whose owner is busy is refused with reason 1. -/
theorem Dev.winClear_instBusy (hb : (d.win e).busy = false) (hv : (d.win e).valid = true) {k : Nat} (hk : (d.win e).owner = some k)
    (hi : d.instBusy k = true) : d.winClear e base sizem1 = d.winRefuse e 1 (base * 2 ^ 30) := by
  obtain ⟨h16, rfl⟩ := Win.owner_eq_some.1 hk
  rw [Dev.win_entry] at h16 hi
  unfold Dev.winClear
  simp [hb, hv, h16, hi]

/-- A clear of any other valid entry makes it busy with its range. -/
theorem Dev.winClear_valid (hb : (d.win e).busy = false) (hv : (d.win e).valid = true) (hi : ∀ k, (d.win e).owner = some k → d.instBusy k = false) :
    d.winClear e base sizem1 = (d.setReg .hbmWinBase [e] (winBaseWord base sizem1 false)).winBusy e (d.win e).base (d.win e).size := by
  have hfree : ¬(16 ≤ e ∧ d.instBusy ((e - 16) / 16) = true) := fun ⟨h16, h⟩ => by
    have := hi ((e - 16) / 16) (Win.owner_eq_some.2 ⟨h16, rfl⟩)
    rw [h] at this; cases this
  unfold Dev.winClear
  simp only [hb, hv, Bool.not_true, Bool.false_eq_true, if_false]
  exact if_neg (by simpa using hfree)

end

/-- The two commands are writes of the entry's word with VALID as it is to be. -/
theorem windowWrite_completes {s : State} (hlive : s.dev.live = true) {e : Fin 144} {base sizem1 : Fin 1024} {c : Instr} {v : Bool}
    (h : c = .windowValidSet e base sizem1 ∧ v = true ∨ c = .windowValidClear e base sizem1 ∧ v = false) :
    Completes c s (s.dev.winBaseWrite e (winBaseWord base sizem1 v)) := by
  rcases h with ⟨rfl, rfl⟩ | ⟨rfl, rfl⟩
  · exact completes_of_runLive (f := windowValidSetEffect e base sizem1) rfl hlive
  · exact completes_of_runLive (f := windowValidClearEffect e base sizem1) rfl hlive

theorem winBaseWord_eq (base sizem1 : Fin 1024) (v : Bool) :
    winBaseWord base sizem1 v = BitVec.ofNat 32 (base + sizem1 * 2 ^ 16 + b2n v * 2 ^ 31) := by
  rw [winBaseWord, Nat.mod_eq_of_lt base.isLt, Nat.mod_eq_of_lt sizem1.isLt]

section
variable {s : State} {e : Fin 144} {base sizem1 : Fin 1024} (hlive : s.dev.live = true)
include hlive

/-- A write of a locked manager entry: nothing where it writes what is there, else cause 0x8102 (R8, R467). -/
theorem windowWrite_locked {c : Instr} {v : Bool}
    (hc : c = .windowValidSet e base sizem1 ∧ v = true ∨ c = .windowValidClear e base sizem1 ∧ v = false)
    (hsh : e.val < 16 ∧ s.dev.locked = true) :
    Completes c s (if winBaseWord base sizem1 v = s.dev.reg .hbmWinBase [e] then s.dev else s.dev.lockedWrite (RegName.hbmWinBase.addr [e])) := by
  have h := windowWrite_completes hlive hc
  rwa [Dev.winBaseWrite_word base.isLt sizem1.isLt, if_pos hsh] at h

theorem windowValidSet_completes (hns : ¬(e.val < 16 ∧ s.dev.locked = true)) :
    Completes (.windowValidSet e base sizem1) s (s.dev.winSet e base sizem1 false) := by
  have h := windowWrite_completes (c := .windowValidSet e base sizem1) (v := true) hlive (.inl ⟨rfl, rfl⟩)
  rwa [Dev.winBaseWrite_word base.isLt sizem1.isLt, if_neg hns, if_pos rfl] at h

theorem windowValidClear_completes (hns : ¬(e.val < 16 ∧ s.dev.locked = true)) :
    Completes (.windowValidClear e base sizem1) s (s.dev.winClear e base sizem1) := by
  have h := windowWrite_completes (c := .windowValidClear e base sizem1) (v := false) hlive (.inr ⟨rfl, rfl⟩)
  rwa [Dev.winBaseWrite_word base.isLt sizem1.isLt, if_neg hns, if_neg Bool.false_ne_true] at h

end

/-- What the write of a locked entry reports (R467). -/
theorem Dev.lockedWrite_spec (d : Dev) (a : Nat) :
    RegsBut [RegName.secErrStatus.addr []] d (d.lockedWrite a) ∧ (d.lockedWrite a).regBit .secErrStatus [] 1 = true ∧
      (∃ r, (d.lockedWrite a).reports = d.reports ++ [r] ∧ r.code = 0x8102 ∧ r.master = 0xF840 ∧ r.access = 0x80) ∧
      KeepsCompute d (d.lockedWrite a) ∧ WindowFrame d (d.lockedWrite a) :=
  ⟨RegsBut.setReg d _ _ _, Dev.regBit_setRegBit d .secErrStatus [] (by decide), ⟨_, rfl, rfl, rfl, rfl⟩, (TableOnly.raise ..).keeps⟩

/-- Settles O49: the writes by `Dev.winBaseWrite_word` and the cases of `Dev.winSet` and `Dev.winClear`, the end of busy by `Dev.winEnd_set` and
`Dev.winEnd_cleared`. The statement counts the other windows in `Fin 144`, where its bound `v < 144` reads `v < 0`; the clause is proved of every
other entry, without the bound. -/
theorem windowTable : Obligations.WindowTable := by
  intro s e base sizem1 hlive w set clear word shut reports same refused
  have hword (v : Bool) : word v = winBaseWord base sizem1 v := (winBaseWord_eq base sizem1 v).symm
  refine ⟨fun c v hc hsh => ?_, fun hns => ?_, fun a n hf hact => ?_⟩
  · have h := windowWrite_locked hlive hc hsh
    rw [hword]
    refine ⟨fun heq => by rwa [if_pos heq] at h, fun hne => ⟨_, by rwa [if_neg hne] at h, Dev.lockedWrite_spec ..⟩⟩
  · have hset : Completes set s (s.dev.winSet e base sizem1 false) := windowValidSet_completes hlive hns
    have hclear : Completes clear s (s.dev.winClear e base sizem1) := windowValidClear_completes hlive hns
    refine ⟨fun h => ⟨_, hset, ?_⟩, fun h => ⟨_, hclear, ?_⟩, fun hb hv => ?_, fun hb hv => ⟨fun k hk hi => ⟨_, hclear, ?_⟩, fun hi => ⟨_, hclear, ?_⟩⟩⟩
    · rw [Dev.winSet_taken _ _ h]
      exact Dev.winRefuse_refused ..
    · rw [Dev.winClear_busy _ _ h]
      exact Dev.winRefuse_refused ..
    · refine ⟨fun why hwhy => ⟨_, hset, ?_⟩, fun hnone => ⟨⟨_, hset, ?_⟩, ?_⟩, _, hclear, ?_⟩
      · rw [Dev.winSet_refused hb hv hwhy]
        exact Dev.winRefuse_refused ..
      · rw [Dev.winSet_accepted hb hv hnone]
        have h := s.dev.winSet_set e base sizem1
        exact ⟨h.frame, (hword true).symm ▸ h.word, h.busy, Win.holds_busy h.busy, h.flush, h.began, h.others, h.regs⟩
      · obtain ⟨hplace, hmode, hmeet, hown⟩ := Dev.winReason_none hnone
        exact ⟨hplace, hmode, fun v _ hne hval => hmeet v v.isLt (fun h => hne (Fin.ext h)) hval, hown⟩
      · rw [Dev.winClear_invalid _ _ hb hv, hword]
        exact ⟨rfl, Dev.reg_setReg .., RegsBut.setReg s.dev _ _ _⟩
    · rw [Dev.winClear_instBusy _ _ hb hv hk hi]
      exact Dev.winRefuse_refused ..
    · rw [Dev.winClear_valid _ _ hb hv hi, hword]
      obtain ⟨hkeep, hframe⟩ := ((TableOnly.setReg s.dev .hbmWinBase [e] (winBaseWord base sizem1 false)).trans (.winBusy _ e w.base w.size)).keeps
      obtain ⟨hreg, hregs⟩ := s.dev.winBusy_set e (winBaseWord base sizem1 false) w.base w.size
      exact ⟨hkeep, hframe, hreg, Dev.regBit_winBusy .., Dev.winFlush_winBusy .., hregs⟩
  · intro hit ended
    refine ⟨fun hval hpow hl => ?_, fun hval q k x hcells ho hx hdir hv => ?_⟩
    · obtain ⟨eq, hend⟩ := Dev.winEnd_set hf hact hval hpow hl
      refine ⟨_, completes_of_runLive (f := windowBusyEndEffect e) rfl hlive, hend, fun i x _ hx hin hch => ?_⟩
      rw [windowBusyEndEffect, eq, Dev.hbm_winEnded, Dev.hbmBad_winEnded]
      exact s.dev.read_zeroWindow w hx hin.1 (Dev.zeroes_of_backing hin.2 hch)
    · obtain ⟨eq, hend⟩ := Dev.winEnd_cleared hf hact hval hcells hx hdir ho
      refine ⟨_, completes_of_runLive (f := windowBusyEndEffect e) rfl hlive, hend, fun hd hch => ?_, fun h => ?_⟩
      · rw [windowBusyEndEffect, eq, Dev.hbmLine_winEnded, Dev.hbmBad_winEnded]
        exact Dev.hbmLine_flushed hd hv hch
      · rw [windowBusyEndEffect, eq, Dev.hbm_winEnded]
        exact Dev.hbm_flushed h

end Sys2Proof.Machine

/-! A device that does not run (R439, R454, R458, R460): what an operation can do to the three things that `Dev.live` reads, the boot lock in
SEC_STATUS and the two stops. -/

namespace Sys2Proof.Machine

/-! ### The boot lock's register -/

/-- Of the registers, SEC_ORDER alone begins below SEC_STATUS and has indices. -/
theorem RegName.base_secStatus {r : RegName} (h : r ≠ .secStatus) (ho : r ≠ .secOrder) :
    RegName.secStatus.base < r.base ∨ r.dims = [] ∧ r.base < RegName.secStatus.base := by
  cases r with
  | secStatus | secOrder => contradiction
  | secStep | secSerialLo | secSerialHi => exact .inr ⟨rfl, by decide⟩
  | _ => exact .inl (by decide)

/-- A register other than SEC_STATUS lies elsewhere, whatever its indices. -/
theorem RegName.addr_ne_secStatus {r : RegName} (h : r ≠ .secStatus) (ho : r ≠ .secOrder) (ix : List Nat) :
    RegName.secStatus.addr [] ≠ r.addr ix := by
  have hs : RegName.secStatus.addr [] = RegName.secStatus.base := rfl
  rcases RegName.base_secStatus h ho with hb | ⟨hd, hb⟩
  · simp only [RegName.addr] at hs ⊢; omega
  · have : dimOffset r.dims ix = 0 := by rw [hd]; rfl
    simp only [RegName.addr] at hs ⊢; omega

/-! ### Registers and folds -/

theorem Dev.live_congr {d d' : Dev} (hr : d'.regs = d.regs) (hh : d'.halted = d.halted) (ht : d'.tripped = d.tripped) : d'.live = d.live := by
  simp only [Dev.live, hr, hh, ht]

theorem Dev.live_ite {p : Prop} [Decidable p] {x y : Dev} {b : Bool} (h : x.live = b) (k : y.live = b) : (if p then x else y).live = b := by
  split
  · exact h
  · exact k

theorem Dev.live_foldl {α : Type} {f : Dev → α → Dev} (h : ∀ d x, (f d x).live = d.live) (xs : List α) (d : Dev) : (xs.foldl f d).live = d.live := by
  induction xs generalizing d with
  | nil => rfl
  | cons x xs ih => rw [List.foldl_cons, ih, h]

section
variable (d : Dev) {r : RegName} (h : r ≠ .secStatus) (ho : r ≠ .secOrder)
include h ho

@[simp] theorem Dev.live_setReg (ix : List Nat) (v : W32) : (d.setReg r ix v).live = d.live := by
  simp only [Dev.live, Dev.setReg, SMap.getD_set_other _ (RegName.addr_ne_secStatus h ho ix)]

@[simp] theorem Dev.live_setRegFld (ix : List Nat) (hi lo v : Nat) : (d.setRegFld r ix hi lo v).live = d.live := d.live_setReg h ho ..
@[simp] theorem Dev.live_orReg (ix : List Nat) (w : W32) : (d.orReg r ix w).live = d.live := d.live_setReg h ho ..
@[simp] theorem Dev.live_setRegBit (ix : List Nat) (i : Nat) : (d.setRegBit r ix i).live = d.live := d.live_orReg h ho ..
@[simp] theorem Dev.live_clrRegBit (ix : List Nat) (i : Nat) : (d.clrRegBit r ix i).live = d.live := d.live_setRegFld h ho ..
@[simp] theorem Dev.live_count (ix : List Nat) (hi lo n : Nat) : (d.count r ix hi lo n).live = d.live := d.live_setRegFld h ho ..
@[simp] theorem Dev.live_raise (ix : List Nat) (bit : Nat) (x : Report) : (d.raise r ix bit x).live = d.live := d.live_setRegBit h ho ..

end

/-- The boot lock is LOCKED of SEC_STATUS (R460). -/
theorem Dev.live_eq (d : Dev) : d.live = (d.regBit .secStatus [] 31 && !d.halted && !d.tripped) := by
  have : (d.regs.getD (RegName.secStatus.addr []) 0).getLsbD 31 = d.regBit .secStatus [] 31 := by
    unfold Dev.regBit Dev.reg SMap.getD
    cases d.regs.find? (RegName.secStatus.addr []) with
    | none => decide
    | some w => rfl
  rw [Dev.live, this]

/-- A bit of SEC_STATUS other than LOCKED is not the boot lock. -/
theorem Dev.live_setRegBit_secStatus (d : Dev) {i : Nat} (hi : i < 31) : (d.setRegBit .secStatus [] i).live = d.live := by
  have h : (d.setRegBit .secStatus [] i).regBit .secStatus [] 31 = d.regBit .secStatus [] 31 := by
    simp only [Dev.regBit, Dev.setRegBit, Dev.orReg, Dev.reg, Dev.setReg, SMap.getD_set_same, BitVec.getLsbD_or, BitVec.getLsbD_ofNat]
    have : (2 ^ i).testBit 31 = false := Nat.testBit_two_pow_of_ne (by omega)
    simp [this]
  rw [Dev.live_eq, Dev.live_eq, h]
  rfl

/-! ### Causes, events and messages -/

section
variable (d : Dev)

@[simp] theorem Dev.live_report (r : Report) : (d.report r).live = d.live := rfl
@[simp] theorem Dev.live_emit (m : OutMsg) : (d.emit m).live = d.live := rfl
@[simp] theorem Dev.live_tickFree : d.tickFree.live = d.live := rfl
@[simp] theorem Dev.live_modPwr (f : PwrSt → PwrSt) : (d.modPwr f).live = d.live := rfl
@[simp] theorem Dev.live_modBoard (f : Board → Board) : (d.modBoard f).live = d.live := rfl
@[simp] theorem Dev.live_modDie (i : Nat) (f : Die → Die) : (d.modDie i f).live = d.live := rfl
@[simp] theorem Dev.live_modBench (b : Nat) (f : Bench → Bench) : (d.modBench b f).live = d.live := rfl
@[simp] theorem Dev.live_setBench (b : Nat) (x : Bench) : (d.setBench b x).live = d.live := rfl
@[simp] theorem Dev.live_modPort (p : Nat) (f : FabPort → FabPort) : (d.modPort p f).live = d.live := rfl
@[simp] theorem Dev.live_modTrain (die site : Nat) : (d.modTrain die site).live = d.live := rfl
@[simp] theorem Dev.live_modLaunch (q : Nat) (f : Launch → Launch) : (d.modLaunch q f).live = d.live := rfl

@[simp] theorem Dev.live_msixEvent (f v : Nat) : (d.msixEvent f v).live = d.live := by
  obtain ⟨h, m, o, e⟩ := d.msixEvent_shape f v
  rw [e]; rfl

@[simp] theorem Dev.live_pwrEvent (bit : Nat) : (d.pwrEvent bit).live = d.live := by
  have again (f : PwrSt → PwrSt) (d : Dev) : ({ d with pwr := f d.pwr } : Dev).live = d.live := rfl
  unfold Dev.pwrEvent
  split
  · split
    · rfl
    · exact (again (fun p => { p with again := p.again ++ [bit] }) _).trans (by simp)
  · simp

@[simp] theorem Dev.live_pwrCause (code bit addr : Nat) : (d.pwrCause code bit addr).live = d.live := d.live_raise (by decide) (by decide) ..
@[simp] theorem Dev.live_secCause (code bit addr : Nat) : (d.secCause code bit addr).live = d.live := d.live_raise (by decide) (by decide) ..

end

/-! ### The collectors and the recovery counters (R398, R401, R405) -/

section
variable (d : Dev)

theorem FcBlock.recReg_ne (b : FcBlock) (w : Nat) : b.recReg w ≠ .secStatus ∧ b.recReg w ≠ .secOrder := by
  rcases b with _ | _ | _ <;> rcases w with _ | _ | _ | _ | _ | _ | _ | _ | w <;> exact ⟨nofun, nofun⟩

@[simp] theorem Dev.live_setFcWord (b : FcBlock) (c w v : Nat) : (d.setFcWord b c w v).live = d.live :=
  d.live_setReg (b.recReg_ne w).1 (b.recReg_ne w).2 ..

@[simp] theorem Dev.live_fcCapture (b : FcBlock) (r : Report) (esc : Bool) : (d.fcCapture b r esc).live = d.live := by
  unfold Dev.fcCapture
  simp [(b.recReg_ne 1).1, (b.recReg_ne 1).2]

theorem Dev.live_fcTake (b : FcBlock) (c : Nat) (rs : List Report) : (d.fcTake b c rs).1.live = d.live := by
  unfold Dev.fcTake
  split
  · rfl
  · dsimp only
    split <;> simp

@[simp] theorem Dev.live_logAppend (rec : List W32) : (d.logAppend rec).live = d.live := by
  unfold Dev.logAppend
  exact Dev.live_ite (d.live_count (by decide) (by decide) ..) (Dev.live_congr rfl rfl rfl)

@[simp] theorem Dev.live_fcTell (c : Nat) (r : Report) : (d.fcTell c r).live = d.live := by
  unfold Dev.fcTell
  extract_lets sev d1 d2
  have h1 : d1.live = d.live := Dev.live_ite (d.live_msixEvent 0 0) rfl
  have h2 : d2.live = d1.live := rfl
  exact Dev.live_ite (Dev.live_ite (h2.trans h1) ((d2.live_logAppend _).trans (h2.trans h1))) h1

@[simp] theorem Dev.live_fcCaught (b : FcBlock) (c : Nat) (r : Report) : (d.fcCaught b c r).live = d.live := by
  unfold Dev.fcCaught
  split
  · simp
  · rfl
  · split <;> simp

@[simp] theorem Dev.live_fcPut (b : FcBlock) (c : Nat) (rs : List Report) : (d.fcPut b c rs).live = d.live := by
  have take := d.live_fcTake b c rs
  unfold Dev.fcPut
  split <;> next e => rw [e] at take; simpa using take

@[simp] theorem Dev.live_collect (rs : List Report) : (d.collect rs).live = d.live :=
  Dev.live_foldl (fun d _ => Dev.live_foldl (fun d _ => d.live_fcPut ..) _ d) _ _

@[simp] theorem Dev.live_fcOwn (m c : Nat) (inst : Option Nat) : (d.fcOwn m c inst).live = d.live := by
  unfold Dev.fcOwn
  split <;> simp

@[simp] theorem Dev.live_rcvReturn (i : Nat) : (d.rcvReturn i).live = d.live := d.live_count (by decide) (by decide) ..
@[simp] theorem Dev.live_quietStart (i : Nat) : (d.quietStart i).live = d.live := rfl

theorem latchBit_ne (i : Nat) : (latchBit i).1 ≠ .secStatus ∧ (latchBit i).1 ≠ .secOrder := by
  unfold latchBit
  split <;> (try split) <;> (try split) <;> exact ⟨nofun, nofun⟩

theorem Dev.live_quietEnd (i m : Nat) (inst : Option Nat) : (d.quietEnd i m inst).1.live = d.live := by
  unfold Dev.quietEnd
  dsimp only
  split
  · simp [(latchBit_ne i).1, (latchBit_ne i).2]
    rfl
  · rfl

/-- What goes on at the end of a quiet period runs the device no more than before where it does not by itself. -/
theorem Dev.live_of_quietEnd {i m : Nat} {inst : Option Nat} {d1 : Dev} {b : Bool} (e : d.quietEnd i m inst = (d1, b)) : d1.live = d.live := by
  have h := d.live_quietEnd i m inst
  rwa [e] at h

end

/-! ### The limiter and operating points (R435, R441, R446) -/

section
variable (d : Dev)

@[simp] theorem Dev.live_limEngage (die : Nat) : (d.limEngage die).live = d.live :=
  Dev.live_ite (d.live_setRegFld (r := .pwrDieLim) (by decide) (by decide) [die] 1 0 (d.limWant die)) rfl

@[simp] theorem Dev.live_capNote (die : Nat) : (d.capNote die).live = d.live := Dev.live_ite rfl rfl

@[simp] theorem Dev.live_limApply : d.limApply.live = d.live := Dev.live_foldl (fun d die => by simp) _ d

theorem Dev.live_opUpdateDie (die : Nat) : (d.opUpdateDie die).live = d.live := by
  unfold Dev.opUpdateDie
  refine Dev.live_ite rfl ?_
  extract_lets d1 g low d2 _ d3 _ _ d4
  have h2 : d2.live = d.live :=
    (Dev.live_ite (d1.live_pwrEvent 6) rfl).trans (d.live_setRegFld (r := .pwrDieOp) (by decide) (by decide) ..)
  have h3 : d3.live = d2.live := rfl
  have h4 : d4.live = d3.live := d3.live_setRegBit (r := .pwrDieOp) (by decide) (by decide) [die] 11
  exact (Dev.live_ite rfl h4).trans (h3.trans h2)

@[simp] theorem Dev.live_noteBays : d.noteBays.live = d.live := Dev.live_ite rfl rfl

@[simp] theorem Dev.live_opUpdate : d.opUpdate.live = d.live := (Dev.live_foldl Dev.live_opUpdateDie _ _).trans d.live_noteBays

theorem Dev.live_dipHold : d.dipHold.live = d.live := by
  unfold Dev.dipHold
  refine Dev.live_ite rfl (Dev.live_foldl (fun d die => ?_) _ d)
  extract_lets hs
  exact Dev.live_ite rfl rfl

end

/-! ### Sensing points and the causes of the module (R32, R404, R450 to R454) -/

section
variable (d : Dev)

@[simp] theorem Dev.live_modCause7 (code access : Nat) : (d.modCause7 code access).live = d.live := by
  unfold Dev.modCause7
  rw [Dev.live_pwrEvent]
  rfl

@[simp] theorem Dev.live_modCauseOnce (code : Nat) : (d.modCauseOnce code).live = d.live := Dev.live_ite rfl (d.live_modCause7 code 0)
@[simp] theorem Dev.live_modCauseEnd (code : Nat) : (d.modCauseEnd code).live = d.live := rfl
@[simp] theorem Dev.live_reading (n : Nat) (t : BitVec 16) : (d.reading n t).live = d.live := d.live_setReg (by decide) (by decide) ..

@[simp] theorem Dev.live_sensFail (n : Nat) : (d.sensFail n).live = d.live := by
  unfold Dev.sensFail
  refine Dev.live_ite rfl ?_
  extract_lets d1
  have h1 : d1.live = d.live := d.live_setRegBit (r := .pwrSens) (by decide) (by decide) [n] 30
  rw [Dev.live_limApply, Dev.live_pwrEvent, Dev.live_pwrCause]
  exact h1

@[simp] theorem Dev.live_sensMend (n : Nat) : (d.sensMend n).live = d.live := by
  unfold Dev.sensMend
  refine Dev.live_ite ?_ rfl
  simp

@[simp] theorem Dev.live_throttle (n : Nat) : (d.throttle n).live = d.live := by
  unfold Dev.throttle
  refine Dev.live_ite rfl ?_
  simp

/-- The one stop among what a reading can do is a trip (R454). -/
theorem Dev.live_sensed {d : Dev} (hd : d.live = false) (n : Nat) (t : BitVec 16) : (d.sensed n t).live = false := by
  unfold Dev.sensed
  refine Dev.live_ite (by simpa using hd) ?_
  extract_lets d1 d2
  have h1 : d1.live = false := by simpa [d1] using hd
  have h2 : d2.live = false := h1
  refine Dev.live_ite h1 (Dev.live_ite ?_ (Dev.live_ite ((d2.live_throttle n).trans h2) (Dev.live_ite h2 (Dev.live_ite h1 h1))))
  simp [Dev.live]

theorem Dev.live_modSensed {d : Dev} (hd : d.live = false) (n code : Nat) (t : BitVec 16) (hot : Bool) : (d.modSensed n code t hot).live = false := by
  unfold Dev.modSensed
  exact Dev.live_ite ((Dev.live_modCauseOnce ..).trans (Dev.live_sensed hd n t)) (Dev.live_sensed hd n t)

@[simp] theorem Dev.live_sensReturn (n : Nat) : (d.sensReturn n).live = d.live := by
  unfold Dev.sensReturn
  rw [Dev.live_rcvReturn]
  refine Dev.live_ite rfl (Dev.live_ite rfl ?_)
  simp

theorem Dev.live_sensQuietEnd (n : Nat) : (d.sensQuietEnd n).live = d.live := by
  unfold Dev.sensQuietEnd
  split <;> next e => simpa using d.live_of_quietEnd e

theorem Dev.live_portQuietEnd (p : Nat) : (d.portQuietEnd p).live = d.live := by
  unfold Dev.portQuietEnd
  refine Dev.live_ite rfl ?_
  split <;> next e => simpa using d.live_of_quietEnd e

theorem Dev.live_modQuietEnd (die site : Nat) : (d.modQuietEnd die site).live = d.live := by
  unfold Dev.modQuietEnd
  refine Dev.live_ite rfl ?_
  split <;> next e => simpa using d.live_of_quietEnd e

end

/-! ### Power (R24, R439, R447) -/

section
variable (d : Dev)

/-- Without power the boot lock is gone. -/
@[simp] theorem Dev.live_powerLost : d.powerLost.live = false := by
  simp [Dev.live, Dev.powerLost, SMap.getD, SMap.find?, SMap.lookupL]

theorem Dev.live_switchOpen {d : Dev} (hd : d.live = false) : d.switchOpen.live = false := Dev.live_ite d.live_powerLost hd
@[simp] theorem Dev.live_startCheck : d.startCheck.live = d.live := Dev.live_ite rfl rfl

/-! ### J5 and J6 (R27, R28, R463) -/

@[simp] theorem Dev.live_reply (k : Nat) (bs : List Byte) : (d.reply k bs).live = d.live := rfl
@[simp] theorem Dev.live_tap (t i : Nat) : (d.tap t i).live = d.live := rfl

theorem Dev.live_spdm {f : Dev → Dev} (hf : (f d).live = d.live) (doe busy : Bool) : (d.spdm doe busy f).live = d.live := by
  unfold Dev.spdm
  exact Dev.live_ite rfl (Dev.live_ite rfl hf)

end

/-! ### Benches that start while time passes (R57, R59, R117, R216) -/

section
variable (d : Dev)

theorem forall_mem_ite {α : Type} {P : α → Prop} {p : Prop} [Decidable p] {o q : Option α} (h : ∀ x ∈ o, P x) (k : ∀ x ∈ q, P x) :
    ∀ x ∈ if p then o else q, P x := by
  split
  · exact h
  · exact k

theorem benchErrBit_ne (b code : Nat) (t : Bool) : ∀ x ∈ benchErrBit b code t, x.1 ≠ .secStatus ∧ x.1 ≠ .secOrder := by
  unfold benchErrBit
  repeat' refine forall_mem_ite ?_ ?_
  all_goals cases t <;> simp

@[simp] theorem Dev.live_benchCause (b n code access addr : Nat) (t : Bool) : (d.benchCause b n code access addr t).live = d.live := by
  unfold Dev.benchCause
  extract_lets d' c clear
  rw [Dev.live_report]
  unfold d'
  split
  · next e =>
    obtain ⟨hs, ho⟩ := benchErrBit_ne _ _ _ _ e
    exact d.live_setRegBit hs ho ..
  · rfl

@[simp] theorem Dev.live_killQuiet (b n code : Nat) : (d.killQuiet b n code).live = d.live := by
  unfold Dev.killQuiet
  exact Dev.live_ite (Dev.live_setReg _ (by decide) (by decide) ..) rfl

@[simp] theorem Dev.live_kill (b n code access addr : Nat) (t : Bool) : (d.kill b n code access addr t).live = d.live := by
  simp [Dev.kill]

@[simp] theorem Dev.live_killRun (b code access addr : Nat) : (d.killRun b code access addr).live = d.live := d.live_kill ..

theorem Dev.live_sealParity {b : Nat} {pe : Option Nat} {d1 : Dev} (h : d.sealParity b pe = some d1) : d1.live = d.live := by
  unfold Dev.sealParity at h
  split at h
  · cases h
  · extract_lets s at h
    split at h
    · cases h; simp [Dev.gluePe]
    · cases h

theorem Dev.live_saveParity {b : Nat} {pe vp : Option Nat} {d1 : Dev} (h : d.saveParity b pe vp = some d1) : d1.live = d.live := by
  unfold Dev.saveParity at h
  split at h
  · next e => cases h; exact d.live_sealParity e
  · cases h; simp
  · cases h

theorem Dev.live_switchOut (b n : Nat) (pe vp : Option Nat) (vl : Nat) : (d.switchOut b n pe vp vl).live = d.live := by
  unfold Dev.switchOut
  extract_lets bn out live
  refine Dev.live_ite ?_ (Dev.live_ite rfl rfl)
  split
  · next e => simpa using d.live_saveParity e
  · rfl

theorem Dev.live_tileEcc (b off access : Nat) (e : Ecc) : (d.tileEcc b off access e).2.live = d.live := by
  unfold Dev.tileEcc
  split
  split
  · rfl
  · simp
  · split <;> simp

theorem Dev.live_restoreEcc (b n : Nat) (e : EccAt) : (d.restoreEcc b n e).2.live = d.live := by
  unfold Dev.restoreEcc
  extract_lets a
  split
  · exact d.live_tileEcc ..
  · rfl

theorem Dev.live_restoreContext (b n : Nat) : (d.restoreContext b n).live = d.live := Dev.live_setReg _ (by decide) (by decide) ..

theorem Dev.live_loadContext (b n : Nat) (e : EccAt) : (d.loadContext b n e).2.live = d.live := by
  have h := d.live_restoreEcc b n e
  unfold Dev.loadContext
  split
  next go d0 e0 =>
  rw [e0] at h
  split
  · exact h
  · extract_lets d1
    have h1 : d1.live = d0.live := Dev.live_ite (d0.live_restoreContext b n) rfl
    exact h1.trans h

theorem Dev.live_startBench (k : Nat) (x : Nat × Nat) (f : SwitchFind) : (d.startBench k x f).live = d.live := by
  unfold Dev.startBench
  obtain ⟨b, n⟩ := x
  dsimp -zeta only
  extract_lets bn d1
  have h1 : d1.live = d.live := Dev.live_ite (d.live_switchOut ..) rfl
  have h2 : (if bn.runCtx != n || bn.switchTo.isSome then d1.loadContext b n f.ls else (true, d1)).2.live = d.live := by
    split
    · exact (d1.live_loadContext ..).trans h1
    · exact h1
  exact Dev.live_ite rfl (Dev.live_ite h2 h2)

@[simp] theorem Dev.live_countTo (i c : Nat) : (d.countTo i c).live = d.live := by
  obtain ⟨ds, sp, e⟩ := d.countTo_shape i c
  rw [e]
  rfl

theorem Dev.live_startNow (m : StartMsg) (fs : List (BenchIx × SwitchFind)) : (d.startNow m fs).live = d.live := by
  unfold Dev.startNow
  extract_lets step d1
  have h1 : d1.live = d.live := Dev.live_countTo ..
  rw [Dev.live_modLaunch, Dev.live_foldl (fun d x => d.live_startBench ..), h1]

theorem Dev.live_runTo (die c : Nat) : (d.runTo die c).live = d.live := by
  unfold Dev.runTo
  extract_lets due d1
  have h1 : d1.live = d.live := Dev.live_foldl (fun d m => Dev.live_ite (d.live_startNow m []) rfl) _ d
  exact (Dev.live_ite rfl (d1.live_countTo ..)).trans h1

@[simp] theorem Dev.live_pass (n : Nat) : (d.pass n).live = d.live := by
  unfold Dev.pass
  refine Dev.live_ite rfl ?_
  extract_lets d1 _ d2
  have h1 : d1.live = d.live := by
    refine (Dev.live_foldl (fun x i => Dev.live_ite (x.live_runTo ..) rfl) _ _).trans ?_
    obtain ⟨t, f, k, e, -⟩ := d.passTime_shape n
    rw [e]
    rfl
  have spend (d : Dev) (q : Nat) : (Dev.spend n d q).live = d.live := by
    obtain ⟨qs, e, -⟩ := Dev.spend_shape n d q
    rw [e]
    rfl
  exact (Dev.live_ite (Dev.live_foldl spend _ d2) rfl).trans h1

@[simp] theorem Dev.live_passDue (t : Option Nat) : (d.passDue t).live = d.live := by
  cases t
  · rfl
  · exact d.live_pass _

@[simp] theorem Dev.live_passCount (i : Nat) (c : Option Nat) : (d.passCount i c).live = d.live := by
  cases c
  · rfl
  · exact d.live_pass _

/-- A tick of a device that does not run: nothing of the host's is taken up again. -/
theorem Dev.live_tick {d : Dev} (hd : d.live = false) : d.tick.live = false := by
  have h1 : (d.pass 1).live = false := by rw [Dev.live_pass, hd]
  simp [Dev.tick, h1]

end

/-! ### The commands (R458) -/

/-- The command leaves a device that does not run not running, and the queue as it was. -/
def StaysDown (c : Instr) (s : State) : Prop := s.dev.live = false → ∃ d', Completes c s d' ∧ d'.live = false

section
variable {c : Instr} {s : State} {f : Dev → Dev}

theorem StaysDown.of_run (hc : exec c s = s.run f) (hf : s.dev.live = false → (f s.dev).live = false) : StaysDown c s :=
  fun hd => ⟨_, hc, hf hd⟩

/-- A command of the running device. -/
theorem StaysDown.of_runLive {d1 : Dev} (hc : exec c s = .next { s with dev := if s.dev.live then d1 else s.dev }) : StaysDown c s :=
  fun hd => ⟨s.dev, by rw [Completes, hc, if_neg (by simp [hd])], hd⟩

theorem StaysDown.of_runOn (hc : exec c s = s.runOn f) (hf : s.dev.live = false → (f s.dev).live = false) : StaysDown c s :=
  .of_run hc fun hd => Dev.live_ite (hf hd) hd

/-- An effect on a part that is powered without the device's running, which does not bear on whether it runs. -/
theorem StaysDown.of_runOn_eq (hc : exec c s = s.runOn f) (hf : (f s.dev).live = s.dev.live) : StaysDown c s := .of_runOn hc hf.trans

theorem StaysDown.of_runAsk {k : Nat} (hc : exec c s = s.runAsk k f) : StaysDown c s :=
  .of_run hc fun hd => by
    rw [if_neg (by simp [hd])]
    exact Dev.live_ite hd hd

/-- The same once time has passed to the end of one. -/
theorem StaysDown.of_runOn_passed {g : Dev → Dev} {due : Dev → Option Nat} (hc : exec c s = s.runOn fun d => g (d.passDue (due d)))
    (hg : ∀ d, (g d).live = d.live) : StaysDown c s := .of_runOn_eq hc ((hg _).trans (s.dev.live_passDue _))

end

section
variable (d : Dev)

theorem live_inputBelowWarning : (inputBelowWarningEffect d).live = d.live := by
  unfold inputBelowWarningEffect
  refine Dev.live_ite rfl ?_
  simp [Dev.live_dipHold]

theorem live_supplyTriggerEnd (d : Dev) : (supplyTriggerEndEffect d).live = d.live := Dev.live_ite rfl (Dev.live_limApply _)
theorem live_currentTriggerEnd (d : Dev) : (currentTriggerEndEffect d).live = d.live := Dev.live_ite rfl (Dev.live_limApply _)

theorem live_inputCurrentLimit (i : Nat) : (inputCurrentLimitEffect i d).live = d.live := by
  unfold inputCurrentLimitEffect
  refine Dev.live_ite rfl ?_
  rw [Dev.live_limApply]
  exact Dev.live_ite rfl (by simp)

theorem live_energyBucketUpdate (v i : Nat) : (energyBucketUpdateEffect v i d).live = d.live := by
  unfold energyBucketUpdateEffect
  extract_lets b d1
  have h1 : d1.live = d.live := d.live_setReg (r := .pwrInput) (by decide) (by decide) ..
  refine Dev.live_ite ?_ (Dev.live_ite ?_ h1) <;> simpa using h1

theorem live_limiterStepDown (src : LimSrc) (d : Dev) : (limiterStepDownEffect src d).live = d.live := by
  unfold limiterStepDownEffect
  refine Dev.live_ite rfl ?_
  split <;> simp

theorem live_limiterReleaseStep (die : Nat) (d : Dev) : (limiterReleaseStepEffect die d).live = d.live := by
  unfold limiterReleaseStepEffect
  refine Dev.live_ite rfl ?_
  simp

theorem live_thermalCapStep (die : Nat) (d : Dev) : (thermalCapStepEffect die d).live = d.live := by
  unfold thermalCapStepEffect
  refine Dev.live_ite rfl ?_
  extract_lets d1 now c
  have h1 : d1.live = d.live := rfl
  refine Dev.live_ite (Dev.live_ite h1 ?_) ?_ <;> simpa using h1

theorem live_recoveryQuietExpiry (i : Nat) (d : Dev) : (recoveryQuietExpiryEffect i d).live = d.live := by
  unfold recoveryQuietExpiryEffect
  exact Dev.live_ite rfl (Dev.live_ite (d.live_portQuietEnd _) (Dev.live_ite (d.live_modQuietEnd ..) (Dev.live_ite (d.live_sensQuietEnd _) rfl)))

theorem live_lineFaulted (m : Nat) : (d.lineFaulted m).live = d.live := Dev.live_ite rfl (d.live_fcOwn m 0xE01 none)

theorem live_linePairInvalid (src : LineSrc) : (linePairInvalidEffect src d).live = d.live := by
  cases src with
  | source m => exact live_lineFaulted d m
  | path i => exact d.live_setRegBit (by decide) (by decide) ..

theorem live_reportLostTimeout (d : Dev) : (reportLostTimeoutEffect d).live = d.live := by
  unfold reportLostTimeoutEffect
  refine Dev.live_ite rfl ?_
  split
  · rfl
  · rw [Dev.live_fcOwn]
    rfl

theorem live_idcode (t : Nat) : (idcodeEffect t d).live = d.live := Dev.live_ite rfl rfl

theorem live_pldmPlatformRequest (x : PldmAsk) : (pldmPlatformRequestEffect x d).live = d.live := by
  unfold pldmPlatformRequestEffect
  refine Dev.live_ite rfl ?_
  cases x with
  | sensor n => rfl
  | event => dsimp only; split <;> rfl

theorem live_getMeasurements (doe busy : Bool) (i : Nat) (signed : Bool) : (getMeasurementsEffect doe busy i signed d).live = d.live := by
  unfold getMeasurementsEffect
  refine d.live_spdm ?_ doe busy
  extract_lets body
  exact Dev.live_ite rfl (Dev.live_ite rfl (Dev.live_ite rfl rfl))

theorem live_debugToken (good : Bool) : (debugTokenEffect good d).live = d.live := by
  unfold debugTokenEffect
  refine Dev.live_ite rfl ?_
  extract_lets d1
  have h1 : d1.live = d.live := rfl
  exact Dev.live_ite ((d1.live_setRegBit_secStatus (by decide)).trans h1) ((d1.live_secCause ..).trans h1)

theorem live_firmwareUpdateComponent (c : Component) : (firmwareUpdateComponentEffect c d).live = d.live := by
  unfold firmwareUpdateComponentEffect
  extract_lets b _ d1 u e1 _ e2
  have h1 : (d1.secCause 0x8101 0 (slotBase b + c.off)).live = d.live := d1.live_secCause ..
  have h2 : e2.live = d.live := Dev.live_ite rfl rfl
  exact Dev.live_ite rfl (Dev.live_ite rfl (Dev.live_ite rfl (Dev.live_ite rfl (Dev.live_ite h1 h2))))

theorem live_activateFirmware : (activateFirmwareEffect d).live = d.live := by
  unfold activateFirmwareEffect
  split
  · rfl
  · exact Dev.live_ite rfl rfl

end

/-- Every command but those of R458 leaves a device that does not run as it is or not running. Most are commands of the running device, and do
nothing. -/
theorem exec_staysDown {c : Instr} (hc : c.boots = false) (s : State) : StaysDown c s := by
  cases c with
  | inputSwitchCloseDelay | perstNAssert | perstNDeassert | secReset | securityWatchdog | hostLinkDown | hotReset => cases hc
  | inputRiseAboveTurnOn => exact .of_run rfl fun hd => by simpa [inputRiseAboveTurnOnEffect] using hd
  | busPrsntMate => exact .of_run rfl fun hd => by simpa [busPrsntMateEffect] using hd
  | inputOverVoltageDisconnect => exact .of_run rfl fun hd => Dev.live_ite (Dev.live_switchOpen hd) hd
  | busPrsntBreak => exact .of_run rfl Dev.live_switchOpen
  | pwrDisAssert => exact .of_run rfl Dev.live_switchOpen
  | pwrDisRelease => exact .of_run rfl fun hd => Dev.live_ite (by simpa using hd) hd
  | brownOut => exact .of_run rfl Dev.live_switchOpen
  | cableMate j => exact .of_run rfl fun hd => by simp [cableMateEffect, hd, Dev.setCable]
  | cableRemove j => exact .of_run rfl id
  | inputOverVoltageWarning => exact .of_runOn_eq rfl (Dev.live_ite rfl (Dev.live_modCause7 ..))
  | overVoltageWarningEnd => exact .of_runOn_eq rfl rfl
  | mgmtRst => exact .of_runOn_eq rfl rfl
  | cableSupplyOverload j => exact .of_runOn_eq rfl (Dev.live_ite (Dev.live_modCause7 ..) rfl)
  | coolantLeak => exact .of_runOn_eq rfl (Dev.live_modCauseOnce ..)
  | coolantInletHot t => exact .of_runOn rfl fun hd => Dev.live_modSensed hd ..
  | coolantRiseHigh t => exact .of_runOn rfl fun hd => Dev.live_modSensed hd ..
  | moduleBoardHot k t => exact .of_runOn rfl fun hd => Dev.live_modSensed hd ..
  | inputBelowWarning => exact .of_runOn_eq rfl (live_inputBelowWarning _)
  | inputBackAboveWarning => exact .of_runOn_eq rfl (Dev.live_ite rfl rfl)
  | supplyTriggerEnd => exact .of_runOn_passed (due := Dev.supplyDue) rfl live_supplyTriggerEnd
  | inputCurrentWarning i => exact .of_runOn_eq rfl (Dev.live_ite rfl (Dev.live_limApply _))
  | inputCurrentLimit i => exact .of_runOn_eq rfl (live_inputCurrentLimit ..)
  | currentBackBelowIwarn i => exact .of_runOn_eq rfl (Dev.live_ite rfl rfl)
  | currentTriggerEnd => exact .of_runOn_passed (due := Dev.currentDue) rfl live_currentTriggerEnd
  | energyBucketUpdate v i => exact .of_runOn_eq rfl (live_energyBucketUpdate ..)
  | limiterStepDown src => exact .of_runOn_passed (due := (·.stepDue src)) rfl (live_limiterStepDown src)
  | limiterReleaseStep die =>
    exact .of_runOn_eq (f := fun d => limiterReleaseStepEffect die (d.passCount die (d.releaseDue die))) rfl
      ((live_limiterReleaseStep die _).trans (s.dev.live_passCount ..))
  | thermalThrottle n t => exact .of_runOn rfl fun hd => Dev.live_sensed hd ..
  | thermalTrip n t => exact .of_runOn rfl fun hd => Dev.live_sensed hd ..
  | sensorBelowReleaseThreshold n t => exact .of_runOn rfl fun hd => Dev.live_sensed hd ..
  | sensorFailed n => exact .of_runOn_eq rfl (Dev.live_sensFail ..)
  | thermalCapStep die => exact .of_runOn_passed (due := (·.capDue die)) rfl (live_thermalCapStep die)
  | recoveryQuietExpiry i => exact .of_runOn_passed (due := (·.quiet.find? i)) rfl (live_recoveryQuietExpiry i)
  | faultReport n => exact .of_runOn_eq rfl (Dev.live_collect ..)
  | linePairInvalid src => exact .of_runOn_eq rfl (live_linePairInvalid ..)
  | lineAssertTimeout m => exact .of_runOn_eq rfl (live_lineFaulted ..)
  | linePairValidAgain m => exact .of_runOn_eq rfl rfl
  | reportLostTimeout => exact .of_runOn_passed (due := Dev.reportDue) rfl live_reportLostTimeout
  | hostLinkUp width speed flit => exact .of_runOn_eq rfl (Dev.live_ite rfl (Dev.live_setReg _ (by decide) (by decide) ..))
  | hostBar2Read | hostAtomicop | hostBar0Read => exact .of_runAsk rfl
  | bypass t => exact .of_runOn_eq rfl rfl
  | idcode t => exact .of_runOn_eq rfl (live_idcode ..)
  | samplePreload t => exact .of_runOn_eq rfl rfl
  | extest t => exact .of_runOn_eq rfl rfl
  | debugInstruction t => exact .of_runOn_eq rfl rfl
  | entdaa a => exact .of_runOn_eq rfl rfl
  | pldmPlatformRequest x => exact .of_runOn_eq rfl (live_pldmPlatformRequest ..)
  | pldmFruRequest => exact .of_runOn_eq rfl rfl
  | getVersion doe busy =>
    refine .of_runOn_eq rfl (Dev.live_spdm _ ?_ ..)
    rfl
  | getCapabilities doe busy =>
    refine .of_runOn_eq rfl (Dev.live_spdm _ ?_ ..)
    rfl
  | negotiateAlgorithms doe busy sm2 sm3h =>
    refine .of_runOn_eq rfl (Dev.live_spdm _ ?_ ..)
    exact Dev.live_ite rfl rfl
  | getDigests doe busy =>
    refine .of_runOn_eq rfl (Dev.live_spdm _ ?_ ..)
    rfl
  | getCertificate doe busy slot off n =>
    refine .of_runOn_eq rfl (Dev.live_spdm _ ?_ ..)
    exact Dev.live_ite rfl (Dev.live_ite rfl rfl)
  | challenge doe busy =>
    refine .of_runOn_eq rfl (Dev.live_spdm _ ?_ ..)
    exact Dev.live_ite rfl rfl
  | getMeasurements doe busy i signed => exact .of_runOn_eq rfl (live_getMeasurements ..)
  | debugNonceRequest => exact .of_runOn_eq rfl (Dev.live_ite rfl rfl)
  | debugToken good => exact .of_runOn_eq rfl (live_debugToken ..)
  | firmwareUpdateComponent c => exact .of_runOn_eq rfl (live_firmwareUpdateComponent ..)
  | activateFirmware => exact .of_runOn_eq rfl (live_activateFirmware _)
  | _ => exact .of_runLive rfl

/-- Settles O5: `exec_staysDown` for the command at the front, `Dev.live_tick` for an empty queue. -/
theorem dormantKept : Obligations.DormantKept := by
  intro s s' ⟨hd, hq⟩ hs
  obtain ⟨pending, d⟩ := s
  cases pending with
  | nil =>
    cases hs
    exact ⟨Dev.live_tick hd, hq⟩
  | cons c rest =>
    obtain ⟨hc, hrest⟩ := List.forall_mem_cons.1 hq
    obtain ⟨d', he, hd'⟩ := exec_staysDown hc ⟨rest, d⟩ hd
    cases (show exec c ⟨rest, d⟩ = .next s' from hs).symm.trans he
    exact ⟨hd', hrest⟩

end Sys2Proof.Machine

/-! The module (R22 to R32): what stands at reset, the input switch, and the management header. -/

namespace Sys2Proof.Machine

/-- Settles O3: reset lists nothing, so each read gives its default. -/
theorem resetValues : Obligations.ResetValues := by
  refine ⟨rfl, rfl, rfl, rfl, rfl, fun a => rfl, fun i => rfl, fun r ix => rfl, rfl, rfl⟩

/-! ### The input switch (R24 to R26, R447) -/

/-- With the switch open the start delay begins where both conditions hold and PWR_DIS is low. -/
theorem Dev.startCheck_open {d : Dev} (h : d.board.swOn = false) :
    d.startCheck = d.modBoard fun b => { b with starting := b.starting || (b.mated && b.risen && !b.pwrDis) } := by
  unfold Dev.startCheck
  rw [h, Bool.not_false, Bool.and_true]
  cases e : d.board.mated && d.board.risen && !d.board.pwrDis <;> simp [Dev.modBoard, e]

/-- A pin of an open switch changes by `g`, and the start conditions are looked at. -/
theorem completes_startCheck {c : Instr} {s : State} {g : Board → Board} {b : Board} (hc : exec c s = s.run fun d => (d.modBoard g).startCheck)
    (hopen : (g s.dev.board).swOn = false)
    (hb : b = { g s.dev.board with
      starting := (g s.dev.board).starting || ((g s.dev.board).mated && (g s.dev.board).risen && !(g s.dev.board).pwrDis) }) :
    Completes c s { s.dev with board := b } := by
  have e : (s.dev.modBoard g).startCheck = { s.dev with board := b } := by rw [Dev.startCheck_open hopen, hb]; rfl
  exact hc.trans (by rw [State.run, e])

/-- A closed switch opens. -/
theorem Dev.switchOpen_closed {d : Dev} (h : d.board.swOn = true) : d.switchOpen = d.powerLost := if_pos h

/-- Settles O6: `completes_startCheck` for the start delay, `Dev.switchOpen_closed` for the four openings. -/
theorem switchClosesAndOpens : Obligations.SwitchClosesAndOpens := by
  refine ⟨fun s b hb hopen => ?_, fun s hclosed => ?_⟩
  · subst hb
    refine ⟨completes_startCheck rfl hopen (by simp), completes_startCheck rfl hopen (by simp), fun hdis => ?_⟩
    have h : exec .pwrDisRelease s = s.run fun d => (d.modBoard fun b => { b with pwrDis := false }).startCheck := by
      change State.run pwrDisReleaseEffect s = _
      rw [State.run, pwrDisReleaseEffect, if_pos hdis]
      rfl
    exact completes_startCheck h hopen (by simp)
  · intro gone
    have hgone (f : Board → Board) (hf : ∀ b, (f b).swOn = b.swOn) : gone (s.dev.powerLost.modBoard f) :=
      ⟨hf _, s.dev.live_powerLost, rfl, rfl, rfl, rfl, rfl, rfl, rfl, rfl, rfl, rfl, rfl, rfl, rfl, rfl, rfl, rfl, rfl, rfl⟩
    have opens {c : Instr} (f : Board → Board) (hf : ∀ b, (f b).swOn = b.swOn) {P : Dev → Prop}
        (hc : exec c s = s.run fun d => d.switchOpen.modBoard f) (hp : P (s.dev.powerLost.modBoard f)) : Reaches c s fun d' => gone d' ∧ P d' :=
      ⟨_, hc.trans (by rw [State.run, Dev.switchOpen_closed hclosed]), hgone f hf, hp⟩
    refine ⟨?_, ?_, ?_, ?_⟩
    · refine opens (fun b => { b with ovTrip := true }) (fun _ => rfl) ?_ ⟨rfl, rfl, rfl⟩
      change State.run inputOverVoltageDisconnectEffect s = _
      rw [State.run, inputOverVoltageDisconnectEffect, if_pos hclosed]
      rfl
    · exact opens (fun b => { b with mated := false }) (fun _ => rfl) rfl ⟨rfl, rfl, rfl⟩
    · exact opens (fun b => { b with pwrDis := true }) (fun _ => rfl) rfl ⟨rfl, rfl, rfl⟩
    · refine opens (fun b => { b with risen := false, brownOut := b.brownOut || s.dev.board.swOn }) (fun _ => rfl) rfl ⟨?_, rfl, rfl⟩
      change (s.dev.board.brownOut || s.dev.board.swOn) = true
      rw [hclosed, Bool.or_true]

/-! ### The management header J5 (R27, R463) -/

/-- A request of SPDM outside the recovery state, over J5 or, on a running device, over Data Object Exchange, is served, or finds the other
transport's being served. -/
theorem Dev.spdm_served {d : Dev} (hr : d.regBit .secStatus [] 26 = false) {doe : Bool} (hd : doe = true → d.live = true) (busy : Bool) (f : Dev → Dev) :
    d.spdm doe busy f = if busy then d.spdmError 0x03 else f d := by
  have : (doe && !d.live) = false := by cases doe <;> simp_all
  simp [Dev.spdm, Dev.recovering, hr, this]

/-- Settles O17: each request is carried out while the always-on domain runs; `Dev.spdm_served` for those of SPDM. -/
theorem managementRequests : Obligations.ManagementRequests := by
  intro s hon say
  refine ⟨fun a => ⟨Config.freeByte s.dev.free 0, Config.freeByte s.dev.free 1, completes_of_runOn (f := entdaaEffect a) rfl hon⟩,
    completes_of_runOn (f := pldmFruRequestEffect) rfl hon, fun hr => ⟨fun n => ?_, fun e rest hp => ?_, fun doe busy hd => ⟨?_, ?_⟩⟩⟩
  · have h := completes_of_runOn (c := .pldmPlatformRequest (.sensor n)) (s := s) rfl hon
    rwa [pldmPlatformRequestEffect, if_neg (by simp [Dev.recovering, hr])] at h
  · have h := completes_of_runOn (c := .pldmPlatformRequest .event) (s := s) rfl hon
    rw [pldmPlatformRequestEffect, if_neg (by simp [Dev.recovering, hr])] at h
    simp only [hp] at h
    exact h
  · have h := completes_of_runOn (c := .getVersion doe busy) (s := s) rfl hon
    rwa [getVersionEffect, Dev.spdm_served hr hd] at h
  · have h := completes_of_runOn (c := .getCapabilities doe busy) (s := s) rfl hon
    rwa [getCapabilitiesEffect, Dev.spdm_served hr hd] at h

end Sys2Proof.Machine

/-! Cables, the coolant and board sensors, and the module causes (R22, R32). -/

namespace Sys2Proof.Machine

/-- Dies, benches, memory, queues, the fabric, the functions and the flash are as before. -/
def Undisturbed (d d' : Dev) : Prop := KeepsCompute d d' ∧ KeepsQueues d d' ∧ KeepsFabric d d' ∧ d'.fns = d.fns ∧ d'.flash = d.flash

/-- No cause is raised or cleared, and nothing leaves. -/
def Silent (d d' : Dev) : Prop :=
  d'.modCauses = d.modCauses ∧ d'.reports = d.reports ∧ d'.pldm = d.pldm ∧ d'.out = d.out ∧ Undisturbed d d'

/-- One module cause is raised (R32). -/
def Tells (d : Dev) (code acc : Nat) (d' : Dev) : Prop :=
  code ∈ d'.modCauses ∧ (∀ c, c ≠ code → (c ∈ d'.modCauses ↔ c ∈ d.modCauses)) ∧
  d'.reports = d.reports ++ [{ code := code, master := 0xF810, access := acc, addr := 0, inst := none, die := none, raisedAt := d.ticks }] ∧
  d'.pldm = d.pldm ++ [(code, 0xF810)] ∧ d'.regBit .pwrEvt [] 8 = true ∧ Undisturbed d d'

theorem Undisturbed.refl (d : Dev) : Undisturbed d d :=
  ⟨⟨rfl, rfl, rfl, rfl, rfl, rfl, rfl⟩, ⟨rfl, rfl, rfl, rfl⟩, ⟨rfl, rfl, rfl, rfl⟩, rfl, rfl⟩

/-- Registers, what the power manager, the causes and the messages to the host hold, and returns to service disturb nothing. -/
theorem Undisturbed.volatile (d : Dev) (b : Board) (rs fs : SMap W32) (p : PwrSt) (h : List (Nat × HeldMsg)) (m : SMap MsixVec) (o : List OutMsg)
    (mc : List Nat) (rp : List Report) (pl : List (Nat × Nat)) (rt : SMap (List Nat)) (q : SMap Nat) :
    Undisturbed d { d with
      board := b, regs := rs, fresh := fs, pwr := p, heldMsgs := h, msix := m, out := o, modCauses := mc, reports := rp
      pldm := pl, returns := rt, quiet := q } :=
  ⟨⟨rfl, rfl, rfl, rfl, rfl, rfl, rfl⟩, ⟨rfl, rfl, rfl, rfl⟩, ⟨rfl, rfl, rfl, rfl⟩, rfl, rfl⟩

theorem Undisturbed.trans {d d1 d2 : Dev} (h : Undisturbed d d1) (k : Undisturbed d1 d2) : Undisturbed d d2 := by
  obtain ⟨⟨a1, a2, a3, a4, a5, a6, a7⟩, ⟨b1, b2, b3, b4⟩, ⟨c1, c2, c3, c4⟩, hf, hl⟩ := h
  obtain ⟨⟨a1', a2', a3', a4', a5', a6', a7'⟩, ⟨b1', b2', b3', b4'⟩, ⟨c1', c2', c3', c4'⟩, hf', hl'⟩ := k
  exact ⟨⟨a1'.trans a1, a2'.trans a2, a3'.trans a3, a4'.trans a4, a5'.trans a5, a6'.trans a6, a7'.trans a7⟩,
    ⟨b1'.trans b1, b2'.trans b2, b3'.trans b3, b4'.trans b4⟩, ⟨c1'.trans c1, c2'.trans c2, c3'.trans c3, c4'.trans c4⟩, hf'.trans hf, hl'.trans hl⟩

/-- A power event sets its bit, and changes no other register. -/
theorem Dev.pwrEvent_told (d : Dev) {bit : Nat} (hb : bit < 32) :
    (d.pwrEvent bit).regBit .pwrEvt [] bit = true ∧ RegsBut [RegName.pwrEvt.addr []] d (d.pwrEvent bit) := by
  have hset : RegsBut [RegName.pwrEvt.addr []] d (d.setRegBit .pwrEvt [] bit) := RegsBut.setReg d _ _ _
  unfold Dev.pwrEvent
  extract_lets d1
  split
  next h =>
    split
    · exact ⟨h, fun _ _ => rfl⟩
    · exact ⟨d.regBit_setRegBit .pwrEvt [] hb, hset⟩
  next =>
    obtain ⟨h, m, o, e⟩ := Dev.msixEvent_shape d1 0 9
    rw [e]
    exact ⟨d.regBit_setRegBit .pwrEvt [] hb, hset⟩

/-- What a module cause leaves: its report, its PLDM event and the event MODULE. -/
theorem Tells.modCause7 {d d1 : Dev} (h : Silent d d1) (ht : d1.ticks = d.ticks) (code acc : Nat) : Tells d code acc (d1.modCause7 code acc) := by
  obtain ⟨hm, hr, hp, -, hk⟩ := h
  unfold Dev.modCause7
  extract_lets d2
  generalize hd3 : ({ d2 with
    modCauses := if d2.modCauses.contains code then d2.modCauses else d2.modCauses ++ [code]
    pldm := d2.pldm ++ [(code, 0xF810)] } : Dev) = d3
  obtain ⟨r, fs, p, hh, m, o, e⟩ := d3.pwrEvent_shape 8
  have hbit := (d3.pwrEvent_told (bit := 8) (by decide)).1
  have hc : d3.modCauses = if d.modCauses.contains code then d.modCauses else d.modCauses ++ [code] := by rw [← hd3, ← hm]; rfl
  refine ⟨?_, fun c hne => ?_, ?_, ?_, hbit, ?_⟩
  · rw [e]
    change code ∈ d3.modCauses
    rw [hc]
    split <;> simp_all
  · rw [e]
    change c ∈ d3.modCauses ↔ _
    rw [hc]
    split <;> simp [hne]
  · rw [e, ← hd3, ← hr, ← ht]
    rfl
  · rw [e, ← hd3, ← hp]
    rfl
  · rw [e, ← hd3]
    exact hk.trans (Undisturbed.volatile ..)

/-- A module cause changes the causes, the reports, the PLDM events and what the event MODULE changes. -/
theorem Dev.modCause7_shape (d : Dev) (code acc : Nat) : ∃ mc rp pl r fs p h m o, d.modCause7 code acc =
    { d with modCauses := mc, reports := rp, pldm := pl, regs := r, fresh := fs, pwr := p, heldMsgs := h, msix := m, out := o } := by
  unfold Dev.modCause7
  extract_lets d1
  generalize hd : ({ d1 with
    modCauses := if d1.modCauses.contains code then d1.modCauses else d1.modCauses ++ [code]
    pldm := d1.pldm ++ [(code, 0xF810)] } : Dev) = d2
  obtain ⟨r, fs, p, h, m, o, e⟩ := d2.pwrEvent_shape 8
  rw [e, ← hd]
  exact ⟨_, d1.reports, _, r, fs, p, h, m, o, rfl⟩

theorem RegsBut.modCause7 (d : Dev) (code acc : Nat) : RegsBut [RegName.pwrEvt.addr []] d (d.modCause7 code acc) :=
  (Dev.pwrEvent_told _ (bit := 8) (by decide)).2

@[simp] theorem Dev.board_modCause7 (d : Dev) (code acc : Nat) : (d.modCause7 code acc).board = d.board := by
  obtain ⟨mc, rp, pl, r, fs, p, h, m, o, e⟩ := d.modCause7_shape code acc
  rw [e]

@[simp] theorem Dev.quiet_modCause7 (d : Dev) (code acc : Nat) : (d.modCause7 code acc).quiet = d.quiet := by
  obtain ⟨mc, rp, pl, r, fs, p, h, m, o, e⟩ := d.modCause7_shape code acc
  rw [e]

theorem Dev.modCauseOnce_new {d : Dev} {code : Nat} (h : code ∉ d.modCauses) : d.modCauseOnce code = d.modCause7 code 0 := by
  simp [Dev.modCauseOnce, h]

theorem Dev.modCauseOnce_old {d : Dev} {code : Nat} (h : code ∈ d.modCauses) : d.modCauseOnce code = d := by
  simp [Dev.modCauseOnce, h]

/-! ### Sensing points of the module (R31, R32, R450 to R453) -/

theorem addr_pwrDieLim (i : Nat) : RegName.pwrDieLim.addr [i] = 0x400104 + 16 * i := rfl
theorem addr_pwrSens (n : Nat) : RegName.pwrSens.addr [n] = 0x401000 + 4 * n := rfl

/-- Of the device, only registers and the power manager's state differ; the thermal triggers stand, and so does every sensing register
but `n`'s. -/
def SensesOnly (n : Nat) (d d' : Dev) : Prop :=
  ∃ rs p, d' = { d with regs := rs, pwr := p } ∧ p.therm = d.pwr.therm ∧ ∀ m, m ≠ n → d'.reg .pwrSens [m] = d.reg .pwrSens [m]

namespace SensesOnly

theorem refl (n : Nat) (d : Dev) : SensesOnly n d d := ⟨d.regs, d.pwr, rfl, rfl, fun _ _ => rfl⟩

theorem trans {n : Nat} {d d1 d2 : Dev} (h : SensesOnly n d d1) (k : SensesOnly n d1 d2) : SensesOnly n d d2 := by
  obtain ⟨rs, p, e, ht, hm⟩ := h
  obtain ⟨rs', p', e', ht', hm'⟩ := k
  refine ⟨rs', p', by rw [e', e], ht'.trans ?_, fun m hne => (hm' m hne).trans (hm m hne)⟩
  rw [e, ht]

theorem setReg (d : Dev) (n : Nat) (v : W32) : SensesOnly n d (d.setReg .pwrSens [n] v) := by
  refine ⟨_, d.pwr, rfl, rfl, fun m hne => Dev.reg_setReg_other _ ?_ v⟩
  rw [addr_pwrSens, addr_pwrSens]
  omega

/-- A change of the power manager's state that leaves the thermal triggers. -/
theorem modPwr (n : Nat) (d : Dev) (f : PwrSt → PwrSt) (h : (f d.pwr).therm = d.pwr.therm) : SensesOnly n d (d.modPwr f) :=
  ⟨d.regs, _, rfl, h, fun _ _ => rfl⟩

theorem limEngage (n : Nat) (d : Dev) {i : Nat} (hi : i < 8) : SensesOnly n d (d.limEngage i) := by
  unfold Dev.limEngage
  extract_lets want old
  split
  · refine ⟨_, _, rfl, rfl, fun m _ => ?_⟩
    refine (Dev.reg_setReg_other (d := d) (r := .pwrDieLim) (ix := [i]) ?_ _)
    rw [addr_pwrSens, addr_pwrDieLim]
    omega
  · exact ⟨d.regs, _, rfl, rfl, fun _ _ => rfl⟩

theorem capNote (n : Nat) (d : Dev) (i : Nat) : SensesOnly n d (d.capNote i) := by
  unfold Dev.capNote
  extract_lets x
  split
  · exact refl n d
  · exact ⟨d.regs, _, rfl, rfl, fun _ _ => rfl⟩

/-- Taking up the triggers leaves every sensing register alone: `n` is any. -/
theorem limApply (n : Nat) (d : Dev) : SensesOnly n d d.limApply :=
  List.foldlRecOn (motive := SensesOnly n d) _ _ (refl n d) fun d1 h i hi =>
    (h.trans (limEngage n d1 (List.mem_range.mp hi))).trans (capNote n _ i)

theorem sensMend (d : Dev) (n : Nat) : SensesOnly n d (d.sensMend n) := by
  unfold Dev.sensMend
  split
  · exact ((setReg d n _).trans (modPwr n _ _ rfl)).trans (limApply n _)
  · exact refl n d

end SensesOnly

/-- A point that counts still does once it is mended. -/
theorem Dev.sensFailed_sensMend {d : Dev} {n : Nat} (h : d.sensFailed n = false) : (d.sensMend n).sensFailed n = false := by
  unfold Dev.sensMend
  split
  · obtain ⟨rs, p, -, -, hm⟩ := SensesOnly.limApply (n + 1) ((d.clrRegBit .pwrSens [n] 30).modPwr fun p => { p with unfail := p.unfail.filter (· != n) })
    rw [Dev.sensFailed, Dev.regBit, hm n (by omega)]
    exact d.regBit_clrRegBit .pwrSens [n] (by decide)
  · exact h

/-- The word of a reading. -/
theorem Dev.reg_reading (d : Dev) {n : Nat} (hn : 568 ≤ n) (t : BitVec 16) :
    (d.reading n t).reg .pwrSens [n] = BitVec.ofNat 32 (2 ^ 31 + b2n (d.sensFailed n) * 2 ^ 30 + t.toNat) := by
  have h : decide (n < 568) = false := by simpa using hn
  simp [Dev.reading, h, b2n]

theorem Dev.regFld_reading (d : Dev) {n : Nat} (hn : 568 ≤ n) (t : BitVec 16) : (d.reading n t).regFld .pwrSens [n] 15 0 = t.toNat := by
  have h := t.isLt
  have : b2n (d.sensFailed n) ≤ 1 := by cases d.sensFailed n <;> decide
  rw [Dev.regFld, d.reg_reading hn, fld, nfld, BitVec.toNat_ofNat]
  omega

theorem Dev.sensFailed_reading (d : Dev) {n : Nat} (hn : 568 ≤ n) (t : BitVec 16) : (d.reading n t).sensFailed n = d.sensFailed n := by
  have h := t.isLt
  rw [Dev.sensFailed, Dev.regBit, d.reg_reading hn, BitVec.getLsbD, BitVec.toNat_ofNat, Nat.testBit_eq_decide_div_mod_eq]
  cases d.sensFailed n <;> simp [b2n] <;> omega

theorem Dev.belowRelease_congr {d d' : Dev} {n : Nat} (h : SensesOnly n d d') (t : BitVec 16) :
    d'.belowRelease n t = d.belowRelease n t := by
  obtain ⟨rs, p, e, ht, hm⟩ := h
  have hmc : d'.modCauses = d.modCauses := by rw [e]
  have htm : d'.pwr.therm = d.pwr.therm := by rw [e]; exact ht
  unfold Dev.belowRelease
  rw [hmc, htm]
  split
  · rfl
  split
  next h69 =>
    rw [Dev.coolantRise, Dev.regFld, hm 568 (by omega)]
    rfl
  next => rfl

/-- A reading of a module point that is in range, counts, and is not below its release threshold: the register takes it, and a quiet period
ends (R404, R453). -/
theorem Dev.sensed_counting {d : Dev} {n : Nat} {t : BitVec 16} (hn : 568 ≤ n) (hlo : -320 ≤ t.toInt) (hhi : t.toInt ≤ 1200)
    (hf : d.sensFailed n = false) (hb : d.belowRelease n t = false) :
    ∃ d1, SensesOnly n d d1 ∧ d.sensed n t = { d1 with quiet := d1.quiet.erase (256 + n) } ∧ d1.regFld .pwrSens [n] 15 0 = t.toNat ∧
      d1.sensFailed n = false := by
  have hs : SensesOnly n d ((d.sensMend n).reading n t) := (SensesOnly.sensMend d n).trans (SensesOnly.setReg _ n _)
  have hf1 : ((d.sensMend n).reading n t).sensFailed n = false := by rw [Dev.sensFailed_reading _ hn, Dev.sensFailed_sensMend hf]
  refine ⟨_, hs, ?_, Dev.regFld_reading _ hn t, hf1⟩
  have hlt : ¬n < 568 := by omega
  unfold Dev.sensed
  rw [if_neg (by omega)]
  extract_lets d1 d2
  have hb1 : d1.belowRelease n t = false := by rw [Dev.belowRelease_congr hs, hb]
  rw [if_neg (by rw [hf1]; decide), if_neg (fun h => hlt h.1), if_neg (fun h => hlt h.1), if_pos (by rw [hb1]; decide)]

/-- A reading of a failed module point, none of whose failures software has cleared, is the register's alone. -/
theorem Dev.sensed_failed {d : Dev} {n : Nat} {t : BitVec 16} (hn : 568 ≤ n) (hlo : -320 ≤ t.toInt) (hhi : t.toInt ≤ 1200)
    (hf : d.sensFailed n = true) (hu : d.pwr.unfail = []) : d.sensed n t = d.reading n t := by
  have hm : d.sensMend n = d := if_neg (by rw [hu]; simp)
  unfold Dev.sensed
  rw [if_neg (by omega)]
  extract_lets d1 d2
  have hd1 : d1 = d.reading n t := by rw [← hm]
  rw [if_pos (by rw [hd1, Dev.sensFailed_reading _ hn, hf]), hd1]

/-- Point `n` reads `t` and counts; every other point's register is as before. -/
def Reads (n : Nat) (t : BitVec 16) (d d' : Dev) : Prop :=
  d'.regFld .pwrSens [n] 15 0 = t.toNat ∧ d'.sensFailed n = false ∧ ∀ m, m < 576 → m ≠ n → d'.reg .pwrSens [m] = d.reg .pwrSens [m]

theorem SensesOnly.silent {n : Nat} {d d' : Dev} (h : SensesOnly n d d') (q : SMap Nat) : Silent d { d' with quiet := q } := by
  obtain ⟨rs, p, e, -, -⟩ := h
  rw [e]
  exact ⟨rfl, rfl, rfl, rfl, Undisturbed.volatile ..⟩

/-- A report, an event and a cause of the module leave the sensing registers alone. -/
theorem Reads.modCause7 {n : Nat} {t : BitVec 16} {d d1 : Dev} (h : Reads n t d d1) (code acc : Nat) : Reads n t d (d1.modCause7 code acc) := by
  obtain ⟨hv, hf, hm⟩ := h
  have hk (m : Nat) : (d1.modCause7 code acc).reg .pwrSens [m] = d1.reg .pwrSens [m] := by
    refine Dev.reg_congr (RegsBut.modCause7 d1 code acc _ ?_)
    rw [addr_pwrSens, List.mem_singleton]
    change ¬_ = 0x400020
    omega
  refine ⟨?_, ?_, fun m hlt hne => (hk m).trans (hm m hlt hne)⟩
  · rw [Dev.regFld, hk]; exact hv
  · rw [Dev.sensFailed, Dev.regBit, hk]; exact hf

section
variable {d : Dev} {n code : Nat} {t : BitVec 16} (hn : 568 ≤ n) (hlo : -320 ≤ t.toInt) (hhi : t.toInt ≤ 1200)
include hn hlo hhi

/-- What such a reading leaves before the point's cause is looked at. -/
theorem Dev.sensed_reads (hf : d.sensFailed n = false) (hb : d.belowRelease n t = false) :
    Silent d (d.sensed n t) ∧ Reads n t d (d.sensed n t) ∧ (d.sensed n t).quiet.find? (256 + n) = none ∧ (d.sensed n t).ticks = d.ticks := by
  obtain ⟨d1, hs, e, hv, hf1⟩ := Dev.sensed_counting hn hlo hhi hf hb
  rw [e]
  refine ⟨hs.silent _, ⟨hv, hf1, fun m _ hne => ?_⟩, SMap.find?_erase_same .., ?_⟩
  · obtain ⟨-, -, -, -, hm⟩ := hs
    exact hm m hne
  · obtain ⟨rs, p, e1, -, -⟩ := hs
    rw [e1]

/-- Over its limit a point raises its cause. -/
theorem Dev.modSensed_tells (hf : d.sensFailed n = false) (hb : d.belowRelease n t = false) {hot : Bool} (hh : hot = true)
    (hc : code ∉ d.modCauses) :
    Tells d code 0 (d.modSensed n code t hot) ∧ Reads n t d (d.modSensed n code t hot) ∧ (d.modSensed n code t hot).quiet.find? (256 + n) = none := by
  obtain ⟨hs, hr, hq, ht⟩ := Dev.sensed_reads hn hlo hhi hf hb
  have hc1 : code ∉ (d.sensed n t).modCauses := by rw [hs.1]; exact hc
  have e : d.modSensed n code t hot = (d.sensed n t).modCause7 code 0 := by
    unfold Dev.modSensed
    extract_lets d1
    rw [if_pos (by rw [hh, hr.2.1]; rfl), Dev.modCauseOnce_new hc1]
  rw [e]
  exact ⟨Tells.modCause7 hs ht code 0, hr.modCause7 code 0, by rw [Dev.quiet_modCause7]; exact hq⟩

/-- At or below it, or with its cause asserted, it raises none. -/
theorem Dev.modSensed_silent (hf : d.sensFailed n = false) (hb : d.belowRelease n t = false) {hot : Bool}
    (hc : hot = false ∨ code ∈ d.modCauses) : Silent d (d.modSensed n code t hot) ∧ Reads n t d (d.modSensed n code t hot) := by
  obtain ⟨hs, hr, -, -⟩ := Dev.sensed_reads hn hlo hhi hf hb
  have e : d.modSensed n code t hot = d.sensed n t := by
    unfold Dev.modSensed
    extract_lets d1
    rcases hc with hc | hc
    · rw [if_neg (by simp [hc])]
    · rw [Dev.modCauseOnce_old (by rw [hs.1]; exact hc), ite_self]
  rw [e]
  exact ⟨hs, hr⟩

/-- A failed point raises none. -/
theorem Dev.modSensed_failed (hf : d.sensFailed n = true) (hu : d.pwr.unfail = []) (hot : Bool) : Silent d (d.modSensed n code t hot) := by
  have e : d.modSensed n code t hot = d.reading n t := by
    unfold Dev.modSensed
    extract_lets d1
    have hd1 : d1 = d.reading n t := Dev.sensed_failed hn hlo hhi hf hu
    rw [if_neg (by rw [hd1, Dev.sensFailed_reading _ hn, hf]; simp), hd1]
  rw [e]
  exact ⟨rfl, rfl, rfl, rfl, Undisturbed.volatile ..⟩

end

/-! ### Ports that a cable had kept out (R22, R369) -/

/-- A port that carried no frames takes a new state. -/
def FabPort.off (x : FabPort) (st why : Nat) : FabPort :=
  { x with st := st, why := why, direct := false, replay := [], wait := [], fails := 0, syncAt := none, pdSent := none }

theorem Dev.portOff_idle {d : Dev} {p : Nat} (h : (d.port p).st ≠ 3) (st why : Nat) : d.portOff p st why = d.setPort p ((d.port p).off st why) := by
  unfold Dev.portOff
  extract_lets was d1
  have hw : was = false := by simp [was, h]
  rw [hw, if_neg (by decide)]
  simp only [d1, hw]
  rfl

/-- Where a port that carried no frames comes to as it may start. -/
theorem Dev.port_portStart {d : Dev} {p : Nat} (h : (d.port p).st ≠ 3) :
    (d.portStart p).port p =
      if d.portCount ≤ p ∨ d.regBit .fabPortCtl [p] 0 then d.port p
      else if d.portSplit p then (d.port p).off 1 1
      else if !d.regBit .fabDevid [d.instOfPort p] 31 then d.port p
      else if !d.regBit .fabCfg [] 15 then (d.port p).off 1 3
      else (d.port p).off 2 0 := by
  have hcause (st why code bit : Nat) : ((d.portOff p st why).portCause p code bit).port p = (d.port p).off st why := by
    rw [Dev.portOff_idle h]
    exact d.port_setPort p _
  unfold Dev.portStart
  split
  · rfl
  split
  · exact hcause ..
  split
  · rfl
  split
  · exact hcause ..
  · rw [Dev.portOff_idle h, Dev.port_setPort]

/-- Only the ports `ps`, FAB_ERR_STATUS, what the tick has set and reports differ. -/
def PortsOnly (ps : Nat → Prop) (d d' : Dev) : Prop :=
  (∃ po rs fs rp, d' = { d with ports := po, regs := rs, fresh := fs, reports := rp }) ∧ (∀ q, ¬ps q → d'.port q = d.port q) ∧
    RegsBut [RegName.fabErrStatus.addr []] d d'

theorem PortsOnly.refl (ps : Nat → Prop) (d : Dev) : PortsOnly ps d d := ⟨⟨d.ports, d.regs, d.fresh, d.reports, rfl⟩, fun _ _ => rfl, fun _ _ => rfl⟩

theorem PortsOnly.trans {ps qs rs : Nat → Prop} {d d1 d2 : Dev} (h : PortsOnly ps d d1) (k : PortsOnly qs d1 d2)
    (hp : ∀ q, ps q → rs q) (hq : ∀ q, qs q → rs q) : PortsOnly rs d d2 := by
  obtain ⟨⟨po, rg, fs, rp, e⟩, hport, hreg⟩ := h
  obtain ⟨⟨po', rg', fs', rp', e'⟩, hport', hreg'⟩ := k
  exact ⟨⟨po', rg', fs', rp', by rw [e', e]⟩, fun q hn => (hport' q fun h => hn (hq q h)).trans (hport q fun h => hn (hp q h)),
    fun a ha => (hreg' a ha).trans (hreg a ha)⟩

theorem PortsOnly.portStart {d : Dev} {p : Nat} (h : (d.port p).st ≠ 3) : PortsOnly (· = p) d (d.portStart p) := by
  have hset (x : FabPort) (q : Nat) (hq : ¬q = p) : (d.setPort p x).port q = d.port q := SMap.getD_set_other _ hq ..
  have hcause (st why code bit : Nat) : PortsOnly (· = p) d ((d.portOff p st why).portCause p code bit) := by
    rw [Dev.portOff_idle h]
    exact ⟨⟨_, _, _, _, Dev.raise_eq ..⟩, hset _, RegsBut.setReg (d.setPort p _) .fabErrStatus [] _⟩
  unfold Dev.portStart
  split
  · exact .refl _ d
  split
  · exact hcause ..
  split
  · exact .refl _ d
  split
  · exact hcause ..
  · rw [Dev.portOff_idle h]
    exact ⟨⟨_, d.regs, d.fresh, d.reports, rfl⟩, hset _, fun _ _ => rfl⟩

namespace PortsOnly
variable {ps : Nat → Prop} {d d' : Dev}

/-- Such a change leaves the grouping, the locks and the identities of the fabric. -/
theorem reg_eq (h : PortsOnly ps d d') {r : RegName} {ix : List Nat} (hr : r.addr ix ≠ RegName.fabErrStatus.addr []) : d'.reg r ix = d.reg r ix :=
  Dev.reg_congr (h.2.2 _ (by simpa using hr))

theorem portCount_eq (h : PortsOnly ps d d') : d'.portCount = d.portCount := by
  rw [Dev.portCount, Dev.portCount, Dev.regFld, h.reg_eq (by decide), Dev.regFld]

theorem instN_eq (h : PortsOnly ps d d') : d'.instN = d.instN := by
  rw [Dev.instN, Dev.instN, Dev.log2N, Dev.log2N, Dev.regFld, h.reg_eq (by decide), Dev.regFld]

/-- Where a port comes to depends on nothing that the start of another one changes. -/
theorem port_portStart_eq (h : PortsOnly ps d d') {p : Nat} (hp : d'.port p = d.port p) (hst : (d.port p).st ≠ 3) :
    (d'.portStart p).port p = (d.portStart p).port p := by
  have hdev : RegName.fabDevid.addr [d.instOfPort p] ≠ RegName.fabErrStatus.addr [] := by
    change 0x500020 + 4 * _ ≠ 0x500010
    omega
  have hctl : RegName.fabPortCtl.addr [p] ≠ RegName.fabErrStatus.addr [] := by
    change 0x500104 + _ * p ≠ 0x500010
    omega
  have hinst : d'.instOfPort p = d.instOfPort p := by rw [Dev.instOfPort, Dev.instOfPort, h.portCount_eq, h.instN_eq]
  have hsplit : d'.portSplit p = d.portSplit p := by rw [Dev.portSplit, Dev.portSplit, h.portCount_eq, h.instN_eq]
  have hbits : d'.regBit .fabPortCtl [p] 0 = d.regBit .fabPortCtl [p] 0 ∧
      d'.regBit .fabDevid [d.instOfPort p] 31 = d.regBit .fabDevid [d.instOfPort p] 31 ∧ d'.regBit .fabCfg [] 15 = d.regBit .fabCfg [] 15 := by
    simp only [Dev.regBit, h.reg_eq hctl, h.reg_eq hdev, h.reg_eq (r := .fabCfg) (ix := []) (by decide), and_self]
  obtain ⟨hc, hd, hf⟩ := hbits
  rw [Dev.port_portStart hst, Dev.port_portStart (by rw [hp]; exact hst), h.portCount_eq, hinst, hsplit, hp, hc, hd, hf]

end PortsOnly

/-- The lane order of connector `j`'s cable keeps port `p` out. -/
def Dev.keptOut (d : Dev) (j p : Nat) : Prop := d.portConnector p = j ∧ (d.port p).st = 1 ∧ (d.port p).why = 2

/-- What a cable's mating does to one port. -/
def Dev.startAgain (j : Nat) (d : Dev) (p : Nat) : Dev :=
  if d.portConnector p = j ∧ (d.port p).st = 1 ∧ (d.port p).why = 2 then d.portStart p else d

theorem Dev.startAgain_kept {j p : Nat} {d : Dev} (h : d.keptOut j p) : Dev.startAgain j d p = d.portStart p := if_pos h
theorem Dev.startAgain_other {j p : Nat} {d : Dev} (h : ¬d.keptOut j p) : Dev.startAgain j d p = d := if_neg h

theorem Dev.keptOut.idle {j p : Nat} {d : Dev} (h : d.keptOut j p) : (d.port p).st ≠ 3 := by
  have := h.2.1
  omega

theorem PortsOnly.startAgain (j : Nat) (d : Dev) (p : Nat) : PortsOnly (fun q => q = p ∧ d.keptOut j p) d (Dev.startAgain j d p) := by
  by_cases h : d.keptOut j p
  · rw [Dev.startAgain_kept h]
    exact (PortsOnly.portStart h.idle).trans (.refl (fun _ => False) _) (fun q hq => ⟨hq, h⟩) (fun _ => False.elim)
  · rw [Dev.startAgain_other h]
    exact .refl _ d

/-- Of the ports `ps`, those that the cable had kept out start, each as it would alone. -/
theorem Dev.startAgain_all (j : Nat) {ps : List Nat} (hps : ps.Nodup) (d : Dev) :
    PortsOnly (fun q => q ∈ ps ∧ d.keptOut j q) d (ps.foldl (Dev.startAgain j) d) ∧
      ∀ q ∈ ps, d.keptOut j q → (ps.foldl (Dev.startAgain j) d).port q = (d.portStart q).port q := by
  induction ps generalizing d with
  | nil => exact ⟨.refl _ d, fun q hq => absurd hq List.not_mem_nil⟩
  | cons p ps ih =>
    obtain ⟨hp, hps⟩ := List.nodup_cons.mp hps
    have hone := PortsOnly.startAgain j d p
    obtain ⟨hrest, hstart⟩ := ih hps (Dev.startAgain j d p)
    have hport {q : Nat} (hq : q ∈ ps) : (Dev.startAgain j d p).port q = d.port q := hone.2.1 q fun h => hp (h.1 ▸ hq)
    have hkept {q : Nat} (hq : q ∈ ps) : (Dev.startAgain j d p).keptOut j q ↔ d.keptOut j q := by
      rw [Dev.keptOut, Dev.keptOut, Dev.portConnector, Dev.portConnector, hone.portCount_eq, hport hq]
    rw [List.foldl_cons]
    refine ⟨hone.trans hrest (fun q h => ⟨h.1 ▸ List.mem_cons_self, h.1 ▸ h.2⟩)
      (fun q h => ⟨List.mem_cons_of_mem p h.1, (hkept h.1).mp h.2⟩), fun q hq hk => ?_⟩
    rcases List.mem_cons.mp hq with rfl | hq
    · rw [hrest.2.1 q fun h => hp h.1, Dev.startAgain_kept hk]
    · rw [hstart q hq ((hkept hq).mpr hk), hone.port_portStart_eq (hport hq) hk.idle]

/-- Where the cable had kept none out, none starts. -/
theorem Dev.startAgain_none {j : Nat} {ps : List Nat} {d : Dev} (h : ∀ q ∈ ps, ¬d.keptOut j q) : ps.foldl (Dev.startAgain j) d = d :=
  List.foldlRecOn (motive := (· = d)) _ _ rfl fun d1 e q hq => by rw [e, Dev.startAgain_other (h q hq)]

/-! ### MODULE of PWR_EVT (R32, R455) -/

/-- The causes that software clears are gone, PWR_EVT is as it was, and nothing else is disturbed. -/
def ModuleCleared (d d' : Dev) : Prop :=
  (0x7C01 ∉ d'.modCauses ∧ 0x7C07 ∉ d'.modCauses) ∧ d'.reg .pwrEvt [] = d.reg .pwrEvt [] ∧ Undisturbed d d'

/-- The release of a latched coolant sensor keeps that. -/
theorem ModuleCleared.released {d d1 : Dev} (h : ModuleCleared d d1) {i : Nat} (hi : i < 832) (code : Nat) :
    ModuleCleared d ((d1.rcvRelease i).modCauseEnd code) := by
  obtain ⟨⟨h1, h7⟩, hr, hk⟩ := h
  have hreg : (d1.clrRegBit .fcRcv [i] 31).reg .pwrEvt [] = d1.reg .pwrEvt [] := by
    refine Dev.reg_setReg_other (d := d1) (r := .fcRcv) (ix := [i]) ?_ _
    change 0x400020 ≠ 0x308000 + 4 * i
    omega
  refine ⟨⟨fun h => h1 (List.mem_filter.mp h).1, fun h => h7 (List.mem_filter.mp h).1⟩, hreg.trans hr, hk.trans ?_⟩
  exact Undisturbed.volatile ..

theorem Dev.modCausesClear_cleared (d : Dev) : ModuleCleared d d.modCausesClear := by
  have hpoint : ∀ x ∈ ([(568, 0x7C02), (569, 0x7C03)] : List (Nat × Nat)), 256 + x.1 < 832 := by decide
  unfold Dev.modCausesClear
  extract_lets held d1
  have hd1 : ModuleCleared d d1 := ⟨⟨by simp [d1], by simp [d1]⟩, rfl, Undisturbed.volatile ..⟩
  refine List.foldlRecOn (motive := ModuleCleared d) _ _ hd1 fun d2 h x hx => ?_
  split
  · exact h.released (hpoint x hx) _
  · exact h

/-- A write of MODULE that the device has not set in the same tick clears it and the causes that software clears (R8, R32). -/
theorem Dev.evtWrite_module {d : Dev} (hfresh : (d.freshBits .pwrEvt []).getLsbD 8 = false) :
    (0x7C01 ∉ (d.evtWrite 0x100#32).modCauses ∧ 0x7C07 ∉ (d.evtWrite 0x100#32).modCauses) ∧ (d.evtWrite 0x100#32).regBit .pwrEvt [] 8 = false ∧
      Undisturbed d (d.evtWrite 0x100#32) := by
  have hacc : ∀ f ∈ RegName.pwrEvt.fields, f.acc ≠ .rwl := by decide
  have hs : d.regStore .pwrEvt [] 0x100#32 = d.setReg .pwrEvt [] (d.regTaken .pwrEvt [] 0x100#32) := Dev.regStore_eq d [] fun f hf hx => absurd hx (hacc f hf)
  have hbit : (d.regTaken .pwrEvt [] 0x100#32).getLsbD 8 = false := by
    rw [Dev.getLsbD_regTaken d [] _ (f := ⟨8, 8, .w1c, 0⟩) (by decide) ⟨Nat.le_refl 8, Nat.le_refl 8⟩, hfresh]
    simp [Access.written]
  unfold Dev.evtWrite
  extract_lets d1 d2
  have hd2 : d2.regBit .pwrEvt [] 8 = false ∧ Undisturbed d d2 := by
    have hd1 : d1.regBit .pwrEvt [] 8 = false := by rw [Dev.regBit, show d1 = _ from hs, Dev.reg_setReg, hbit]
    have hk1 : Undisturbed d d1 := by
      rw [show d1 = _ from hs]
      exact Undisturbed.volatile ..
    obtain ⟨h, m, o, e⟩ := Dev.msixEvent_shape d1 0 9
    change (if _ then d1.msixEvent 0 9 else d1).regBit .pwrEvt [] 8 = false ∧ Undisturbed d (if _ then d1.msixEvent 0 9 else d1)
    split
    · rw [e]
      exact ⟨hd1, hk1.trans (Undisturbed.volatile ..)⟩
    · exact ⟨hd1, hk1⟩
  obtain ⟨hb, hk⟩ := hd2
  obtain ⟨hc, hr, hk'⟩ := d2.modCausesClear_cleared
  rw [if_pos (by rw [BitVec.getLsbD_and, BitVec.getLsbD_not, hfresh]; decide)]
  exact ⟨hc, by rw [Dev.regBit, hr]; exact hb, hk.trans hk'⟩

/-! ### Cables and module causes -/

theorem Silent.modBoard (d : Dev) (f : Board → Board) : Silent d (d.modBoard f) :=
  ⟨rfl, rfl, rfl, rfl, ⟨rfl, rfl, rfl, rfl, rfl, rfl, rfl⟩, ⟨rfl, rfl, rfl, rfl⟩, ⟨rfl, rfl, rfl, rfl⟩, rfl, rfl⟩

/-- A connector's cable is mated. -/
theorem cableMate_reaches (s : State) (j : Bool) (k : Nat) (hk : k = if j then 3 else 2) (c : Cable)
    (hc : c = { s.dev.cable k with mated := true, supply := s.dev.board.swOn && !(s.dev.cable k).latched }) :
    let d1 : Dev := { s.dev with board := { s.dev.board with cables := s.dev.board.cables.set k c } }
    let again (p : Nat) : Prop := s.dev.live = true ∧ p < 24 ∧ s.dev.portConnector p = k ∧ (s.dev.port p).st = 1 ∧ (s.dev.port p).why = 2
    Reaches (.cableMate j) s fun d' => d'.board = d1.board ∧ (∀ p, ¬again p → d'.port p = s.dev.port p) ∧
      (∀ p, again p → d'.port p = (d1.portStart p).port p) ∧ d'.modCauses = s.dev.modCauses ∧ d'.peers = s.dev.peers ∧ d'.mirrors = s.dev.mirrors ∧
      KeepsCompute s.dev d' ∧ KeepsQueues s.dev d' ∧ ((∀ p, ¬again p) → d' = d1) := by
  intro d1 again
  have hexec : Completes (.cableMate j) s (if s.dev.live then (List.range 24).foldl (Dev.startAgain k) d1 else d1) := by
    rw [show d1 = s.dev.setCable k c from rfl, hc, hk]
    rfl
  refine ⟨_, hexec, ?_⟩
  cases hlive : s.dev.live with
  | false =>
    have hnone : ∀ p, ¬again p := fun p h => Bool.false_ne_true (hlive.symm.trans h.1)
    rw [if_neg (by decide)]
    exact ⟨rfl, fun _ _ => rfl, fun p h => absurd h (hnone p), rfl, rfl, rfl, ⟨rfl, rfl, rfl, rfl, rfl, rfl, rfl⟩, ⟨rfl, rfl, rfl, rfl⟩, fun _ => rfl⟩
  | true =>
    rw [if_pos rfl]
    obtain ⟨hports, hstart⟩ := d1.startAgain_all k List.nodup_range
    have hagain (p : Nat) : p ∈ List.range 24 ∧ d1.keptOut k p ↔ again p :=
      ⟨fun h => ⟨hlive, List.mem_range.mp h.1, h.2⟩, fun h => ⟨List.mem_range.mpr h.2.1, h.2.2⟩⟩
    have hnone : (∀ p, ¬again p) → (List.range 24).foldl (Dev.startAgain k) d1 = d1 := fun h =>
      Dev.startAgain_none fun q hq hk => h q ((hagain q).mp ⟨hq, hk⟩)
    obtain ⟨⟨po, rs, fs, rp, e⟩, hother, -⟩ := hports
    refine ⟨?_, fun p h => hother p ((hagain p).not.mpr h), fun p h => hstart p ((hagain p).mpr h).1 ((hagain p).mpr h).2, ?_, ?_, ?_, ?_, ?_, hnone⟩
    case refine_5 => rw [e]; exact ⟨rfl, rfl, rfl, rfl, rfl, rfl, rfl⟩
    case refine_6 => rw [e]; exact ⟨rfl, rfl, rfl, rfl⟩
    all_goals rw [e]

/-- A connector's supply reaches its limit. -/
theorem cableSupplyOverload_reaches {s : State} (hon : s.dev.on = true) (j : Bool) (k : Nat) (hk : k = if j then 3 else 2)
    (hsup : (s.dev.cable k).supply = true) :
    Reaches (.cableSupplyOverload j) s fun d' =>
      d'.cable k = { s.dev.cable k with supply := false, latched := true } ∧ d'.cable (5 - k) = s.dev.cable (5 - k) ∧ Tells s.dev 0x7C06 k d' := by
  have hne : 5 - k ≠ k := by cases j <;> simp at hk <;> omega
  have hexec := completes_of_runOn (c := .cableSupplyOverload j) (f := cableSupplyOverloadEffect (if j then 3 else 2)) rfl hon
  rw [← hk, cableSupplyOverloadEffect, if_pos hsup] at hexec
  refine ⟨_, hexec, ?_, ?_, Tells.modCause7 (Silent.modBoard _ _) rfl 0x7C06 k⟩
  · rw [Dev.cable, Dev.board_modCause7]
    exact SMap.getD_set_same ..
  · rw [Dev.cable, Dev.board_modCause7]
    exact SMap.getD_set_other _ hne ..

/-- A reading that raises, keeps or hides a cause, each as the obligation states it. -/
theorem moduleSensors_reach {s : State} (hon : s.dev.on = true) (t : BitVec 16) (hlo : -320 ≤ t.toInt) (hhi : t.toInt ≤ 1200) :
    (s.dev.sensFailed 568 = false → 320 < t.toInt → 0x7C02 ∉ s.dev.modCauses → Reaches (.coolantInletHot t) s fun d' =>
      Tells s.dev 0x7C02 0 d' ∧ Reads 568 t s.dev d' ∧ d'.quiet.find? 824 = none) ∧
    (s.dev.sensFailed 569 = false → 320 < s.dev.coolantRise t → 0x7C03 ∉ s.dev.modCauses → Reaches (.coolantRiseHigh t) s fun d' =>
      Tells s.dev 0x7C03 0 d' ∧ Reads 569 t s.dev d' ∧ d'.quiet.find? 825 = none) ∧
    (∀ k : Fin 6, s.dev.sensFailed (570 + k) = false → 800 < t.toInt → 0x7C07 ∉ s.dev.modCauses →
      Reaches (.moduleBoardHot k t) s fun d' => Tells s.dev 0x7C07 0 d' ∧ Reads (570 + k) t s.dev d') ∧
    (s.dev.sensFailed 568 = false → 304 ≤ t.toInt → t.toInt ≤ 320 ∨ 0x7C02 ∈ s.dev.modCauses → Reaches (.coolantInletHot t) s fun d' =>
      Silent s.dev d' ∧ Reads 568 t s.dev d') ∧
    (s.dev.sensFailed 569 = false → 288 ≤ s.dev.coolantRise t → s.dev.coolantRise t ≤ 320 ∨ 0x7C03 ∈ s.dev.modCauses →
      Reaches (.coolantRiseHigh t) s fun d' => Silent s.dev d' ∧ Reads 569 t s.dev d') ∧
    (∀ k : Fin 6, s.dev.sensFailed (570 + k) = false → s.dev.pwr.therm.has (570 + k) = false → t.toInt ≤ 800 ∨ 0x7C07 ∈ s.dev.modCauses →
      Reaches (.moduleBoardHot k t) s fun d' => Silent s.dev d' ∧ Reads (570 + k) t s.dev d') ∧
    (s.dev.pwr.unfail = [] →
      (s.dev.sensFailed 568 = true → Reaches (.coolantInletHot t) s (Silent s.dev)) ∧
      (s.dev.sensFailed 569 = true → Reaches (.coolantRiseHigh t) s (Silent s.dev)) ∧
      ∀ k : Fin 6, s.dev.sensFailed (570 + k) = true → Reaches (.moduleBoardHot k t) s (Silent s.dev)) := by
  have hinlet := completes_of_runOn (c := .coolantInletHot t) (f := coolantInletHotEffect t) rfl hon
  have hrise := completes_of_runOn (c := .coolantRiseHigh t) (f := coolantRiseHighEffect t) rfl hon
  have hboard (k : Fin 6) := completes_of_runOn (c := .moduleBoardHot k t) (f := moduleBoardHotEffect k t) rfl hon
  have hk (k : Fin 6) : 568 ≤ 570 + k.val := by omega
  have below68 (h : 304 ≤ t.toInt) : s.dev.belowRelease 568 t = false := by
    rw [Dev.belowRelease, if_pos rfl, decide_eq_false (by omega), Bool.and_false]
  have below69 (h : 288 ≤ s.dev.coolantRise t) : s.dev.belowRelease 569 t = false := by
    rw [Dev.belowRelease, if_neg (by decide), if_pos rfl, decide_eq_false (by omega), Bool.and_false]
  have belowBoard (k : Fin 6) : s.dev.belowRelease (570 + k) t = (s.dev.pwr.therm.has (570 + k) && decide (t.toInt < 800)) := by
    have hp : releasePoint (570 + k) = 800 := by simp [releasePoint, sensorHbm]; omega
    rw [Dev.belowRelease, if_neg (by omega), if_neg (by omega), hp]
  refine ⟨fun hf ht hc => ⟨_, hinlet, ?_⟩, fun hf ht hc => ⟨_, hrise, ?_⟩, fun k hf ht hc => ⟨_, hboard k, ?_⟩, fun hf ht hc => ⟨_, hinlet, ?_⟩,
    fun hf ht hc => ⟨_, hrise, ?_⟩, fun k hf hth hc => ⟨_, hboard k, ?_⟩,
    fun hu => ⟨fun hf => ⟨_, hinlet, ?_⟩, fun hf => ⟨_, hrise, ?_⟩, fun k hf => ⟨_, hboard k, ?_⟩⟩⟩
  · exact Dev.modSensed_tells (by decide) hlo hhi hf (below68 (by omega)) (decide_eq_true ht) hc
  · exact Dev.modSensed_tells (by decide) hlo hhi hf (below69 (by omega)) (decide_eq_true ht) hc
  · have hb : s.dev.belowRelease (570 + k) t = false := by rw [belowBoard, decide_eq_false (by omega), Bool.and_false]
    obtain ⟨htell, hread, -⟩ := Dev.modSensed_tells (hk k) hlo hhi hf hb (decide_eq_true ht) hc
    exact ⟨htell, hread⟩
  · exact Dev.modSensed_silent (by decide) hlo hhi hf (below68 ht) (hc.imp (fun h => decide_eq_false (by omega)) id)
  · exact Dev.modSensed_silent (by decide) hlo hhi hf (below69 ht) (hc.imp (fun h => decide_eq_false (by omega)) id)
  · exact Dev.modSensed_silent (hk k) hlo hhi hf (by rw [belowBoard, hth, Bool.false_and]) (hc.imp (fun h => decide_eq_false (by omega)) id)
  · exact Dev.modSensed_failed (by decide) hlo hhi hf hu _
  · exact Dev.modSensed_failed (by decide) hlo hhi hf hu _
  · exact Dev.modSensed_failed (hk k) hlo hhi hf hu _

/-- Settles O7: `cableMate_reaches` for the ports that start again, `moduleSensors_reach` for the sensing points, `Tells.modCause7` for every
cause that is raised, `Dev.evtWrite_module` for the write that clears them. -/
theorem cablesAndModuleCauses : Obligations.CablesAndModuleCauses := by
  refine ⟨fun s j k hk => ⟨?_, fun c hc => cableMate_reaches s j k hk c hc, fun hon hsup => cableSupplyOverload_reaches hon j k hk hsup, ?_⟩,
    fun s hon => ⟨fun hc => ?_, fun hc => ?_, fun t hlo hhi => moduleSensors_reach hon t hlo hhi, fun hc hx => ?_, fun hx => ?_, ?_,
      fun hlive hwait hhits hright hfresh => ?_⟩⟩
  · rw [hk]
    rfl
  · cases hon : s.dev.on with
    | true => exact completes_of_runOn (f := mgmtRstEffect) rfl hon
    | false => exact State.runOn_off mgmtRstEffect hon
  · refine ⟨_, completes_of_runOn (c := .coolantLeak) (f := coolantLeakEffect) rfl hon, ?_⟩
    rw [coolantLeakEffect, Dev.modCauseOnce_new hc]
    exact ⟨Tells.modCause7 ⟨rfl, rfl, rfl, rfl, Undisturbed.refl _⟩ rfl 0x7C01 0, RegsBut.modCause7 s.dev 0x7C01 0⟩
  · have h := completes_of_runOn (c := .coolantLeak) (f := coolantLeakEffect) rfl hon
    rwa [coolantLeakEffect, Dev.modCauseOnce_old hc] at h
  · have h := completes_of_runOn (c := .inputOverVoltageWarning) (f := inputOverVoltageWarningEffect) rfl hon
    rw [inputOverVoltageWarningEffect, if_neg (by rw [hx]; decide)] at h
    refine ⟨_, h, Tells.modCause7 (d := s.dev) (Silent.modBoard _ _) rfl 0x7C04 0, ?_⟩
    rw [Dev.board_modCause7]
    rfl
  · have h := completes_of_runOn (c := .inputOverVoltageWarning) (f := inputOverVoltageWarningEffect) rfl hon
    rwa [inputOverVoltageWarningEffect, if_pos hx] at h
  · exact completes_of_runOn (f := overVoltageWarningEndEffect) rfl hon
  · have h := completes_of_runLive (c := .registerWrite (.bar0 0 0x400020 [0, 1, 0, 0])) (f := registerWriteEffect (.bar0 0 0x400020 [0, 1, 0, 0])) rfl hlive
    have hbytes : ([0, 1, 0, 0] : List Byte) = leBytes (0x100#32).toNat 4 := by decide
    have hwrite : registerWriteEffect (.bar0 0 0x400020 [0, 1, 0, 0]) s.dev = s.dev.evtWrite 0x100#32 := by
      rw [registerWriteEffect, Fin.val_zero, hostBar0WriteEffect_of_free hwait, hbytes]
      exact Dev.bar0Write_hits hhits hright _
    rw [hwrite] at h
    obtain ⟨⟨h1, h7⟩, hbit, hcompute, hqueues, -⟩ := Dev.evtWrite_module hfresh
    exact ⟨_, h, h1, h7, hbit, hcompute, hqueues⟩

end Sys2Proof.Machine

/-! The boot (R24, R29, R459 to R472): what its steps leave alone, the configuration, the boot lock, and the recovery state. -/

namespace Sys2Proof.Machine

/-! ### What the boot steps leave alone -/

/-- The part of the device that no boot step of a die, a window or a port touches while the caches and HBM are empty. -/
def Dev.tracked (d : Dev) : Dev :=
  { time := d.time, halted := d.halted, tripped := d.tripped, board := d.board, flash := d.flash, evlog := d.evlog, queues := d.queues,
    slots := d.slots, benches := d.benches, slices := d.slices, hbm := d.hbm }

/-- A boot step: that part is as before, and SEC_STATUS.IDENTITY stays set. -/
def Boots (d d' : Dev) : Prop := d'.tracked = d.tracked ∧ (d.regBit .secStatus [] 29 = true → d'.regBit .secStatus [] 29 = true)

namespace Boots

theorem refl (d : Dev) : Boots d d := ⟨rfl, id⟩

theorem trans {d d1 d2 : Dev} (h : Boots d d1) (k : Boots d1 d2) : Boots d d2 := ⟨k.1.trans h.1, fun b => k.2 (h.2 b)⟩

theorem foldl {α : Type} {f : Dev → α → Dev} {xs : List α} (h : ∀ d, ∀ x ∈ xs, Boots d (f d x)) (d : Dev) : Boots d (xs.foldl f d) :=
  List.foldlRecOn (motive := Boots d) xs f (refl d) fun d1 k x hx => k.trans (h d1 x hx)

/-- A step that leaves SEC_STATUS alone. -/
theorem of_reg {d d' : Dev} (h : d'.tracked = d.tracked) (hr : d'.reg .secStatus [] = d.reg .secStatus []) : Boots d d' :=
  ⟨h, fun b => by rw [Dev.regBit, hr]; exact b⟩

theorem of_regs {d d' : Dev} (h : d'.tracked = d.tracked) (hr : d'.regs = d.regs) : Boots d d' := of_reg h (Dev.reg_congr (by rw [hr]))

theorem ite {p : Prop} [Decidable p] {d x y : Dev} (h : Boots d x) (k : Boots d y) : Boots d (if p then x else y) := by
  split
  · exact h
  · exact k

variable (d : Dev)

theorem modDie (i : Nat) (f : Die → Die) : Boots d (d.modDie i f) := of_regs rfl rfl
theorem setMod (die site : Nat) (x : ModSt) : Boots d (d.setMod die site x) := of_regs rfl rfl
theorem report (r : Report) : Boots d (d.report r) := of_regs rfl rfl

section
variable {r : RegName} (h : r ≠ .secStatus) (ho : r ≠ .secOrder)
include h ho

theorem setReg (ix : List Nat) (v : W32) : Boots d (d.setReg r ix v) :=
  of_reg rfl (Dev.reg_setReg_other d (RegName.addr_ne_secStatus h ho ix) v)

theorem setRegFld (ix : List Nat) (hi lo v : Nat) : Boots d (d.setRegFld r ix hi lo v) := setReg d h ho ..
theorem setRegBit (ix : List Nat) (i : Nat) : Boots d (d.setRegBit r ix i) :=
  (setReg d h ho ix _).trans (of_regs rfl rfl)
theorem raise (ix : List Nat) (bit : Nat) (x : Report) : Boots d (d.raise r ix bit x) := (setRegBit d h ho ix bit).trans (report _ _)

end

/-- A set bit of SEC_STATUS. -/
theorem setStatus (i : Nat) : Boots d (d.setRegBit .secStatus [] i) := by
  refine ⟨rfl, fun b => ?_⟩
  have h : (d.setRegBit .secStatus [] i).reg .secStatus [] = d.reg .secStatus [] ||| BitVec.ofNat 32 (2 ^ i) := Dev.reg_setReg ..
  rw [Dev.regBit, h, BitVec.getLsbD_or, show (d.reg .secStatus []).getLsbD 29 = true from b, Bool.true_or]

theorem datCause (die code bit : Nat) : Boots d (d.datCause die code bit) := raise d (by decide) (by decide) ..
theorem datDieCause (die code bit agent : Nat) : Boots d (d.datDieCause die code bit agent) := raise d (by decide) (by decide) ..
theorem secCause (code bit addr : Nat) : Boots d (d.secCause code bit addr) := raise d (by decide) (by decide) ..
theorem pwrCause (code bit addr : Nat) : Boots d (d.pwrCause code bit addr) := raise d (by decide) (by decide) ..

theorem modCause7 (code acc : Nat) : Boots d (d.modCause7 code acc) := by
  have hr : RegsBut [RegName.pwrEvt.addr []] d (d.modCause7 code acc) := RegsBut.modCause7 d code acc
  refine of_reg ?_ (Dev.reg_congr (hr _ (by decide)))
  obtain ⟨mc, rp, pl, r, fs, p, h, m, o, e⟩ := d.modCause7_shape code acc
  rw [e]
  rfl

/-! ### The dies (R240, R241) -/

theorem putModUp (die site v : Nat) : Boots d (d.putModUp die site v) := by
  unfold Dev.putModUp
  extract_lets d1
  have h1 : Boots d d1 := setRegFld d (by decide) (by decide) ..
  split
  · exact h1.trans (setRegFld d1 (by decide) (by decide) ..)
  · exact h1

theorem modFailed (die site : Nat) : Boots d (d.modFailed die site) :=
  ((setMod d die site _).trans (putModUp _ die site 0)).trans (datCause _ die _ _)

theorem linkUpFailed (die code bit : Nat) : Boots d (d.linkUpFailed die code bit) := (datCause d die code bit).trans (modDie _ die _)

theorem writeCaps (die : Nat) (r : List Byte) : Boots d (d.writeCaps die r) :=
  foldl (fun d1 _ _ => setReg d1 (by decide) (by decide) ..) d

theorem trainAll (die sites : Nat) (trained : BitVec 24) : Boots d (d.trainAll die sites trained) :=
  foldl (fun d1 s _ => ite (ite ((setMod d1 die s _).trans (putModUp _ die s 1)) (modFailed d1 die s))
    (ite ((setMod d1 die s _).trans (putModUp _ die s 0)) (refl d1))) d

theorem buildLists (die : Nat) : Boots d (d.buildLists die) := by
  refine foldl (fun d1 r _ => ?_) d
  extract_lets put d2
  exact ite (of_regs rfl rfl) (of_regs rfl rfl)

theorem opStart (die : Nat) : Boots d (d.opStart die) := by
  unfold Dev.opStart
  refine ite ?_ (refl d)
  have h1 : Boots d ((d.setRegFld .pwrDieOp [die] 11 11 0).setRegFld .pwrDieOp [die] 10 8 (d.opPick 0)) :=
    (setRegFld d (by decide) (by decide) ..).trans (setRegFld _ (by decide) (by decide) ..)
  refine h1.trans ?_
  generalize (d.setRegFld .pwrDieOp [die] 11 11 0).setRegFld .pwrDieOp [die] 10 8 (d.opPick 0) = d1
  exact of_regs rfl rfl

/-- A ring pair without a module is a cause; only the IOD's edge would fence the die. -/
theorem edgeCheck {die site r : Nat} (hf : siteFacing die site = some r) (hr : r ≠ 8) : Boots d (d.edgeCheck die site) := by
  unfold Dev.edgeCheck
  rw [hf]
  exact ite (refl d) (by rw [if_neg hr]; exact datDieCause d ..)

theorem ringCheck (die : Nat) : Boots d (d.ringCheck die) := by
  refine foldl (fun d1 r hr => ?_) d
  have h8 : r ≠ 8 := by
    simp only [List.mem_cons, List.not_mem_nil, or_false] at hr
    omega
  split
  next s hs =>
    have hf : siteFacing die s = some r := by simpa using List.find?_some hs
    exact ite (edgeCheck d1 hf h8) (refl d1)
  next => exact refl d1

theorem linkUp (die : Nat) (f : LinkUpFind) (later : Bool) : Boots d (d.linkUp die f later) := by
  unfold Dev.linkUp
  refine ite (linkUpFailed d die _ _) ?_
  split
  · exact linkUpFailed d die _ _
  · refine ite (linkUpFailed d die _ _) ?_
    extract_lets d1
    have h1 : Boots d d1 := ((writeCaps d die _).trans (trainAll _ die _ _)).trans (buildLists _ die)
    refine h1.trans (ite (linkUpFailed d1 die _ _) ?_)
    exact (((modDie d1 die _).trans (setReg _ (by decide) (by decide) ..)).trans (opStart _ die)).trans (ringCheck _ die)

theorem intersect : Boots d d.intersect :=
  ((setReg d (by decide) (by decide) ..).trans (setReg _ (by decide) (by decide) ..)).trans (setReg _ (by decide) (by decide) ..)

theorem bootDies (f : BootFind) : Boots d (d.bootDies f) :=
  ((foldl (fun d1 i _ => (modDie d1 i _).trans (linkUp _ i _ false)) d).trans (intersect _)).trans (foldl (fun d1 i _ => opStart d1 i) _)

end Boots

namespace Boots

theorem slices_eq {d d' : Dev} (h : Boots d d') : d'.slices = d.slices :=
  show d'.tracked.slices = d.tracked.slices by rw [h.1]
theorem hbm_eq {d d' : Dev} (h : Boots d d') : d'.hbm = d.hbm := show d'.tracked.hbm = d.tracked.hbm by rw [h.1]

variable (d : Dev)

/-! ### The window table (R298, R299, R466) -/

theorem winRefuse (e why addr : Nat) : Boots d (d.winRefuse e why addr) := by
  unfold Dev.winRefuse
  extract_lets d1
  have h1 : Boots d d1 := ite (refl d) (setReg d (by decide) (by decide) ..)
  exact h1.trans (report d1 _)

theorem powerOn (die : Nat) : Boots d (d.powerOn die) :=
  ite ((modDie d die _).trans (setRegBit _ (by decide) (by decide) ..)) (refl d)

theorem winBusy (e base size : Nat) : Boots d (d.winBusy e base size) :=
  (setRegBit d (r := .hbmWinState) (by decide) (by decide) [e] 1).trans (of_regs rfl rfl)

theorem winSet (e base sizem1 : Nat) (boot : Bool) : Boots d (d.winSet e base sizem1 boot) := by
  unfold Dev.winSet
  extract_lets w
  refine ite (winRefuse d ..) ?_
  split
  · exact winRefuse d ..
  · exact ((setReg d (by decide) (by decide) ..).trans (winBusy _ ..)).trans (foldl (fun d1 i _ => powerOn d1 i) _)

variable {d} (hs : d.slices = ⟨[]⟩) (hh : d.hbm = ⟨[]⟩)

include hh in
/-- Memory that lists nothing still lists nothing once a window has been zeroed. -/
theorem zeroWindow (w : Win) : Boots d (d.zeroWindow w) := by
  refine List.foldlRecOn (motive := Boots d) _ _ (refl d) fun d1 h i _ => h.trans (of_regs ?_ rfl)
  have hclear (p : Nat → Bool) : d1.hbm.clearIf p = d1.hbm := by rw [h.hbm_eq, hh]; rfl
  simp only [Dev.tracked, hclear]

include hs hh

/-- With no line cached the flush of an entry's range has nothing to write back. -/
theorem winEnd (e : Nat) : Boots d (d.winEnd e) := by
  unfold Dev.winEnd
  split
  · exact refl d
  refine ite (refl d) ?_
  rw [hs]
  change Boots d (let w := d.win e
    let d2 := if w.valid then d.zeroWindow w else d
    { d2.clrRegBit .hbmWinState [e] 1 with winFlush := d2.winFlush.erase e })
  extract_lets w d2
  have h2 : Boots d d2 := ite (zeroWindow hh w) (refl d)
  exact (h2.trans (setRegFld d2 (r := .hbmWinState) (by decide) (by decide) [e] 1 1 0)).trans (of_regs rfl rfl)

theorem bootWindow (e base size : Nat) (cfg : W32) : ∀ d1 ∈ d.bootWindow e base size cfg, Boots d d1 := by
  intro d1 h
  unfold Dev.bootWindow at h
  extract_lets d0 at h
  have h0 : Boots d d0 := setReg d (by decide) (by decide) ..
  split at h
  · exact absurd h (by simp)
  · have hset := h0.trans (winSet d0 e base (size - 1) true)
    have hend := winEnd (d := d0.winSet e base (size - 1) true) (hset.slices_eq.trans hs) (hset.hbm_eq.trans hh) e
    rw [Option.mem_some_iff] at h
    exact h ▸ hset.trans hend

/-! ### The boot configuration (R465, R466) -/

theorem applyConfig (r : List Byte) : ∀ d1 ∈ d.applyConfig r, Boots d d1 := by
  unfold Dev.applyConfig
  split
  · simp
  extract_lets nw d1 d2
  have h1 : Boots d d1 := (setRegFld d (by decide) (by decide) ..).trans (setRegFld _ (by decide) (by decide) ..)
  have h2 : Boots d d2 := h1.trans (foldl (fun d1 e _ => (setReg d1 (by decide) (by decide) ..).trans (setReg _ (by decide) (by decide) ..)) d1)
  refine List.foldlRecOn (motive := fun o => ∀ d3 ∈ o, Boots d d3) _ _ (fun d3 h => ?_) fun o h i _ d4 hd4 => ?_
  · rw [Option.mem_some_iff] at h
    exact h ▸ h2
  · obtain ⟨d3, hd3, hw⟩ := Option.bind_eq_some_iff.mp hd4
    have h3 := h d3 hd3
    exact h3.trans (bootWindow (h3.slices_eq.trans hs) (h3.hbm_eq.trans hh) _ _ _ _ d4 hw)

theorem defaultConfig : Boots d d.defaultConfig := by
  unfold Dev.defaultConfig
  refine Boots.trans ?_ (setStatus _ 27)
  cases e : d.bootWindow 0 1008 16 (cfgWinWord 0 0 0 108 1) with
  | none => exact refl d
  | some d1 => exact bootWindow hs hh _ _ _ _ d1 e

theorem bootConfig (b bad : Bool) : Boots d (d.bootConfig b bad) := by
  unfold Dev.bootConfig
  split
  · exact defaultConfig hs hh
  next i _ =>
    split
    next d1 h =>
      cases bad with
      | true => exact absurd h (by simp)
      | false => exact applyConfig hs hh _ d1 h
    next =>
      have hc := secCause d 0x8101 0 (slotBase b + i.off)
      exact hc.trans (defaultConfig (hc.slices_eq.trans hs) (hc.hbm_eq.trans hh))

end Boots

namespace Boots

variable (d : Dev)

/-! ### The ports (R369) -/

theorem routeAround : Boots d d.routeAround := by
  refine foldl (fun d1 i _ => foldl (fun d2 c _ => ?_) d1) d
  extract_lets s up
  refine ite (refl d2) ?_
  obtain ⟨q, ps, o, e⟩ := d2.resend_shape i c
  rw [e]
  exact of_regs rfl rfl

theorem portOff (p st why : Nat) : Boots d (d.portOff p st why) := by
  unfold Dev.portOff
  extract_lets was d1
  have h1 : Boots d d1 := of_regs rfl rfl
  exact ite (h1.trans (routeAround d1)) h1

theorem portCause (p code bit : Nat) : Boots d (d.portCause p code bit) := raise d (by decide) (by decide) ..

theorem portStart (p : Nat) : Boots d (d.portStart p) :=
  ite (refl d) (ite ((portOff d p 1 1).trans (portCause _ p _ _)) (ite (refl d) (ite ((portOff d p 1 3).trans (portCause _ p _ _)) (portOff d p 2 0))))

end Boots

/-! ### The slots of the flash (R470) -/

theorem Flash.slot_setSlot (f : Flash) (b : Bool) (x : FwSlot) : (f.setSlot b x).slot b = x := by cases b <;> rfl
theorem Flash.slot_setSlot_not (f : Flash) (b : Bool) (x : FwSlot) : (f.setSlot b x).slot (!b) = f.slot (!b) := by cases b <;> rfl

/-- Of the slots, only `b`'s state differs. -/
def SlotState (b : Bool) (f f' : Flash) : Prop := (f'.slot b).imgs = (f.slot b).imgs ∧ f'.slot (!b) = f.slot (!b)

theorem SlotState.trans {b : Bool} {f g h : Flash} (k : SlotState b f g) (l : SlotState b g h) : SlotState b f h :=
  ⟨l.1.trans k.1, l.2.trans k.2⟩

theorem SlotState.setSlotSt (d : Dev) (b : Bool) (st : Nat) : SlotState b d.flash (d.setSlotSt b st).flash :=
  ⟨by rw [Dev.setSlotSt, Flash.slot_setSlot], Flash.slot_setSlot_not ..⟩

/-! ### The end of a boot (R460, R467) -/

/-- What a cold boot starts from but for its board and flash. -/
def Dev.bare (d : Dev) : Dev := { d.tracked with board := {}, flash := {} }

theorem Boots.bare_eq {d d' : Dev} (h : Boots d d') : d'.bare = d.bare := by rw [Dev.bare, Dev.bare, h.1]

/-- The boot lock is taken: the device runs, and slot `b` is the booted one and GOOD. -/
def Booted (b : Bool) (d d' : Dev) : Prop :=
  d'.bare = d.bare ∧ d'.board = { d.board with booted := some b, bootWait := none } ∧ d'.live = true ∧
    ((d'.flash.slot b).st = 2 ∧ SlotState b d.flash d'.flash) ∧ d'.regBit .secLock [] 0 = true ∧ d'.regBit .drwCfg [] 31 = true ∧
    (d.regBit .secStatus [] 29 = true → d'.regBit .secStatus [] 29 = true)

theorem Boots.flash_eq {d d' : Dev} (h : Boots d d') : d'.flash = d.flash := show d'.tracked.flash = d.tracked.flash by rw [h.1]
theorem Boots.board_eq {d d' : Dev} (h : Boots d d') : d'.board = d.board := show d'.tracked.board = d.tracked.board by rw [h.1]
theorem Boots.halted_eq {d d' : Dev} (h : Boots d d') : d'.halted = d.halted := show d'.tracked.halted = d.tracked.halted by rw [h.1]
theorem Boots.tripped_eq {d d' : Dev} (h : Boots d d') : d'.tripped = d.tripped := show d'.tracked.tripped = d.tracked.tripped by rw [h.1]

/-- The locks that a boot takes. -/
def Dev.takeLocks (d : Dev) : Dev := ((d.setRegBit .secStatus [] 31).setRegBit .secLock [] 0).setRegBit .drwCfg [] 31

theorem Boots.takeLocks (d : Dev) : Boots d d.takeLocks :=
  ((Boots.setStatus d 31).trans (Boots.setRegBit _ (by decide) (by decide) ..)).trans (Boots.setRegBit _ (by decide) (by decide) ..)

theorem Dev.live_takeLocks {d : Dev} (hh : d.halted = false) (ht : d.tripped = false) : d.takeLocks.live = true := by
  have h : (d.setRegBit .secStatus [] 31).live = true := by
    rw [Dev.live_eq, d.regBit_setRegBit .secStatus [] (by decide)]
    change (true && !d.halted && !d.tripped) = true
    rw [hh, ht]
    rfl
  rw [Dev.takeLocks, Dev.live_setRegBit _ (by decide) (by decide), Dev.live_setRegBit _ (by decide) (by decide), h]

theorem Dev.regBit_takeLocks (d : Dev) : d.takeLocks.regBit .secLock [] 0 = true ∧ d.takeLocks.regBit .drwCfg [] 31 = true := by
  refine ⟨?_, Dev.regBit_setRegBit _ .drwCfg [] (by decide)⟩
  have hother : d.takeLocks.reg .secLock [] = ((d.setRegBit .secStatus [] 31).setRegBit .secLock [] 0).reg .secLock [] :=
    Dev.reg_setReg_other _ (by decide) _
  rw [Dev.regBit, hother]
  exact Dev.regBit_setRegBit _ .secLock [] (by decide)

theorem Dev.bootFinish_booted {d : Dev} (hs : d.slices = ⟨[]⟩) (hh : d.hbm = ⟨[]⟩) (hhalt : d.halted = false) (htrip : d.tripped = false)
    (b bad refclk : Bool) : Booted b d (d.bootFinish b bad refclk) := by
  unfold Dev.bootFinish
  extract_lets d1 d2 d3 d4
  have h1 : Boots d d1 := Boots.bootConfig hs hh b bad
  have h3 : Boots d d3 := (h1.trans (Boots.setRegFld d1 (by decide) (by decide) ..)).trans (Boots.foldl (fun d p _ => Boots.portStart d p) d2)
  clear_value d3
  have hlock : Boots d d3.takeLocks := h3.trans (Boots.takeLocks d3)
  have hd4 : d4 = d3.takeLocks.setSlotSt b 2 := rfl
  have hbare : d4.bare = d.bare := hlock.bare_eq
  have hboard : d4.board = d.board := hlock.board_eq
  have hlive : d4.live = true :=
    (Dev.live_congr (d := d3.takeLocks) rfl rfl rfl).trans (Dev.live_takeLocks (h3.halted_eq.trans hhalt) (h3.tripped_eq.trans htrip))
  have hbits : d4.regBit .secLock [] 0 = true ∧ d4.regBit .drwCfg [] 31 = true := hd4 ▸ d3.regBit_takeLocks
  have hident : d.regBit .secStatus [] 29 = true → d4.regBit .secStatus [] 29 = true := hd4 ▸ hlock.2
  have hslot : (d4.flash.slot b).st = 2 ∧ SlotState b d.flash d4.flash := by
    rw [hd4, ← hlock.flash_eq]
    refine ⟨?_, SlotState.setSlotSt d3.takeLocks b 2⟩
    rw [Dev.setSlotSt, Flash.slot_setSlot]
  clear_value d4
  have htrims (c : Bool) : (if d4.regBit .secStatus [] 28 then { d4.flash with trims := d4.flash.trimsBackup } else d4.flash).slot c = d4.flash.slot c := by
    split
    · cases c <;> rfl
    · rfl
  refine ⟨hbare, hboard ▸ rfl, hlive, ⟨?_, ?_, ?_⟩, hbits.1, hbits.2, hident⟩
  · exact (congrArg FwSlot.st (htrims b)).trans hslot.1
  · exact (congrArg FwSlot.imgs (htrims b)).trans hslot.2.1
  · exact (htrims (!b)).trans hslot.2.2

/-! ### The recovery state (R461) -/

/-- What the stop of the device does to one die. -/
def Dev.stopDie (d : Dev) (i : Nat) : Dev := (d.modDie i fun x => { x with st := 0, stopped := true }).setReg .pwrDieDom [i] domAllOff

theorem Dev.stopDevice_eq (d : Dev) : d.stopDevice = (List.range 8).foldl Dev.stopDie d := rfl

/-- A die that is stopped, or was OFF, is OFF. -/
theorem Dev.stopDies_off (is : List Nat) (d : Dev) {i : Nat} (h : i ∈ is ∨ (d.die i).st = 0) : ((is.foldl Dev.stopDie d).die i).st = 0 := by
  induction is generalizing d with
  | nil => exact h.resolve_left List.not_mem_nil
  | cons j is ih =>
    refine ih (d.stopDie j) ?_
    by_cases hij : i = j
    · exact .inr (hij ▸ congrArg Die.st (d.die_setDie j _))
    · have hother : (d.stopDie j).die i = d.die i := SMap.getD_set_other _ hij ..
      rw [hother]
      exact h.imp (fun hm => (List.mem_cons.mp hm).resolve_left hij) id

/-- Only dies and registers change, none of them one of the security core's. -/
theorem Dev.stopDevice_shape (d : Dev) : ∃ ds rs, d.stopDevice = { d with dies := ds, regs := rs } ∧ d.stopDevice.live = d.live ∧
    d.stopDevice.reg .secErrStatus [] = d.reg .secErrStatus [] := by
  rw [Dev.stopDevice_eq]
  refine List.foldlRecOn (motive := fun d1 : Dev => ∃ ds rs, d1 = { d with dies := ds, regs := rs } ∧ d1.live = d.live ∧
    d1.reg .secErrStatus [] = d.reg .secErrStatus []) _ _ ⟨d.dies, d.regs, rfl, rfl, rfl⟩ fun d1 h i _ => ?_
  obtain ⟨ds, rs, e, hl, hr⟩ := h
  have haddr : RegName.secErrStatus.addr [] ≠ RegName.pwrDieDom.addr [i] := by
    change 0x2C ≠ 0x400108 + 16 * i
    omega
  refine ⟨(d1.stopDie i).dies, (d1.stopDie i).regs, ?_, ?_, (Dev.reg_setReg_other (d1.modDie i _) haddr _).trans hr⟩
  · rw [e]
    rfl
  · exact (Dev.live_setReg (d1.modDie i _) (by decide) (by decide) ..).trans hl

/-- A device that does not run enters the recovery state. -/
theorem Dev.recover_recovered {d : Dev} (hl : d.live = false) :
    d.recover.regBit .secStatus [] 26 = true ∧ d.recover.live = false ∧ (∀ i < 8, (d.recover.die i).st = 0) ∧
      d.recover.reg .secErrStatus [] = d.reg .secErrStatus [] ∧ d.recover.board = d.board ∧ d.recover.reports = d.reports ∧
      d.recover.flash = d.flash ∧ d.recover.evlog = d.evlog := by
  obtain ⟨ds, rs, e, hlive, hr⟩ := d.stopDevice_shape
  refine ⟨Dev.regBit_setRegBit _ .secStatus [] (by decide), ?_, fun i hi => ?_, ?_, ?_, ?_, ?_, ?_⟩
  · rw [Dev.recover, Dev.live_setRegBit_secStatus _ (by decide), hlive, hl]
  · exact Dev.stopDies_off (List.range 8) d (.inl (List.mem_range.mpr hi))
  · exact (Dev.reg_setReg_other d.stopDevice (by decide) _).trans hr
  all_goals
    rw [Dev.recover, e]
    rfl

/-! ### The choice of a slot (R470, R472) -/

/-- The choice looks at the flash alone. -/
theorem Dev.firstSlot_congr {d d' : Dev} (h : d'.flash = d.flash) (f : BootFind) : d'.firstSlot f = d.firstSlot f := by
  have hc (b : Bool) : d'.candidate f b = d.candidate f b := by rw [Dev.candidate, Dev.candidate, h]
  simp only [Dev.firstSlot, hc, h]

theorem Dev.chooseSlot_none {d : Dev} {f : BootFind} (h : d.firstSlot f = none) : d.chooseSlot f = (d, none) := by
  rw [Dev.chooseSlot, h]

/-- The first candidate as it is tried: a PENDING slot counts as FAILED from the start. -/
def Dev.tried (d : Dev) (b : Bool) : Dev := if (d.flash.slot b).st = 1 then d.setSlotSt b 3 else d

/-- Where no image fails the first candidate boots. -/
theorem Dev.chooseSlot_first {d : Dev} {f : BootFind} {b : Bool} (h : d.firstSlot f = some b) (hbad : f.bad = []) :
    d.chooseSlot f = (d.tried b, some b) := by
  have htry : d.trySlot f b = (d.tried b, true) := by
    unfold Dev.trySlot
    extract_lets x d1
    have hnone : (x.imgs.find? fun i => decide (1 ≤ i.ty) && decide (i.ty ≤ 5) && f.bad.contains (b, i.ty)) = none := by simp [hbad]
    rw [hnone]
    rfl
  rw [Dev.chooseSlot, h]
  simp only [htry]

theorem Dev.tried_spec (d : Dev) (b : Bool) :
    (d.tried b).bare = d.bare ∧ (d.tried b).board = d.board ∧ (d.tried b).regs = d.regs ∧ SlotState b d.flash (d.tried b).flash := by
  unfold Dev.tried
  split
  · exact ⟨rfl, rfl, rfl, SlotState.setSlotSt d b 3⟩
  · exact ⟨rfl, rfl, rfl, rfl, rfl⟩

/-! ### A cold boot (R24, R447, R459, R460) -/

/-- The switch has closed on a device without state. -/
def Dev.switchedOn (d : Dev) (f : BootFind) : Dev :=
  let d0 := d.powerLost
  { d0 with board := { d0.board with
      swOn := true, ovTrip := d0.board.ovTrip && !f.xtal, brownOut := d0.board.brownOut && !f.xtal
      cables := d0.board.cables.mapVals fun _ c => { c with supply := c.mated && !c.latched } } }

/-- The input controller's latches have been reported. -/
def Dev.coldStart (d : Dev) (f : BootFind) : Dev :=
  let d1 := d.switchedOn f
  let d2 := if d.board.ovTrip && f.xtal then d1.modCause7 0x7C05 0 else d1
  if d.board.brownOut && f.xtal then d2.pwrCause 0x7102 1 0 else d2

theorem Dev.coldBoot_eq (d : Dev) (f : BootFind) : d.coldBoot f = (d.coldStart f).bootRun f true := rfl

theorem Dev.coldStart_boots (d : Dev) (f : BootFind) : Boots (d.switchedOn f) (d.coldStart f) := by
  unfold Dev.coldStart
  extract_lets d1 d2
  have h2 : Boots d1 d2 := Boots.ite (Boots.modCause7 d1 _ _) (Boots.refl d1)
  exact h2.trans (Boots.ite (Boots.pwrCause d2 _ _ _) (Boots.refl d2))

theorem Dev.live_coldStart (d : Dev) (f : BootFind) : (d.coldStart f).live = false := by
  unfold Dev.coldStart
  extract_lets d1 d2
  have h1 : d1.live = false := Dev.live_powerLost d
  have h2 : d2.live = false := Dev.live_ite ((Dev.live_modCause7 d1 ..).trans h1) h1
  exact Dev.live_ite ((Dev.live_pwrCause d2 ..).trans h2) h2

/-- Without the crystal's reference the latches stay unreported. -/
theorem Dev.coldStart_noXtal (d : Dev) {f : BootFind} (h : f.xtal = false) : d.coldStart f = d.switchedOn f := by
  simp [Dev.coldStart, h]

theorem Dev.regBit_of_regs {d d' : Dev} (h : d'.regs = d.regs) {r : RegName} {ix : List Nat} {i : Nat} : d'.regBit r ix i = d.regBit r ix i := by
  have e : d'.reg r ix = d.reg r ix := Dev.reg_congr (by rw [h])
  rw [Dev.regBit, e, Dev.regBit]

/-- The rest of a boot whose images verify, up to its configuration (R460). -/
theorem Dev.bootRun_chosen {d : Dev} {f : BootFind} {b : Bool} (hx : f.xtal = true) (hl : f.layout = true) (hi : f.identity = true)
    (ht : f.trims = 0) (hbad : f.bad = []) (hslot : d.firstSlot f = some b) :
    ∃ d1 : Dev, d.bootRun f true = d1.bootFinish b false f.refclk ∧ d1.bare = d.bare ∧ d1.board = d.board ∧ SlotState b d.flash d1.flash ∧
      d1.regBit .secStatus [] 29 = true := by
  unfold Dev.bootRun
  rw [if_neg (by simp [hx]), if_neg (by simp [hl])]
  extract_lets d0
  have hd0 : d0 = d.setRegBit .secStatus [] 29 := by simp [d0, hi]
  have hident : Boots d d0 := hd0 ▸ Boots.setStatus d 29
  have hbit : d0.regBit .secStatus [] 29 = true := hd0 ▸ d.regBit_setRegBit .secStatus [] (by decide)
  clear_value d0
  have htrims : d0.bootTrims f = d0 := by rw [Dev.bootTrims, ht]
  rw [htrims, Dev.chooseSlot_first ((Dev.firstSlot_congr hident.flash_eq f).trans hslot) hbad]
  obtain ⟨htb, htboard, htr, htf⟩ := d0.tried_spec b
  have hdies := Boots.bootDies (d0.tried b) f
  refine ⟨(d0.tried b).bootDies f, by simp [hbad], ?_, ?_, ?_, hdies.2 ((Dev.regBit_of_regs htr).trans hbit)⟩
  · rw [hdies.bare_eq, htb, hident.bare_eq]
  · rw [hdies.board_eq, htboard, hident.board_eq]
  · rw [hdies.flash_eq, ← hident.flash_eq]
    exact htf

theorem Boots.evlog_eq {d d' : Dev} (h : Boots d d') : d'.evlog = d.evlog := show d'.tracked.evlog = d.tracked.evlog by rw [h.1]

/-- The trims leave the flash and the event log, and the device does not come to run. -/
theorem Dev.bootTrims_spec (d : Dev) (f : BootFind) :
    (d.bootTrims f).flash = d.flash ∧ (d.bootTrims f).evlog = d.evlog ∧ (d.bootTrims f).live = d.live := by
  have hcause := Boots.secCause d 0x8105 4 0x20000
  have hlive : (d.secCause 0x8105 4 0x20000).live = d.live := d.live_secCause ..
  unfold Dev.bootTrims
  split
  · exact ⟨rfl, rfl, rfl⟩
  · have h := hcause.trans (Boots.setStatus _ 28)
    exact ⟨h.flash_eq, h.evlog_eq, (Dev.live_setRegBit_secStatus _ (by decide)).trans hlive⟩
  · extract_lets d1
    exact ⟨hcause.flash_eq, hcause.evlog_eq, hlive⟩

/-- A boot that finds no candidate enters the recovery state. -/
theorem Dev.bootRun_noSlot {d : Dev} {f : BootFind} (hx : f.xtal = true) (hl : f.layout = true) (hslot : d.firstSlot f = none) :
    ∃ d1 : Dev, d.bootRun f true = d1.recover ∧ d1.live = d.live ∧ d1.evlog = d.evlog := by
  unfold Dev.bootRun
  rw [if_neg (by simp [hx]), if_neg (by simp [hl])]
  extract_lets d1
  have hd1 : d1.flash = d.flash ∧ d1.evlog = d.evlog ∧ d1.live = d.live := by
    have he : d1 = if f.identity then d.setRegBit .secStatus [] 29 else d.secCause 0x8104 3 0 := rfl
    rw [he]
    split
    · exact ⟨(Boots.setStatus d 29).flash_eq, (Boots.setStatus d 29).evlog_eq, d.live_setRegBit_secStatus (by decide)⟩
    · exact ⟨(Boots.secCause d ..).flash_eq, (Boots.secCause d ..).evlog_eq, d.live_secCause ..⟩
  obtain ⟨hf, he, hlive⟩ := hd1
  obtain ⟨hf', he', hlive'⟩ := d1.bootTrims_spec f
  rw [Dev.chooseSlot_none ((Dev.firstSlot_congr (hf'.trans hf) f).trans hslot)]
  exact ⟨_, rfl, hlive'.trans hlive, he'.trans he⟩

/-- What stands as the switch has closed: nothing but the flash, the event log and the board. -/
theorem Dev.bare_switchedOn (d : Dev) (f : BootFind) : (d.switchedOn f).bare = { evlog := d.evlog } := rfl

/-- A cold boot whose images verify: what its last steps find, and that they end it. -/
theorem Dev.coldBoot_booted {d : Dev} {f : BootFind} {b : Bool} (hx : f.xtal = true) (hl : f.layout = true) (hi : f.identity = true)
    (ht : f.trims = 0) (hbad : f.bad = []) (hslot : d.firstSlot f = some b) :
    ∃ d1 : Dev, Booted b d1 (d.coldBoot f) ∧ d1.bare = { evlog := d.evlog } ∧ d1.board = (d.switchedOn f).board ∧ SlotState b d.flash d1.flash ∧
      d1.regBit .secStatus [] 29 = true := by
  have hstart := d.coldStart_boots f
  have hflash0 : (d.coldStart f).flash = d.flash := hstart.flash_eq
  obtain ⟨d1, e, hb, hboard, hflash, hbit⟩ := Dev.bootRun_chosen hx hl hi ht hbad ((Dev.firstSlot_congr hflash0 f).trans hslot)
  have hbare : d1.bare = { evlog := d.evlog } := by rw [hb, hstart.bare_eq, Dev.bare_switchedOn]
  have hfield {α : Type} (g : Dev → α) : g d1.bare = g { evlog := d.evlog } := by rw [hbare]
  have hs : d1.slices = ⟨[]⟩ := hfield Dev.slices
  have hh : d1.hbm = ⟨[]⟩ := hfield Dev.hbm
  have hhalt : d1.halted = false := hfield Dev.halted
  have htrip : d1.tripped = false := hfield Dev.tripped
  rw [Dev.coldBoot_eq, e]
  exact ⟨d1, Dev.bootFinish_booted hs hh hhalt htrip b false f.refclk, hbare, hboard.trans hstart.board_eq, hflash0 ▸ hflash, hbit⟩

/-- The command of the start delay's end while it runs is a cold boot. -/
theorem completes_coldBoot {s : State} (h : s.dev.board.starting = true) (f : BootFind) : Completes (.inputSwitchCloseDelay f) s (s.dev.coldBoot f) := by
  have hc : exec (.inputSwitchCloseDelay f) s = s.run (inputSwitchCloseDelayEffect f) := rfl
  rw [Completes, hc, State.run, inputSwitchCloseDelayEffect, if_pos h]

/-- Settles O14: `Dev.coldBoot_booted` for the boot that succeeds, `Dev.recover_recovered` for the two that end in the recovery state,
`Dev.coldStart_noXtal` for the one that does not leave reset. -/
theorem coldBootOrRecovery : Obligations.ColdBootOrRecovery := by
  refine ⟨fun s f b hstart hx hl hi ht hbad hslot => ⟨_, completes_coldBoot hstart f, ?_⟩,
    fun s f hstart hx => ⟨fun hl => ⟨_, completes_coldBoot hstart f, ?_⟩, fun hl hslot => ⟨_, completes_coldBoot hstart f, ?_⟩⟩,
    fun s f hstart hx => ⟨_, completes_coldBoot hstart f, ?_⟩⟩
  · obtain ⟨d1, hbooted, hbare1, hboard1, hflash1, hbit1⟩ := Dev.coldBoot_booted hx hl hi ht hbad hslot
    generalize s.dev.coldBoot f = d' at *
    obtain ⟨hbare, hboard, hlive, ⟨hgood, himgs, hother⟩, hlock, hdrw, hident⟩ := hbooted
    have hfield {α : Type} (g : Dev → α) : g d'.bare = g { evlog := s.dev.evlog } := by rw [hbare, hbare1]
    have hpins {α : Type} (g : Board → α) : g d'.board = g { (s.dev.switchedOn f).board with booted := some b, bootWait := none } := by
      rw [hboard, hboard1]
    have hlatch (x : Bool) : (x && !f.xtal) = false := by simp [hx]
    have hmem : d'.hbm = ⟨[]⟩ := hfield Dev.hbm
    exact ⟨hlive, hpins Board.swOn, hpins Board.booted, hgood, himgs.trans hflash1.1, hother.trans hflash1.2, hlock, hdrw, hident hbit1,
      fun a => by rw [hmem]; rfl, hfield Dev.time, hfield Dev.queues, hfield Dev.slots, hfield Dev.benches, hfield Dev.evlog,
      (hpins Board.ovTrip).trans (hlatch _), (hpins Board.brownOut).trans (hlatch _), hpins Board.bootWait⟩
  · have hb := (s.dev.coldStart_boots f).trans (Boots.secCause (s.dev.coldStart f) 0x8107 6 0)
    have hlive : ((s.dev.coldStart f).secCause 0x8107 6 0).live = false := (Dev.live_secCause _ ..).trans (s.dev.live_coldStart f)
    have hbit : ((s.dev.coldStart f).secCause 0x8107 6 0).regBit .secErrStatus [] 6 = true :=
      (s.dev.coldStart f).regBit_setRegBit .secErrStatus [] (by decide)
    have hrep : ∃ r ∈ ((s.dev.coldStart f).secCause 0x8107 6 0).reports, r.code = 0x8107 ∧ r.master = 0xF818 :=
      ⟨_, List.mem_append_right _ List.mem_cons_self, rfl, rfl⟩
    obtain ⟨h26, hlive', hdies, herr, hboard, hreports, hflash, hevlog⟩ := Dev.recover_recovered hlive
    have hrun : s.dev.coldBoot f = ((s.dev.coldStart f).secCause 0x8107 6 0).recover := by
      rw [Dev.coldBoot_eq, Dev.bootRun, if_neg (by simp [hx]), if_pos (by simp [hl])]
    rw [hrun]
    refine ⟨h26, ?_, hlive', hdies, ?_, hreports ▸ hrep, hflash.trans hb.flash_eq, hevlog.trans hb.evlog_eq⟩
    · rw [Dev.regBit, herr]
      exact hbit
    · rw [hboard, hb.board_eq]
      rfl
  · have hb := s.dev.coldStart_boots f
    obtain ⟨d1, hrun, hlive, hevlog⟩ := Dev.bootRun_noSlot hx hl ((Dev.firstSlot_congr hb.flash_eq f).trans hslot)
    obtain ⟨h26, hlive', hdies, -, -, -, -, hev⟩ := Dev.recover_recovered (hlive.trans (s.dev.live_coldStart f))
    rw [Dev.coldBoot_eq, hrun]
    exact ⟨h26, hlive', hdies, hev.trans (hevlog.trans hb.evlog_eq)⟩
  · have hrun : s.dev.coldBoot f =
        { s.dev.switchedOn f with board := { (s.dev.switchedOn f).board with xtalBad := true } } := by
      rw [Dev.coldBoot_eq, s.dev.coldStart_noXtal hx, Dev.bootRun, if_pos (by simp [hx])]
    have hlatch (x : Bool) : (x && !f.xtal) = x := by simp [hx]
    rw [hrun]
    exact ⟨Dev.live_powerLost s.dev, rfl, rfl, fun _ _ => rfl, hlatch _, hlatch _, rfl, rfl⟩

end Sys2Proof.Machine

/-! The numeric flags of a dressing (R95, R97, R105): a NaN among the rough sums sets MRT_NUM_FLAGS.NAN, and the device keeps a flag that it
sets among the bits set in the present tick (R8). -/

namespace Sys2Proof.Machine
open Host

/-- A command has one outcome. -/
theorem completes_unique {c : Instr} {s : State} {d d' : Dev} (h : Completes c s d) (h' : Completes c s d') : d = d' :=
  congrArg State.dev (Outcome.next.inj (h.symm.trans h'))

/-- What one element of a list establishes, and every element keeps, holds at the end of a fold. -/
theorem foldl_holds_of_mem {α β : Type} {P : β → Prop} {f : β → α → β} {x : α} {xs : List α} (hx : x ∈ xs) (make : ∀ a, P (f a x))
    (keep : ∀ a y, P a → P (f a y)) (a : β) : P (xs.foldl f a) := by
  obtain ⟨pre, post, rfl⟩ := List.append_of_mem hx
  rw [List.foldl_append, List.foldl_cons]
  exact List.foldlRecOn post f (make _) fun b hb y _ => keep b y hb

/-! ### The flags that a dressing finds -/

/-- A dressing clears no flag (R105). -/
theorem dressElem_keeps_flag {x : Dressed} {i : Nat} (h : x.flags.testBit i = true) (r : Rough) (e : Int) (sigma : Nat) :
    (dressElem x r e sigma).flags.testBit i = true := by
  cases ht : r.tag <;> simp [dressElem, ht, Nat.testBit_or, h]

/-- A rough sum that is a NaN sets NAN (R95). -/
theorem dressElem_nan {r : Rough} (h : r.tag = .nan) (x : Dressed) (e : Int) (sigma : Nat) :
    (dressElem x r e sigma).flags.testBit 0 = true := by
  simp [dressElem, h, nfNan]

/-- The rough sums of one element, dressed in order onto S, C and the flags so far. -/
def dressSums (sigma : Nat) (x : Dressed) (rs : List (Rough × Int)) : Dressed := rs.foldl (fun q re => dressElem q re.1 re.2 sigma) x

theorem dressSums_keeps_flag {x : Dressed} {i : Nat} (h : x.flags.testBit i = true) (sigma : Nat) (rs : List (Rough × Int)) :
    (dressSums sigma x rs).flags.testBit i = true :=
  List.foldlRecOn (motive := fun q : Dressed => q.flags.testBit i = true) rs _ h fun _ hq re _ => dressElem_keeps_flag hq re.1 re.2 sigma

theorem dressSums_nan {rs : List (Rough × Int)} {re : Rough × Int} (hre : re ∈ rs) (h : re.1.tag = .nan) (sigma : Nat) (x : Dressed) :
    (dressSums sigma x rs).flags.testBit 0 = true :=
  foldl_holds_of_mem (P := fun q : Dressed => q.flags.testBit 0 = true) hre (fun q => dressElem_nan h q re.2 sigma)
    (fun _ y hq => dressElem_keeps_flag hq y.1 y.2 sigma) x

/-- One element of a dressing, written into a set whose dressing has found the flags `a.2`. -/
def dressOne (sigma : Nat) (a : GData × Nat) (x : Nat × List (Rough × Int)) : GData × Nat :=
  let r := dressSums sigma ⟨(gElem a.1 x.1).1, (gElem a.1 x.1).2, a.2⟩ x.2
  (setLaneN (setLaneN a.1 32 (2 * x.1) r.s) 32 (2 * x.1 + 1) r.c, r.flags)

theorem dressAll_eq_foldl (g : GData) (xs : List (Nat × List (Rough × Int))) (sigma : Nat) :
    dressAll g xs sigma = xs.foldl (dressOne sigma) (g, 0) := rfl

/-- A dressing with a NaN among its rough sums finds NAN. -/
theorem dressAll_nan {xs : List (Nat × List (Rough × Int))} {x : Nat × List (Rough × Int)} {re : Rough × Int} (hx : x ∈ xs) (hre : re ∈ x.2)
    (h : re.1.tag = .nan) (g : GData) (sigma : Nat) : (dressAll g xs sigma).2.testBit 0 = true := by
  rw [dressAll_eq_foldl]
  exact foldl_holds_of_mem (P := fun a : GData × Nat => a.2.testBit 0 = true) hx (fun a => dressSums_nan hre h sigma _)
    (fun a y ha => dressSums_keeps_flag ha sigma y.2) (g, 0)

/-! ### What becomes of the flags -/

/-- Flags that are found stand among the bits set in the present tick (R8, R105). -/
theorem Dev.freshBits_numFlags (d : Dev) (b : Nat) {fl : Nat} (h : fl ≠ 0) :
    (d.numFlags b fl).freshBits .mrtNumFlags [b] = d.freshBits .mrtNumFlags [b] ||| BitVec.ofNat 32 fl := by
  simp [Dev.numFlags, h, Dev.orReg, Dev.freshBits]

/-- The dressing that is due is written once its set may take it, and its flags are set (R74, R95, R105). -/
theorem dressingEffect_written {d : Dev} {b : Nat} {x : MDress} {k : Bool} {bn : Bench} (hdie : d.dieRuns (dieOf b) = true)
    (hrun : (d.bench b).running = true) (hdue : (d.bench b).mortise.due = some x) (hset : (d.bench b).dressSet x = some (k, bn)) :
    dressingEffect b none d = (d.setBench b (bn.dressed x k (dressAll (bn.mortise.gset k).data x.elems x.sigma.toNat).1)).numFlags b
      (dressAll (bn.mortise.gset k).data x.elems x.sigma.toNat).2 := by
  simp [dressingEffect, hdie, hrun, hdue, hset]

/-- A dressing with a NaN leaves NAN among the bits set in the present tick. -/
theorem dressingEffect_nan_fresh {d : Dev} {b : Nat} {x : MDress} {y : Nat × List (Rough × Int)} {re : Rough × Int}
    (hdie : d.dieRuns (dieOf b) = true) (hrun : (d.bench b).running = true) (hdue : (d.bench b).mortise.due = some x)
    (hset : ((d.bench b).dressSet x).isSome = true) (hy : y ∈ x.elems) (hre : re ∈ y.2) (hnan : re.1.tag = .nan) :
    ((dressingEffect b none d).freshBits .mrtNumFlags [b]).getLsbD 0 = true := by
  obtain ⟨⟨k, bn⟩, hset⟩ := Option.isSome_iff_exists.1 hset
  have hbit := dressAll_nan hy hre hnan (bn.mortise.gset k).data x.sigma.toNat
  have hne : (dressAll (bn.mortise.gset k).data x.elems x.sigma.toNat).2 ≠ 0 := fun h0 => by simp [h0] at hbit
  rw [dressingEffect_written hdie hrun hdue hset, Dev.freshBits_numFlags _ _ hne, BitVec.getLsbD_or, BitVec.getLsbD_ofNat, hbit]
  simp

/-! ### A dressing that the statement's frame does not allow -/

/-- The dressing that a FOLD of 4 × 4 × 4 elements leaves due where every element of A is a NaN: one tile, MW shape, FP32 output, σ = 1. -/
def nanDress : MDress :=
  { elems := (List.range 16).map fun n => (32 * (n / 4) + n % 4, [(⟨0, .nan⟩, 0)])
    sigma := 0x3F800000
    tile := { chained := false, out := 1, vrows := 4, vcols := 4, last := true, cont := false }
    seq := 1
    tileDone := true }

/-- A running device on whose bench 0 that FOLD has ended. -/
def nanDressDev : Dev :=
  { board := { swOn := true, mated := true, risen := true, booted := some false }
    dies := ⟨(List.range 8).map fun i => (i, { st := 2 })⟩
    regs := SMap.set ⟨[]⟩ (RegName.secStatus.addr []) 0x80000000#32
    benches := SMap.set ⟨[]⟩ 0
      { running := true
        ctxs := SMap.set ⟨[]⟩ 0 { valid := true, partSize := 1, istrSize := 1, seq := 1, idle := false }
        mortise := { due := some nanDress, gap := some 0 } } }

/-- Refutes O40: the clause on a dressing says that no part of the device but the benches and the registers differs afterwards. A dressing that
meets a NaN sets MRT_NUM_FLAGS.NAN (R105), and with it the bit among those set in the present tick (R8), which are no registers. -/
theorem not_mortiseEngine : ¬ Obligations.MortiseEngine := by
  unfold Obligations.MortiseEngine
  intro h
  have hlive : nanDressDev.live = true := by decide
  have hdie : nanDressDev.dieRuns (dieOf 0) = true := by decide
  have hfresh : nanDressDev.freshBits .mrtNumFlags [0] = 0 := by decide
  obtain ⟨-, -, -, -, -, -, -, -, hdress, -, -⟩ := h { pending := [], dev := nanDressDev } 0 hlive hdie rfl
  obtain ⟨-, htakes⟩ := hdress nanDress rfl
  obtain ⟨-, d', hd', ⟨⟨hframe, -⟩, -⟩⟩ := htakes false (.inr (.inr ⟨rfl, rfl, rfl, rfl⟩))
  have heff : d' = dressingEffect 0 none nanDressDev := completes_unique hd' (completes_of_runLive rfl hlive)
  have hsame : d'.freshBits .mrtNumFlags [0] = nanDressDev.freshBits .mrtNumFlags [0] := by rw [hframe]; rfl
  have hnan : (d'.freshBits .mrtNumFlags [0]).getLsbD 0 = true := by
    rw [heff]
    exact dressingEffect_nan_fresh (x := nanDress) hdie rfl rfl rfl List.mem_cons_self List.mem_cons_self rfl
  rw [hsame, hfresh] at hnan
  exact absurd hnan (by decide)

end Sys2Proof.Machine

/-! A command that a queue runs, and its completion record in a ring of host memory (R311, R313, R329, R339). -/

namespace Sys2Proof.Machine
open Host

/-! ### A command that runs, and its record in host memory -/

/-- A command that has not ended and awaits no host data is carried on. -/
theorem Dev.withCmd_run {d : Dev} {q op : Nat} {c : Cmd} (hrun : (d.queue q).run = some c) (hop : c.op = op) (hfin : c.fin = none)
    (hhost : c.host = none) (f : Cmd → Dev) : d.withCmd q op f = f c := by
  simp [Dev.withCmd, hrun, hop, hfin, hhost]

/-- A write that one request can carry leaves as one (R339). -/
theorem Dev.hostWrite_one {d : Dev} {f a : Nat} {bs : List Byte} (hd3 : (d.fn f).d3 = false) (hne : bs ≠ [])
    (hfit : bs.length ≤ tlpLen (128 * 2 ^ (d.fn f).mps.val) a bs.length) (ro : Bool) : d.hostWrite f a bs ro = d.emit (.hostWrite f a bs ro) := by
  have hend (n : Nat) (d : Dev) (a : Nat) : Dev.hostSend f ro n d a [] = d := by cases n <;> simp [Dev.hostSend]
  cases bs with
  | nil => contradiction
  | cons b bs =>
    rw [Dev.hostWrite, hd3, if_neg Bool.false_ne_true, List.length_cons, Dev.hostSend]
    dsimp only
    rw [List.take_of_length_le hfit, List.drop_of_length_le hfit, hend]
    rfl

/-- A completion record has 32 bytes (R329). -/
@[simp] theorem Dev.record_length (d : Dev) (q : Nat) (c : Cmd) (status info : Nat) : (d.record q c status info).length = 32 := by
  simp [Dev.record]

/-- The status that a record holds (R329). -/
theorem Dev.record_status {d : Dev} {q : Nat} {c : Cmd} {st st' info info' : Nat} (h : d.record q c st info = d.record q c st' info') :
    st % 2 ^ 16 = st' % 2 ^ 16 := by
  have hbytes := congrArg (fun bs : List Byte => leNat ((bs.drop 4).take 2)) h
  have hat (st info : Nat) : ((d.record q c st info).drop 4).take 2 = leBytes st 2 := by
    simp only [Dev.record, List.append_assoc]
    rw [List.drop_append_of_le_length (by simp), List.drop_of_length_le (by simp), List.nil_append, List.take_append_of_le_length (by simp),
      List.take_of_length_le (by simp)]
  simpa only [hat, leNat_leBytes] using hbytes

/-- The place of a command's record in its queue's completion ring (R311, R329). -/
def Dev.recordAt (d : Dev) (q : Nat) (c : Cmd) : Nat := d.reg64 .cpQcbaseLo .cpQcbaseHi [q] + 32 * (c.seq % 2 ^ d.queueDepth q)

/-- A command without IRQ that ends lets its record leave for a ring in host memory (R313, R329). -/
theorem Dev.out_finish_host {d : Dev} {q : Nat} {c : Cmd} (hrun : (d.queue q).run = some c) (hring : d.regBit .cpQcfg [q] 28 = false)
    (hirq : c.n 1 1 % 2 ≠ 1) (hd3 : (d.fn (d.queueFn q)).d3 = false)
    (hfit : 32 ≤ tlpLen (128 * 2 ^ (d.fn (d.queueFn q)).mps.val) (d.recordAt q c) 32) (st info : Nat) :
    (d.finish q st info).out = d.out ++ [.hostWrite (d.queueFn q) (d.recordAt q c) (d.record q c st info) false] := by
  have hc : (if c.fault = 0 then { c with fault := 0 } else c) = c := by
    split
    · rename_i h0; rw [← h0]
    · rfl
  have hirq' (x : Dev) : x.cmdIrq q c = x := by simp [Dev.cmdIrq, hirq]
  have hring' : (d.modCmd q fun _ => c).regBit .cpQcfg [q] 28 = false := hring
  have hwrite := Dev.hostWrite_one (d := d.modCmd q fun _ => c) (bs := d.record q c st info) hd3 (List.ne_nil_of_length_pos (by simp))
    (by rw [Dev.record_length]; exact hfit) false
  simp only [Dev.finish, hrun, hc, Dev.putRecord, hring', Bool.false_eq_true, if_false, hirq']
  exact congrArg (fun x : Dev => (x.cmdOver q c).out) hwrite
end Sys2Proof.Machine

/-! SEAL by an instance that names a slot beyond its sixteen (R314, R326). -/

namespace Sys2Proof.Machine
open Host

/-! ### A SEAL that names the next instance's slot -/

/-- The command word of a SEAL whose SLOT is 16, one more than the sixteen slots of an instance (R314, R326). -/
def slot16Seal : Cmd := { seq := 0, pkt := [0x50#8, 0, 0, 0, 0, 0, 0, 0, 16] ++ List.replicate 55 0 }

/-- A LAUNCH of slot 0 of instance 1 in the middle of its only step. -/
def slot16Launch : Cmd := { seq := 0, pkt := [0x11#8] ++ List.replicate 63 0, launch := some { prog := 16, running := true, owns := true } }

/-- A running device of two instances: instance 1 runs its slot 0 on its first queue, and instance 0 has that SEAL on its first queue. -/
def slot16Dev : Dev :=
  { board := { swOn := true, mated := true, risen := true, booted := some false }
    dies := ⟨(List.range 8).map fun i => (i, { st := 2 })⟩
    regs := SMap.set (SMap.set ⟨[]⟩ (RegName.secStatus.addr []) 0x80000000#32) (RegName.drwCfg.addr []) 1
    queues := SMap.set (SMap.set ⟨[]⟩ 0 { run := some slot16Seal }) 256 { run := some slot16Launch }
    slots := SMap.set ⟨[]⟩ 16 { image := [], split := 0, progId := [], marks := [], contexts := 0 } }

/-- The record with which the SEAL ends, on whatever benches, in host memory. -/
theorem out_finish_slot16 (bs : SMap Bench) (st : Nat) :
    (({ slot16Dev with benches := bs } : Dev).finish 0 st 0).out = 
      [.hostWrite (slot16Dev.queueFn 0) (slot16Dev.recordAt 0 slot16Seal) (slot16Dev.record 0 slot16Seal st 0) false] :=
  Dev.out_finish_host (d := { slot16Dev with benches := bs }) rfl (by decide : slot16Dev.regBit .cpQcfg [0] 28 = false) (by decide)
    (by decide : (slot16Dev.fn (slot16Dev.queueFn 0)).d3 = false)
    (by decide : 32 ≤ tlpLen (128 * 2 ^ (slot16Dev.fn (slot16Dev.queueFn 0)).mps.val) (slot16Dev.recordAt 0 slot16Seal) 32) st 0

/-- The device runs the program that the SEAL's slot number reaches, on a queue of the other instance. -/
theorem sealEffect_slot16 : sealEffect 0 [] slot16Dev = slot16Dev.finish 0 7 0 := by
  have hruns : slot16Dev.progRuns (16 * slot16Dev.queueInst 0 + slot16Seal.n 8 1) = true := by decide
  rw [sealEffect, Dev.withCmd_run (c := slot16Seal) rfl (by decide) rfl rfl]
  exact if_pos hruns

/-- No queue of instance 0 runs a LAUNCH. -/
theorem launch_slot16 {r : Nat} (h : r ∈ slot16Dev.queuesOf 0) : slot16Dev.launch r = none := by
  have hr : r < 256 := by
    have hn : 512 / slot16Dev.instN = 256 := by decide
    simpa [Dev.queuesOf, hn] using h
  have hq : slot16Dev.queue r = (SMap.set ⟨[]⟩ 0 { run := some slot16Seal } : SMap Queue).getD r {} :=
    SMap.getD_set_other _ (by omega) _ _
  by_cases h0 : r = 0
  · subst h0; rfl
  · have : slot16Dev.queue r = {} := by rw [hq, SMap.getD_set_other _ h0]; rfl
    simp [Dev.launch, this]

/-- Refutes O53: its clauses on SEAL take any value of SLOT, where a packet has 0 to 15 (R314). A SEAL of slot 16 of instance 0 names no LAUNCH of
the queues of instance 0, so that the statement lets it end with status 0; the device takes the number for slot 0 of instance 1, which a queue of that
instance runs, and ends the command with BUSY. -/
theorem not_programsAndQuiesce : ¬ Obligations.ProgramsAndQuiesce := by
  unfold Obligations.ProgramsAndQuiesce
  intro h
  have hlive : slot16Dev.live = true := by decide
  obtain ⟨-, hseal, -, -⟩ := h.2 { pending := [], dev := slot16Dev } 0 slot16Seal hlive rfl rfl rfl
  obtain ⟨-, -, hends, -⟩ := hseal rfl
  have hinst : slot16Dev.queueInst 0 = 0 := by decide
  have hquiet : ¬ ∃ r l, r ∈ slot16Dev.queuesOf (slot16Dev.queueInst 0) ∧ slot16Dev.launch r = some l ∧
      (l.prog = 16 * slot16Dev.queueInst 0 + slot16Seal.n 8 1 ∨ l.back = some (16 * slot16Dev.queueInst 0 + slot16Seal.n 8 1)) ∧
      (l.running = true ∨ l.owns = true ∨ l.killing ≠ none) := by
    rintro ⟨r, l, hr, hl, -⟩
    rw [launch_slot16 (hinst ▸ hr)] at hl
    cases hl
  obtain ⟨d1, c1, -, -, -, -, -, -, -, ⟨hbenches, -⟩, hdone⟩ := hends [] hquiet (by decide) (by decide) (fun _ hf => by cases hf)
  have hfin : d1.finish 0 0 0 = slot16Dev.finish 0 7 0 :=
    (completes_unique hdone (completes_of_runLive rfl hlive)).trans sealEffect_slot16
  have hout := congrArg Dev.out hfin
  rw [hbenches] at hout
  have hout := (out_finish_slot16 d1.benches 0).symm.trans (hout.trans (out_finish_slot16 slot16Dev.benches 7))
  have hrec : slot16Dev.record 0 slot16Seal 0 0 = slot16Dev.record 0 slot16Seal 7 0 := by simpa using hout
  exact absurd (Dev.record_status hrec) (by decide)

end Sys2Proof.Machine

/-! An all-gather into a line that a book-match window outside the 576 of R409 claims (R389, R410, R414). -/

namespace Sys2Proof.Machine
open Host

/-- The command word of an all-gather of two members in place (R323, R389): 64 bytes of each, this member's at address 64. -/
def inPlaceGather : Cmd :=
  { seq := 0
    pkt := [0x22#8] ++ List.replicate 7 0 ++ [2, 0x10, 0, 0] ++ leBytes 2 4 ++ leBytes 64 8 ++ leBytes 0 8 ++ leBytes 128 8 ++ leBytes 0x1000 8 ++ leBytes 0 16
    phase := 1
    got := leBytes 1 4 ++ leBytes 5 4 }

/-- The line of the all-gather's destination, which its home slice holds. -/
def gatherLine : SLine := { line := 0, loc := 0, valid := true }

/-- The number of a book-match window beyond the 64 of each of the nine owners (R409): its WBASE, WSIZE and WSTATE would lie where UC_SL0_ERR_STATUS,
UC_SL0_HITS and UC_SL0_STATUS do. -/
def strayWindow : Nat := 64 * 255

/-- A running device with device ID 5 and the system peer 1, whose instance 0 runs that all-gather and holds its line. The stray window is open from
address 64 on, and is empty. -/
def strayDev : Dev :=
  { board := { swOn := true, mated := true, risen := true, booted := some false }
    dies := ⟨(List.range 8).map fun i => (i, { st := 2 })⟩
    regs := ([(RegName.secStatus.addr [], 0x80000000#32), (RegName.fabDevid.addr [0], 0x80000005#32), (RegName.fabPeerId.addr [0], 0xC0000001#32),
      (RegName.hbmWinBase.addr [16], 0x80000000#32), (RegName.mirWState.addr (mirIx strayWindow), 1#32),
      (RegName.mirWBaseLo.addr (mirIx strayWindow), 64#32)] : List (Nat × W32)).foldl (fun m x => m.set x.1 x.2) ⟨[]⟩
    queues := SMap.set ⟨[]⟩ 0 { run := some inPlaceGather }
    slices := SMap.set ⟨[]⟩ 0 { lines := SMap.set ⟨[]⟩ 0 gatherLine }
    mirrors := SMap.set ⟨[]⟩ strayWindow { bitmapValid := true } }

/-- Where the part of this member lies. -/
def gatherLoc : Loc := { die := 0, x := 64, ro := false, win := strayDev.win 16 }

/-- The home slice holds that line. -/
theorem gatherLoc_holds : HomeHolds strayDev gatherLoc 0 gatherLine :=
  ⟨by decide, by decide, rfl, rfl, rfl, rfl, rfl⟩

/-- Its address is mapped for the queue's instance, and no window holds it yet. -/
theorem gatherLoc_held : strayDev.access (strayDev.queueWho 0) 64 = some gatherLoc ∧ HomeHolds strayDev gatherLoc 0 gatherLine ∧ strayDev.mirOf 64 = [] :=
  ⟨by decide +kernel, gatherLoc_holds, by decide +kernel⟩

/-- The hit that the all-gather's read counts gives the stray window a size, so that the write which follows is recorded in the trailer: its header, from
0x45 on, takes the first half of the line (R410, R411, R414). -/
theorem collectiveEffect_strayDev : (((collectiveEffect 0 strayDev).slice 0).lines.find? 0).map (fun z => z.data.byte 0) = some 0x45#8 := by
  decide +kernel

/-- Refutes O55: the statement lets the device hold a book-match window of any number. An all-gather reads its part, which counts in UC_SL0_HITS, and
where that register is the stray window's WSIZE too the window then holds the line that is written: its trailer goes into the line, where the statement
has the bytes that stood beside the part. -/
theorem not_collectives : ¬ Obligations.Collectives := by
  unfold Obligations.Collectives
  intro h
  have hlive : strayDev.live = true := by decide
  obtain ⟨-, hrun⟩ := h { pending := [], dev := strayDev } 0 inPlaceGather hlive rfl rfl rfl (by decide)
  obtain ⟨-, -, -, -, -, -, hgather, -⟩ := hrun rfl
  have hwrites := hgather gatherLoc 0 gatherLine gatherLoc 0 gatherLine rfl
    ⟨fun k hk hj => ?peer, by decide +kernel, by decide +kernel, by decide +kernel, by decide +kernel⟩
    (by decide +kernel) (by decide +kernel) (by decide +kernel) rfl gatherLoc_held (by decide +kernel) gatherLoc_held (by decide +kernel)
    (by decide +kernel) ⟨0, by decide +kernel, by decide +kernel⟩
  case peer =>
    have hk : k < 2 := hk
    interval_cases k
    · exact ⟨0, by decide +kernel⟩
    · exact absurd (by decide +kernel) hj
  obtain ⟨d', hdone, y, -, -, -, -, ⟨z, hz, hdata⟩, -⟩ := hwrites
  have heff : d' = collectiveEffect 0 strayDev := completes_unique hdone (completes_of_runLive rfl hlive)
  have hz : ((collectiveEffect 0 strayDev).slice 0).lines.find? 0 = some z := heff ▸ hz
  have hhead := collectiveEffect_strayDev
  rw [hz, Option.map_some, Option.some.injEq, hdata] at hhead
  exact absurd hhead (by decide +kernel)
end Sys2Proof.Machine
